-- ==== Sys2Proof/Word.lean ====
section
/-! DEFINITION. The word types of the LX-64 model and the association tables its state is made of.
A table lists (key, value) pairs; a key that is not listed reads as the default the reader names. -/

namespace Sys2Proof

abbrev Byte := BitVec 8
abbrev U8 := BitVec 8
abbrev U16 := BitVec 16
abbrev U32 := BitVec 32
abbrev U64 := BitVec 64

/-- A sparse table: (key, value) pairs in rising key order. -/
abbrev Tbl (α : Type) := List (Nat × α)

end Sys2Proof
end

