-- ==== Sys2Proof/Config.lean ====
section
/-! DEFINITION. The free values: what the manual leaves open, as constants without a body. Nothing in Lean can
evaluate them, so a claim that mentions one holds for every value of it. -/

namespace Sys2Proof

/-- The n-th 128-bit draw of the Gatehouse DRBG (R340): interleave keys (R276), spray keys (R316),
session nonces (R355) and exchange keys. The manual fixes no value. Log entry 5. -/
opaque Config.drbg : Nat → BitVec 128

/-- Factory values of the module (R366, R348): what the manual calls "Factory" and gives no number for. Log entry 6. -/
opaque Config.serial : BitVec 256
opaque Config.stepping : BitVec 16
opaque Config.certificates : Nat → BitVec 256
opaque Config.identityChain : List Byte
opaque Config.factorySoAnchors : List Byte
opaque Config.viloloRoot : List Byte

/-- The digests and signatures of an attestation report (R347): standard algorithms named and not given by the
manual, as functions of the bytes they cover. Log entry 7. -/
opaque Config.sha384 : List Byte → BitVec 384
opaque Config.ecdsaP384 : List Byte → List Byte
opaque Config.mlDsa87 : List Byte → List Byte

/-- Share, key, ciphertext, signature and MAC bytes the Gatehouse puts into the n-th key-exchange message it sends
(R342, R343). Log entry 7. -/
opaque Config.keyxBody : Nat → List Byte

/-- AES-256-GCM of a packet (R300), by link, plot, key generation and packet counter: ciphertext of the plain bytes, and the tag over
the additional authenticated data and the plain bytes. Log entry 7. -/
opaque Config.gcmText : Nat → Nat → Nat → Nat → List Byte → List Byte
opaque Config.gcmTag : Nat → Nat → Nat → Nat → List Byte → List Byte → List Byte

/-- The session id that the n-th OPEN returns (Table 15.4): the manual says that it is returned and gives no number. Log entry 96. -/
opaque Config.sessionId : Nat → BitVec 16

/-- What a 320-bit slot holds when the values of carry records sum to a number that 320 bits cannot hold (R62, R107). Log entry 100. -/
opaque Config.slotBeyond : Int → BitVec 320

/-- The step of Table 15.7 at which a loss of power, the one of this number, cuts the snapshot that is due: 0 before it begins, 4 with the
commit word not yet zero, 5 and above once it is (R362, R406). A free value: log entry 118. -/
opaque Config.snapshotCut : Nat → Nat

/-- The pseudo-channel that serves a byte outside every plot's slices, by module address: R275 maps slices only. Log entry 108. -/
opaque Config.otherChannel : Nat → BitVec 6

/-- FWHASH: the SHA-384 of the firmware image in a slot, which the manual does not give (R347). Log entry 6. -/
opaque Config.fwHash : Nat → BitVec 384

end Sys2Proof
end

