-- ==== Sys2Proof/Syntax.lean ====
section
/-! DEFINITION. The commands of the LX-64 block: one constructor of `Instr` for each row of the table of operations and
events, with the row's operands. Numbers that only name a unit (a pavilion, a port die, a plot, a link) are Nat and are
bounded by `Instr.wf`; what the manual lays out as bits is a bit vector of the manual's width. -/

namespace Sys2Proof

/-! ### Engines and their commands (chapters 04 and 05) -/

/-- An engine: linear pavilion index (R16) and ENG code of Table 4.1. -/
structure EngRef where
  pav : Nat
  eng : Nat
deriving DecidableEq, Repr, Inhabited

/-- What SECDED and parity find in the words a command touches (R127, R280): the errors are physical events, so they are
operands. Word numbers are byte addresses divided by 32. Log entry 9. -/
structure Upset where
  corrected : Bool := false
  badWords : List Nat := []
  /-- An uncorrectable error in a tile register, slot, Lattice buffer or sort buffer that the command reads. -/
  array : Bool := false
  parity : Bool := false
  /-- With `parity` of a command queue: the oldest issued command whose entry it corrupted, counted from the oldest in flight;
  none where no issued command is concerned (R155). -/
  issued : Option Nat := none
  /-- Module address of an HBM word corrected by the controller. -/
  hbmCorrected : Option Nat := none
  /-- Module address of an HBM word corrected by its stack's on-die ECC (R280). -/
  hbmOnDie : Option Nat := none
  hbmBad : List Nat := []
  /-- Words of port dies' buffer memory newly found uncorrectable: die and word. -/
  dieBad : List (Nat × Nat) := []
deriving DecidableEq, Repr, Inhabited

/-- The common command fields of Table 5.1 and Table 5.2, OPC and ENG apart. -/
structure CmdHdr where
  tag : BitVec 16 := 0
  w : Bool := false
  wctr : BitVec 6 := 0
  wthr : BitVec 12 := 0
  s : Bool := false
  sctr : BitVec 6 := 0
  sinc : BitVec 4 := 0
  ord : Bool := false
  wdec : Bool := false
  laa : Bool := false
  lab : Bool := false
  trc : Bool := false
deriving DecidableEq, Repr, Inhabited

/-- LOOP operands (Table 5.3). -/
structure LoopOps where
  cs : Bool
  sn : BitVec 5
  count : BitVec 16
deriving DecidableEq, Repr, Inhabited

/-- SALU operands (R145). -/
structure SaluOps where
  op : BitVec 4
  i : Bool
  d : BitVec 5
  a : BitVec 5
  b : BitVec 5
  imm : BitVec 16
deriving DecidableEq, Repr, Inhabited

/-- TLD, TST and TSUM operands (Table 5.5). -/
structure TileMem where
  t : BitVec 5
  fmt : BitVec 4
  sa : BitVec 5
  sx : BitVec 5
  off : BitVec 22
  rs : BitVec 14
  rm : BitVec 2
  si : BitVec 5
  y : BitVec 2
deriving DecidableEq, Repr, Inhabited

/-- A broadcast selector (Table 5.6). -/
structure BSel where
  kind : BitVec 2
  reg : BitVec 5
  idx : BitVec 5
deriving DecidableEq, Repr, Inhabited

/-- EXEC operands (Table 5.6). -/
structure ExecOps where
  epa : BitVec 8
  epl : BitVec 7
  b0 : BSel
  b1 : BSel
  b2 : BSel
  b3 : BSel
deriving DecidableEq, Repr, Inhabited

/-- AMODE operands (Table 5.11). -/
structure AmodeOps where
  slot : BitVec 10
  n : BitVec 11
  mode : Bool
  b : BitVec 12
  fmt : BitVec 4
  sq : Bool
deriving DecidableEq, Repr, Inhabited

/-- ACLR operands (Table 5.11). -/
structure AclrOps where
  slot : BitVec 10
  n : BitVec 11
deriving DecidableEq, Repr, Inhabited

/-- ADDD operands (Table 5.11). -/
structure AdddOps where
  src : BitVec 22
  slot : BitVec 10
  n : BitVec 11
  fmt : BitVec 4
  sq : Bool
  scoff : BitVec 16
deriving DecidableEq, Repr, Inhabited

/-- ADDI operands (Table 5.11). -/
structure AddiOps where
  src : BitVec 22
  slot : BitVec 10
  n : BitVec 12
  fmt : BitVec 4
  sq : Bool
  ib : BitVec 15
deriving DecidableEq, Repr, Inhabited

/-- ACARRY operands (Table 5.11). -/
structure AcarryOps where
  src : BitVec 22
  slot : BitVec 10
  n : BitVec 12
  ib : BitVec 16
deriving DecidableEq, Repr, Inhabited

/-- ADRAIN operands (Table 5.11). -/
structure AdrainOps where
  dst : BitVec 22
  slot : BitVec 10
  n : BitVec 11
  ofmt : BitVec 4
  rm : BitVec 2
  mean : Bool
  dsrc : Bool
  dblk : BitVec 13
deriving DecidableEq, Repr, Inhabited

/-- Operands of the four MERGE commands (R148). -/
structure MergeOps where
  pb : BitVec 22
  vfmt : BitVec 4
  key : Bool
  dir : Bool
  dup : BitVec 2
  fop : BitVec 3
deriving DecidableEq, Repr, Inhabited

/-- LMM operands (R149). -/
structure LmmOps where
  pb : BitVec 22
  afmt : BitVec 4
  bfmt : BitVec 4
  sp : BitVec 2
  init : Bool
  ob : Bool
  rm : BitVec 2
deriving DecidableEq, Repr, Inhabited

/-- MSIG operands (R153). -/
structure MsigOps where
  kind : BitVec 4
  pav : BitVec 8
  die : BitVec 4
  ctr : BitVec 10
  inc : BitVec 4
deriving DecidableEq, Repr, Inhabited

/-- A decoded operation of Tables 5.3, 5.4, 5.10, 5.13, 5.16 and of R149. -/
inductive EngOp where
  | nop
  | loop (o : LoopOps)
  | endloop
  | frame (nf : BitVec 16)
  | halt
  | mark (v : BitVec 32)
  | setvl (n : BitVec 10)
  | setvls (sn : BitVec 5)
  | sli (d : BitVec 5) (imm : BitVec 32)
  | salu (o : SaluOps)
  | tld (o : TileMem)
  | tst (o : TileMem)
  | tsum (o : TileMem)
  | exec (o : ExecOps)
  | amode (o : AmodeOps)
  | aclr (o : AclrOps)
  | addd (o : AdddOps)
  | addi (o : AddiOps)
  | acarry (o : AcarryOps)
  | adrain (o : AdrainOps)
  | mmerge (o : MergeOps)
  | msort (o : MergeOps)
  | mtopk (o : MergeOps)
  | mfilt (o : MergeOps)
  | lmm (o : LmmOps)
  | mcopy (mda : BitVec 22)
  | msig (o : MsigOps)
deriving DecidableEq, Repr, Inhabited

/-- A command of a stream: its common fields and its operation (R128). -/
structure EngCmd where
  hdr : CmdHdr
  op : EngOp
deriving DecidableEq, Repr, Inhabited

/-- Where a remote signal goes (R153): a counter of a pavilion, or a plot-relative trigger counter on a port die. -/
inductive SigTarget where
  | pav (pav ctr : Nat)
  | die (die plot ctr : Nat)
deriving DecidableEq, Repr, Inhabited

/-- One sender of a signal (R176): an engine by its MSIG, or a Dovecote. -/
inductive SigSource where
  | engine (u : EngRef)
  | dovecote (die : Nat)
deriving DecidableEq, Repr, Inhabited

/-! ### Packets (chapter 12) -/

/-- A received packet: the header flit fields of Table 12.1, the operation header (bytes 16–47), the two bytes at 48–49,
the payload bytes, the crypto header of R300 and what the receiving side finds of its flits (R290). -/
structure Pkt where
  vc : BitVec 3
  cls : BitVec 2
  prov : Bool := false
  plot : BitVec 5 := 0
  epoch : BitVec 16 := 0
  dest : BitVec 24 := 0
  opc : BitVec 8
  tag : BitVec 16 := 0
  len : BitVec 5 := 0
  op : BitVec 256 := 0
  ext : BitVec 16 := 0
  body : List Byte := []
  kgen : BitVec 8 := 0
  ctr : BitVec 32 := 0
  /-- Some payload flit has PSN set. -/
  poison : Bool := false
  /-- The Gatehouse engine's verdict on the GCM tag (R300). Log entry 7. -/
  tagOk : Bool := true
deriving DecidableEq, Repr, Inhabited

/-- What comes with a SEG as it is processed: the cycle of the tick at which it ended at the port (R221), and what its memory words meet. -/
structure SegIn where
  cycle : BitVec 16 := 0
  upset : Upset := {}
deriving DecidableEq, Repr, Inhabited

/-- A flit at a link's receiver, and the cycle of the tick at which it arrives (R293). -/
structure FlitIn where
  bytes : List Byte
  cycle : Nat := 0
deriving DecidableEq, Repr, Inhabited

/-- The plot whose norm trigger fires, and what the words it reads meet: `slot` is the entry of SLIST that what SECDED finds in slots
concerns. Log entry 9. -/
structure NormIn where
  plot : Nat
  upset : Upset := {}
  slot : Nat := 0
deriving DecidableEq, Repr, Inhabited

/-- The SUNDIAL body of Table 12.7. -/
structure SundialBody where
  frame : BitVec 64
  txs : BitVec 64
  echots : BitVec 64
  hold : BitVec 32
  phase : BitVec 16
  err : BitVec 16
  master : BitVec 24
  period : BitVec 8
  state : BitVec 8
  hops : BitVec 8
deriving DecidableEq, Repr, Inhabited

/-- The HEARTBEAT body of Table 12.6. -/
structure HeartbeatBody where
  epid : BitVec 24
  epoch : BitVec 16
  ticks : BitVec 32
  state : BitVec 8
deriving DecidableEq, Repr, Inhabited

/-- The PARAM body of Table 12.6, and how many partners answered on the link (R302). -/
structure ParamBody where
  version : BitVec 8
  role : BitVec 8
  half : BitVec 8
  epid : BitVec 32
  init : List (BitVec 16)
  mask : BitVec 32
  retry : BitVec 16
  partners : Nat
deriving DecidableEq, Repr, Inhabited

/-- A reassembled key-exchange message (R343): element types and lengths in order, its total length, and the Gatehouse's
verdict on its chains, signatures or MAC (R342). Log entry 7. -/
structure KeyxMsg where
  elems : List (Nat × Nat)
  inOrder : Bool
  total : Nat
  verdict : Bool
deriving DecidableEq, Repr, Inhabited

/-! ### Kiosk requests (chapter 15) -/

/-- The transports of R353. -/
inductive Transport where
  | tls0 | tls1 | inband | i3c
deriving DecidableEq, Repr, Inhabited

/-- The roles of R338. -/
inductive Role where
  | so | fm | po | ob
deriving DecidableEq, Repr, Inhabited

/-- The parts of a Kiosk request that every operation has (Table 15.4): the slot its SID names, SEQ, whether its header is
valid, the body length, and for an in-band session MCTR and the verdict on its MAC (R355). -/
structure KReq where
  slot : Nat
  seq : BitVec 32
  wellFormed : Bool := true
  len : Nat
  mctr : BitVec 64 := 0
  macOk : Bool := true
deriving DecidableEq, Repr, Inhabited

/-- A segment of a DOMAIN write (R357). -/
structure DomSeg where
  offset : Nat
  last : Bool
  data : List Byte
deriving DecidableEq, Repr, Inhabited

/-- What a client certificate chain leads to (R354): the role-anchor lists it leads to, in no order, the plot a PO
certificate names, and whether the signatures hold. Log entry 7. -/
structure ChainVerdict where
  leads : List Role
  plot : Option Nat
  signed : Bool
deriving DecidableEq, Repr, Inhabited

/-- The unit a self-test runs on (R167). -/
inductive TestUnit where
  | pavilion (i : Nat)
  | portDie (j : Nat)
deriving DecidableEq, Repr, Inhabited

/-- A requester of the buffer pool manager on the package (R191): a port die or a core die, acting for a plot; and whether an error
that SECDED cannot correct is met in the hub's state (R367). Log entry 9. -/
structure PoolReq where
  plot : Nat
  coreDie : Bool
  die : Nat
  upset : Bool := false
deriving DecidableEq, Repr, Inhabited

/-! ### What is measured or observed -/

/-- A unit that can overrun (R51). -/
inductive WorkUnit where
  | engine (u : EngRef)
  | dovecote (die : Nat)
  | combiner (die : Nat)
  | port (link : Nat)
deriving DecidableEq, Repr, Inhabited

/-- The figures a FRAME_OVERRUN record carries (R51): cycles past the tick, the causes of Table 2.6 that were observed, refresh and
retry cycles of the unit's frame. Which units overran is no operand: the state says it. Log entry 3. -/
structure OverrunObs where
  unit : WorkUnit
  cycles : BitVec 32
  causes : BitVec 7
  refresh : BitVec 32
  retry : BitVec 32
deriving DecidableEq, Repr, Inhabited

/-- Bytes that an HBM stack served in the frame, from one module address on (R281). -/
structure HbmServed where
  addr : Nat
  bytes : Nat
deriving DecidableEq, Repr, Inhabited

/-- What the module measures of the frame a tick ends: energy (R396), input voltage and power, overrun figures, and what its
HBM stacks served. Log entry 3. -/
structure TickEnv where
  energy : BitVec 32 := 0
  millivolts : BitVec 32 := 0
  milliwatts : BitVec 32 := 0
  overruns : List OverrunObs := []
  hbmServed : List HbmServed := []
deriving DecidableEq, Repr, Inhabited

/-- The lanes of a link that fail their test in LANECHECK (R287): those whose SerDes fails loopback, and those that fail
with a SerDes that passes it. -/
structure LaneCheck where
  serdes : List Nat
  channel : List Nat
deriving DecidableEq, Repr, Inhabited

/-- A link that detects signal at start-up and completes bring-up: its partner's PARAM set and the measured round trip. -/
structure StartLink where
  link : Nat
  param : ParamBody
  rtt : BitVec 32
  lanes : LaneCheck
deriving DecidableEq, Repr, Inhabited

/-- Why a firmware slot fails its verification (R344). -/
inductive BootVerdict where
  | good (version : BitVec 32) (svn : BitVec 32)
  | badSignature
  | rollback
deriving DecidableEq, Repr, Inhabited

/-- A SUNDIAL set heard in step 9 (R404): its link, what it says, and the core cycles by which its sender's tick phase lies off this
module's. -/
structure PhaseSet where
  link : Nat
  hops : BitVec 8
  state : BitVec 8
  frame : BitVec 64
  cycles : Int
deriving DecidableEq, Repr, Inhabited

/-- What the start-up steps of Table 17.5 find: the outcome of every test is an operand of the start-up event. `reached`
is the step still in progress when the event ends, 11 when Kiosk ready is reached. Log entry 12. -/
structure StartEnv where
  reached : Nat := 11
  katFail : Bool := false
  aesFailDies : List Nat := []
  slotA : BootVerdict := .good 0 0
  slotB : BootVerdict := .good 0 0
  fuseOk : Bool := true
  bistPavs : List Nat := []
  bistDies : List Nat := []
  bistHub : Bool := false
  /-- The lanes of a link whose SerDes fails loopback (R287). -/
  bistLanes : List (Nat × List Nat) := []
  badStacks : List Nat := []
  links : List StartLink := []
  /-- The SUNDIAL sets heard in step 9, one a link. -/
  phase : List PhaseSet := []
  hotJunction : Bool := false
  tallyOk : Bool := true
  snapshotOk : Bool := true
  durations : List (BitVec 32) := []
deriving DecidableEq, Repr, Inhabited

/-- The result of a flash verify of a journal snapshot (R364): on the first run and on the second. -/
structure FlashObs where
  first : Bool
  second : Bool
deriving DecidableEq, Repr, Inhabited

/-- What patrol scrub finds in a word (R280). -/
inductive ScrubObs where
  | clean
  | corrected
  | onDie
  | uncorrectable
deriving DecidableEq, Repr, Inhabited

/-- Why the carrier removes package power (Table 17.3). -/
inductive PowerCause where
  | voltage
  | overdraw
deriving DecidableEq, Repr, Inhabited

/-- A temperature in thousandths of a degree Celsius. -/
structure Reading where
  sensor : Nat
  mC : Int
deriving DecidableEq, Repr, Inhabited

/-- The commands and events of the table. -/
inductive Instr where
  -- chapter 02
  | tick (env : TickEnv)
  | periodWrite (q : KReq) (v : BitVec 8)
  | sundial (link : Nat) (b : SundialBody) (trx : BitVec 64) (prx : Nat)
  | sundialHoldover
  | sundialLost
  -- chapters 04, 05 and 07: engines
  | commandFetch (u : EngRef) (x : Upset)
  | headClockGate (u : EngRef)
  | breakHit (u : EngRef)
  | commandComplete (u : EngRef)
  | remoteSignalArrival (t : SigTarget) (senders : List (SigSource × BitVec 4)) (x : Upset)
  | nop (u : EngRef) (x : Upset) (k : CmdHdr)
  | loop (u : EngRef) (x : Upset) (k : CmdHdr) (o : LoopOps)
  | endloop (u : EngRef) (x : Upset) (k : CmdHdr)
  | frame (u : EngRef) (x : Upset) (k : CmdHdr) (nf : BitVec 16)
  | halt (u : EngRef) (x : Upset) (k : CmdHdr)
  | mark (u : EngRef) (x : Upset) (k : CmdHdr) (v : BitVec 32)
  | setvl (u : EngRef) (x : Upset) (k : CmdHdr) (n : BitVec 10)
  | setvls (u : EngRef) (x : Upset) (k : CmdHdr) (sn : BitVec 5)
  | sli (u : EngRef) (x : Upset) (k : CmdHdr) (d : BitVec 5) (imm : BitVec 32)
  | salu (u : EngRef) (x : Upset) (k : CmdHdr) (o : SaluOps)
  | tld (u : EngRef) (x : Upset) (k : CmdHdr) (o : TileMem)
  | tst (u : EngRef) (x : Upset) (k : CmdHdr) (o : TileMem)
  | tsum (u : EngRef) (x : Upset) (k : CmdHdr) (o : TileMem)
  | execProg (u : EngRef) (x : Upset) (k : CmdHdr) (o : ExecOps)
  | amode (u : EngRef) (x : Upset) (k : CmdHdr) (o : AmodeOps)
  | aclr (u : EngRef) (x : Upset) (k : CmdHdr) (o : AclrOps)
  | addd (u : EngRef) (x : Upset) (k : CmdHdr) (o : AdddOps)
  | addi (u : EngRef) (x : Upset) (k : CmdHdr) (o : AddiOps)
  | acarry (u : EngRef) (x : Upset) (k : CmdHdr) (o : AcarryOps)
  | adrain (u : EngRef) (x : Upset) (k : CmdHdr) (o : AdrainOps)
  | mmerge (u : EngRef) (x : Upset) (k : CmdHdr) (o : MergeOps)
  | msort (u : EngRef) (x : Upset) (k : CmdHdr) (o : MergeOps)
  | mtopk (u : EngRef) (x : Upset) (k : CmdHdr) (o : MergeOps)
  | mfilt (u : EngRef) (x : Upset) (k : CmdHdr) (o : MergeOps)
  | lmm (u : EngRef) (x : Upset) (k : CmdHdr) (o : LmmOps)
  | mcopy (u : EngRef) (x : Upset) (k : CmdHdr) (mda : BitVec 22)
  | msig (u : EngRef) (x : Upset) (k : CmdHdr) (o : MsigOps)
  | quarterPowerUp (core quarter : Nat)
  -- chapter 06
  | load (q : KReq) (n : Nat)
  | verificationComplete (n : Nat)
  | activate (q : KReq) (n : Nat)
  | activation (n : Nat)
  | loadBlocked (n : Nat)
  | cancel (q : KReq) (n : Nat)
  | bankWrite (q : KReq) (d : DomSeg)
  | selftestPavilion (q : KReq)
  | selftestPortDie (q : KReq)
  | selftestDone (t : TestUnit) (pass : Bool)
  | engineResume (q : KReq) (k : BitVec 16)
  -- chapter 07
  | counterAdjust (q : KReq) (v : BitVec 32)
  | counterFlagClear (q : KReq) (v : BitVec 8)
  | waitCycle (n : Nat)
  | plotResetComplete (n : Nat)
  | poolAlloc (r : PoolReq) (pool : Nat)
  | poolAcquire (r : PoolReq) (h : BitVec 32)
  | poolRelease (r : PoolReq) (h : BitVec 32)
  | bufferAcquire (q : KReq) (h : BitVec 32)
  | bufferRelease (q : KReq) (h : BitVec 32)
  -- chapters 08 and 09
  | descriptorTrigger (die idx : Nat)
  | seg (link : Nat) (p : Pkt) (env : SegIn)
  | stagingRetry (die : Nat) (x : Upset)
  | chunkFeed (die idx : Nat) (x : Upset)
  | resultRelease (die idx : Nat) (x : Upset)
  | runComplete (die idx : Nat)
  | confirm (link : Nat) (p : Pkt) (cycle : BitVec 16)
  | retract (link : Nat) (p : Pkt)
  | provDeadline (die idx : Nat)
  | b2Launch (link : Nat) (p : Pkt)
  | b2Status (link : Nat) (p : Pkt)
  -- chapters 12 and 13: packets
  | p2p (link : Nat) (p : Pkt)
  | pairEntryAdmit (link : Nat)
  | e2eAck (link : Nat) (p : Pkt)
  | stream (link : Nat) (p : Pkt)
  | telemetry (link : Nat) (p : Pkt)
  -- chapter 10
  | shardEntryWrite (q : KReq) (d : DomSeg)
  | digestTrigger (n : Nat)
  | digestBlock (n : Nat) (x : Upset)
  | digestComplete (n : Nat)
  | digestHeader (link : Nat) (p : Pkt)
  | digestList (link : Nat) (p : Pkt)
  | shardCommit (n : Nat)
  | psTwinLate (n : Nat)
  | adoptLocal (q : KReq)
  | adoptTwin (q : KReq)
  | abandon (q : KReq)
  | restore (q : KReq)
  | invalidate (q : KReq)
  | commitDegraded (q : KReq)
  | restoreRequest (link : Nat) (p : Pkt)
  | restoreData (link : Nat) (p : Pkt)
  | restoreRefusal (link : Nat) (p : Pkt)
  | abortNotice (link : Nat) (p : Pkt)
  | normTrigger (t : NormIn)
  | normPartial (link : Nat) (p : Pkt)
  | normResult (link : Nat) (p : Pkt)
  | normConfigWrite (q : KReq) (d : DomSeg)
  | stepCounterWrite (q : KReq) (n : Nat) (v : BitVec 64)
  -- chapter 11
  | regionWrite (q : KReq) (n : Nat) (v : BitVec 64)
  | scrubComplete (stack unit : Nat)
  | refresh (stack channel bank : Nat)
  | patrolScrub (addr : Nat) (o : ScrubObs)
  | hbmPressure (stack : Nat)
  | hbmStackFail (stack : Nat)
  -- chapter 12: links
  | flitReceive (link : Nat) (f : FlitIn)
  | linkSet (link : Nat) (ackseq : BitVec 14) (ackv : Bool) (ret : List (BitVec 16))
  | linkSetDue (link : Nat)
  | nak (link : Nat) (seq : BitVec 14)
  | replayTimeout (link : Nat)
  | linkSendSlot (link : Nat)
  | heartbeat (link : Nat) (b : HeartbeatBody)
  | neighbourSuspect (epid : BitVec 24)
  | linkSignalDetect (link : Nat)
  | trainDone (link : Nat)
  | alignDone (link : Nat)
  | lanecheckDone (link : Nat) (c : LaneCheck)
  | param (link : Nat) (b : ParamBody)
  | linkStateTimeout (link : Nat)
  | linkReattempt (link : Nat)
  | laneFail (link lane : Nat) (loopbackPasses : Bool)
  | laneRetrainDone (link : Nat)
  | spare (link : Nat) (lane : BitVec 16) (phase : BitVec 8)
  | signalLost (link : Nat)
  | down (link : Nat) (cause : BitVec 16)
  | linkBringUp (q : KReq) (n : Nat) (half : Bool)
  | linkTakeDown (q : KReq) (n : Nat) (half : Bool)
  | portModeWrite (q : KReq) (n : Nat) (v : BitVec 8)
  -- chapter 13
  | routeTableWrite (q : KReq) (d : DomSeg)
  | directionMapWrite (q : KReq) (v : BitVec 256)
  | routeStall (link vc : Nat)
  | sprayPressure (entry : Nat)
  | schedStarved (link sub cls : Nat)
  -- chapter 14
  | pavilionMaskWrite (q : KReq) (n : Nat) (v : BitVec 256)
  | portMaskWrite (q : KReq) (n : Nat) (v : BitVec 64)
  | plotStart (q : KReq) (n : Nat)
  | suspend (q : KReq) (n : Nat)
  | plotResume (q : KReq) (n : Nat)
  | plotReset (q : KReq) (n : Nat)
  | releaseHold (q : KReq) (n : Nat)
  | jobSeedWrite (q : KReq) (n : Nat) (d : DomSeg)
  | energyBudgetWrite (q : KReq) (n : Nat) (v : BitVec 32)
  | zeroise (q : KReq) (v : BitVec 8)
  | attestationRequest (q : KReq) (d : DomSeg)
  | attestationReportReady
  | hello (link : Nat) (m : KeyxMsg)
  | response (link : Nat) (m : KeyxMsg)
  | finish (link : Nat) (m : KeyxMsg)
  | keyAgreeTimeout (link : Nat)
  | entropyFail
  | lockstepFail
  -- chapter 15
  | openSession (q : KReq) (t : Transport) (link : Nat) (c : ChainVerdict)
  | auth (q : KReq) (c : ChainVerdict)
  | authTimeout (slot : Nat)
  | close (q : KReq)
  | sessionTimeout (slot : Nat)
  | closeSession (q : KReq) (v : BitVec 8)
  | objectWrite (q : KReq) (index : BitVec 16) (sub : BitVec 8) (command : Bool) (d : DomSeg)
  | subscribe (q : KReq) (index : BitVec 16) (sub : BitVec 8) (period : BitVec 32)
  | unsubscribe (q : KReq) (index : BitVec 16) (sub : BitVec 8)
  | notify (slot : Nat) (index : BitVec 16) (sub : BitVec 8)
  | ringRead (q : KReq) (cls : Nat) (offset len : Nat)
  | snapshot (o : FlashObs)
  | telemetryExport (link : Option Nat)
  | incidentEnd (plot : Option Nat)
  -- chapter 16
  | membershipTableWrite (q : KReq) (d : DomSeg)
  | accuse (link : Nat) (p : Pkt)
  | roundStart (n : Nat)
  | roundTakeover (n : Nat)
  | propose (link : Nat) (p : Pkt)
  | ack (link : Nat) (p : Pkt)
  | roundClose (n : Nat) (windowOver : Bool)
  | commit (link : Nat) (p : Pkt)
  | epochAdopt (n : Nat)
  | noquorum (link : Nat) (p : Pkt)
  | pull (link : Nat) (p : Pkt)
  | probe (link : Nat) (p : Pkt)
  | probeReply (link : Nat) (p : Pkt)
  | probeTimeout (n : Nat)
  | claimDead (q : KReq) (v : BitVec 32)
  | claimAlive (q : KReq) (v : BitVec 32)
  -- chapter 17
  | powerGood (env : StartEnv)
  | startupTimeout
  | vinRange (millivolts : BitVec 32)
  | powerLoss (c : PowerCause)
  | resetN
  | sensorConversion (rs : List Reading)
  | thermtrip (r : Reading)
  | coolantWarn (inlet : Int) (flow : BitVec 32)
  | moduleWarmReset (q : KReq) (env : StartEnv)
  | pavilionReset (q : KReq) (selftestPasses : Bool)
  | engineReset (q : KReq)
  | coldReset (q : KReq)
  | firmwareImageWrite (q : KReq) (d : DomSeg) (v : BootVerdict)
  | updateDone
  | preferredSlotWrite (q : KReq) (v : BitVec 8)
  | vauxRemoved
  | tlsConnectionEnd (slot : Nat)
  | managementLinkUp (port : Nat)
  | kiosk (link : Nat) (p : Pkt)
  | keyInstalled (link plot : Nat)
  | stackTemperature (stack : Nat) (mC : Int)
deriving DecidableEq, Repr

end Sys2Proof
end

