-- ==== Sys2Proof/Decode.lean ====
section
/-! DEFINITION. The table of operations and events gives its rows no bits: a command of the block is a write, a packet, a message
or an event, and not a word. The 128-bit commands of the engine streams (R128, chapter 05) are data that the block itself
reads; their decoder stands in Machine/EngDecode.lean. -/

namespace Sys2Proof

/-- The command that a word spells by the table's bits: no row gives bits, so none. -/
def decodeTableWord (_nbits _w : Nat) : Option Instr := none

end Sys2Proof
end

