-- ==== Sys2Proof/Machine/State.lean ====
section
/-! DEFINITION. The state of the LX-64 block as plain data, its reset value, and the reasons a step can stop. Every field's
docstring gives its width, the rule and file that name it, and its value at reset. Tables (`Tbl`, and `Host.Cell` lists for
memory) are sparse: a key that is not listed reads as the default named beside the table. -/

namespace Sys2Proof.Machine

/-- No command of this block stops the machine: every row of the table has an effect, a refusal by status or no effect at
all, each of which is a next state. No rule raises this. -/
inductive Fault where
  /-- Raised by nothing. Safe. -/
  | none
deriving DecidableEq, Repr

/-- Why a command has no meaning. -/
inductive Refusal where
  /-- A command whose meaning is not written yet, by its mnemonic. Raised by a refused arm of `exec` only. Safe. -/
  | notModelled (mnemonic : String)
deriving DecidableEq, Repr

/-! ### Pavilions -/

/-- A counter of Table 7.1. -/
structure Counter where
  /-- VALUE, 16 bits; R174, 07; reset 0. -/
  value : BitVec 16 := 0
  /-- OVF, 1 bit; R174, 07; reset 0. -/
  ovf : Bool := false
  /-- UNF, 1 bit; R174, 07; reset 0. -/
  unf : Bool := false
  /-- POISON, 1 bit; R174, 07; reset 1. -/
  poison : Bool := true
deriving DecidableEq, Repr, Inhabited

/-- An element of a tile register with the origin R143 has TILE track. -/
structure TVal where
  /-- Tile element, 32 bits; R93, 04; reset 0x0000_0000. -/
  bits : BitVec 32 := 0
  /-- Derives from a loaded NaN, 1 bit; R143, 05; reset 0. -/
  fromNan : Bool := false
  /-- Derives from a loaded infinity, 1 bit; R143, 05; reset 0. -/
  fromInf : Bool := false
deriving DecidableEq, Repr, Inhabited

/-- An exception summary under accumulation (Table 3.5). -/
structure Summary where
  /-- ELEMS, 64 bits; R83, 03; reset 0. -/
  elems : Nat := 0
  /-- FIRST_ESC, 64 bits; R83, 03; reset all ones. -/
  firstEsc : BitVec 64 := BitVec.allOnes 64
  /-- EMPTY, 32 bits saturating; R83, 03; reset 0. -/
  empty : Nat := 0
  /-- ESCAPE, 32 bits saturating; R83, 03; reset 0. -/
  escape : Nat := 0
  /-- UNDERFLOW, 32 bits saturating; R83, 03; reset 0. -/
  underflow : Nat := 0
  /-- SAT, 32 bits saturating; R83, 03; reset 0. -/
  sat : Nat := 0
  /-- OVERFLOW, 32 bits saturating; R83, 03; reset 0. -/
  overflow : Nat := 0
  /-- NAN_GEN, 32 bits saturating; R83, 03; reset 0. -/
  nanGen : Nat := 0
  /-- INF_IN, 32 bits saturating; R83, 03; reset 0. -/
  infIn : Nat := 0
  /-- NAN_IN, 32 bits saturating; R83, 03; reset 0. -/
  nanIn : Nat := 0
  /-- STEP, 64 bits; R143, 05; reset 0. -/
  step : BitVec 64 := 0
  /-- TID, 32 bits; R143, 05; reset 0. -/
  tid : BitVec 32 := 0
  /-- FMT, 4 bits; R143, 05; reset 0. -/
  fmt : BitVec 4 := 0
  /-- FTO, 1 bit; R83, 03; reset 0. -/
  fto : Bool := false
  /-- VALID, 1 bit; R83, 03; reset 1. -/
  valid : Bool := true
  /-- TID, STEP and FMT have been taken since the last clear, 1 bit; R143, 05; reset 0. -/
  taken : Bool := false
deriving DecidableEq, Repr, Inhabited

/-- An accumulator slot (R62, R66). -/
structure Slot where
  /-- Mode, 1 bit: XA640w; R105, 04; reset XA320. -/
  wide : Bool := false
  /-- Input format, 4 bits or none set; R93, 04; reset none. -/
  fmt : Option (BitVec 4) := none
  /-- SQ, 1 bit; R93, 04; reset 0. -/
  sq : Bool := false
  /-- Window base B, signed 12 bits; R66, 03; reset 0. -/
  base : Int := 0
  /-- Value, two's complement of 320 or 640 bits, in units of 2^−149 or 2^B; R62, R66, 03; reset 0. -/
  value : Int := 0
  /-- Contribution count, 33 bits; R62, 03; reset 0. -/
  count : Nat := 0
  /-- POS_INF, 1 bit; R62, 03; reset 0. -/
  posInf : Bool := false
  /-- NEG_INF, 1 bit; R62, 03; reset 0. -/
  negInf : Bool := false
  /-- NAN, 1 bit; R62, 03; reset 0. -/
  nan : Bool := false
  /-- ALL_NEG_ZERO, 1 bit; R62, 03; reset 1. -/
  allNegZero : Bool := true
  /-- Escaped inputs of the slot, ESCAPE being set when not 0; R67, 03; reset 0. -/
  escapes : Nat := 0
  /-- The slot met the contribution limit, 1 bit; R64, 03; reset 0. -/
  limit : Bool := false
deriving DecidableEq, Repr, Inhabited

/-- Where the remote signal of an issued MSIG stands (R153, R155, R183). -/
inductive SigState where
  | notSent
  | onTheWay
  | applied
  | saturated
  | dropped
deriving DecidableEq, Repr, Inhabited

/-- A command in an engine's queue, with the iteration index of the innermost loop at its fetch (R136). -/
structure QCmd where
  cmd : EngCmd
  iter : Nat := 0
deriving DecidableEq, Repr, Inhabited

/-- A command that has issued and not completed (R133). -/
structure Flight where
  cmd : EngCmd
  /-- Where the remote signal of an MSIG stands; `notSent` for every other command. -/
  sig : SigState := .notSent
  /-- The model's own number of that signal among the engine's MSIGs; reset 0. -/
  sigId : Nat := 0
deriving DecidableEq, Repr, Inhabited

/-- An open loop of the fetch (R138): index of the first body command, iterations, current iteration. -/
structure LoopFrame where
  start : Nat
  count : Nat
  i : Nat
deriving DecidableEq, Repr, Inhabited

/-- The states of 0x5000:06 (Table 6.6). -/
inductive EngMode where
  | idle | running | waiting | gated | frozen | fault | selftest
deriving DecidableEq, Repr, Inhabited

/-- An engine of a pavilion (R92, R133). -/
structure Engine where
  /-- Instruction bank 0, 4,096 commands of 128 bits; R163, 06; reset empty. -/
  bank0 : List (BitVec 128) := []
  /-- Instruction bank 1, 4,096 commands of 128 bits; R163, 06; reset empty. -/
  bank1 : List (BitVec 128) := []
  /-- Element-program store of bank 0, 2,048 words of 32 bits (TILE); R104, 04; reset empty. -/
  store0 : List (BitVec 32) := []
  /-- Element-program store of bank 1, 2,048 words of 32 bits (TILE); R104, 04; reset empty. -/
  store1 : List (BitVec 32) := []
  /-- Active bank, 0x5000:0A, 1 bit; R173, 06; reset 0. -/
  active : Bool := false
  /-- The engine has a program, 1 bit; R164, 06; reset 0. -/
  program : Bool := false
  /-- Fetch index, 0–4,096; R133, 05; reset 0. -/
  fetchPc : Nat := 0
  /-- Open loops of the fetch, at most 4; R138, 05; reset none. -/
  loops : List LoopFrame := []
  /-- Command queue, at most 512; R133, 05; reset empty. -/
  queue : List QCmd := []
  /-- Issued and not completed commands, at most 16, oldest first; R133, 05; reset none. -/
  inflight : List Flight := []
  /-- Program frame number pf; R139, 05; reset 0. -/
  pf : Nat := 0
  /-- HALT has completed or an engine reset ended the stream, 1 bit; R140, R181, 05, 07; reset 0. -/
  halted : Bool := false
  /-- Engine state, 0x5000:06; R173, 06; reset idle. -/
  mode : EngMode := .idle
  /-- Retired count, 0x5000:07, 64 bits; R173, 06; reset 0. -/
  retired : BitVec 64 := 0
  /-- Fault word, 0x5000:08, 64 bits; R155, 05; reset 0. -/
  faultWord : BitVec 64 := 0
  /-- Break enable, 0x5000:02, 8 bits; R169, 06; reset 0. -/
  breakEn : BitVec 8 := 0
  /-- Break count, 0x5000:03, 64 bits; R169, 06; reset 0. -/
  breakCount : BitVec 64 := 0
  /-- Break TAG, 0x5000:04, 32 bits; R169, 06; reset 0. -/
  breakTag : BitVec 32 := 0
  /-- Commands left of a resume for k commands; R171, 06; reset none. -/
  stepsLeft : Option Nat := none
  /-- The head issues even if it meets the condition, 1 bit; R171, 06; reset 0. -/
  passBreak : Bool := false
  /-- The model's own count of the engine's MSIGs, which tells their signals apart (R155, R183); reset 0. -/
  nsig : Nat := 0
deriving DecidableEq, Repr, Inhabited

/-- A pavilion (R92). -/
structure Pavilion where
  /-- Data SRAM, 4 MiB of bytes, unlisted 0; R94, R93, 04; reset zero. -/
  sram : List Host.Cell := []
  /-- SRAM words SECDED finds uncorrectable until a whole-word write; R96, 04; reset none. -/
  badWords : List Nat := []
  /-- Counters C0–C63, unlisted poisoned; R174, 07; reset poisoned. -/
  ctrs : Tbl Counter := []
  /-- Counters whose limit was reported this frame; R176, 07; reset none. -/
  limited : List Nat := []
  /-- T0–T31, key 512 t + e, 32 × 512 × 32 bits, unlisted 0; R93, 04; reset 0. -/
  tiles : Tbl TVal := []
  /-- S0–S31, 32 bits each, unlisted 0; R93, 04; reset 0. -/
  scalars : Tbl (BitVec 32) := []
  /-- VL, 10 bits; R93, 04; reset 512. -/
  vl : Nat := 512
  /-- Summary accumulators Y0–Y3; R143, 05; reset cleared. -/
  sums : Tbl Summary := []
  /-- ACCUM slots 0–1,023 with the slot mode map, unlisted cleared; R93, 04; reset XA320, no format, cleared. -/
  slots : Tbl Slot := []
  /-- Lattice output accumulator, 256 × 64 FP32, unlisted +0; R93, 04; reset +0. -/
  latAcc : Tbl (BitVec 32) := []
  /-- Lattice stationary buffers, 2 × 8 KiB, unlisted 0: row r of a block at 64 r, or 128 r for BF16 (log entry 102); R93, 04; reset zero. -/
  latStat : List Host.Cell := []
  /-- The stationary buffers hold a block, 1 bit; R93, 04; reset 0 (empty). -/
  latFull : Bool := false
  /-- MERGE stream cursors, 16, records consumed of each stream; R93, 04; reset idle. -/
  cursors : List Nat := []
  /-- MERGE sort buffer, at most 4,096 records (index, count, value bits); R93, 04; reset empty. -/
  sortBuf : List (BitVec 32 × BitVec 32 × BitVec 64) := []
  /-- Engines by ENG code 0–5; R92, 04; reset idle. -/
  engines : Tbl Engine := []
  /-- Under self-test, 1 bit; R168, 06; reset 0. -/
  testing : Bool := false
deriving DecidableEq, Repr, Inhabited

/-- A remote signal that has left its sender and not arrived (R120, R180). -/
structure RemoteSig where
  src : SigSource
  target : SigTarget
  inc : BitVec 4
  /-- The number of the MSIG that sent it (`Flight.sigId`). -/
  sigId : Nat := 0
deriving DecidableEq, Repr, Inhabited

/-! ### Program images and plots -/

/-- A counter declaration entry (Table 6.8). -/
structure CtrDecl where
  ctr : Nat
  init : BitVec 16
  outside : Nat
deriving DecidableEq, Repr, Inhabited

/-- A frame budget item (Table 6.9). -/
structure BudgetItem where
  res : Nat
  unit : Nat
  sub : Nat
  unit2 : Nat
  sub2 : Nat
  mgrp : Nat
  value : Nat
deriving DecidableEq, Repr, Inhabited

/-- A port reservation entry (Table 13.2). -/
structure RsvEntry where
  rsvid : Nat
  f0 : Nat
  nf : Nat
  flits : Nat
  ingress : Bool
  half : Bool
  vc : Nat
  pin : Bool
  tag : BitVec 16
deriving DecidableEq, Repr, Inhabited

/-- A pool declaration (Table 7.5). -/
structure PoolDecl where
  hbmOff : Nat
  count : Nat
  size : Nat
  loc : Nat
  unit : Nat
  held : Nat
deriving DecidableEq, Repr, Inhabited

/-- A static data record (Table 6.11). -/
structure StaticRec where
  hbm : Bool
  addr : Nat
  data : List Byte
deriving DecidableEq, Repr, Inhabited

/-- The Dovecote section of one port (R200). -/
structure DescSec where
  port : Nat
  inits : List (BitVec 16)
  descs : List (BitVec 512)
deriving DecidableEq, Repr, Inhabited

/-- A program image as the loader holds it (R156, R411). -/
structure Image where
  bytes : List Byte := []
  period : Nat := 0
  npav : Nat := 0
  nport : Nat := 0
  nframe : Nat := 1
  pcyc : Nat := 1
  streams : List (Nat × Nat × List (BitVec 128)) := []
  stores : List (Nat × List (BitVec 32)) := []
  layouts : List (Nat × Nat × Nat) := []
  ctrs : List (Nat × List CtrDecl) := []
  budget : List (List BudgetItem) := []
  descs : List DescSec := []
  rsvs : List (Nat × List RsvEntry) := []
  pools : List PoolDecl := []
  hbmUse : List (Nat × Nat) := []
  bounds : List (Nat × Nat × List (Nat × Nat)) := []
  statics : List (Nat × List StaticRec) := []
deriving DecidableEq, Repr, Inhabited

/-- The commands of Table 14.3. -/
inductive PlotCmd where
  | start | suspend | resume | reset | release
deriving DecidableEq, Repr, Inhabited

/-- A plot (R330). -/
structure Plot where
  /-- STATE, 0x4000+n:01 [2:0], 3 bits: 0 empty to 4 resetting; R333, 14; reset 0. -/
  state : Nat := 0
  /-- HELD, 0x4000+n:01 [3]; R333, 14; reset 0. -/
  held : Bool := false
  /-- Pavilion mask, 0x4000+n:02, 256 bits; R331, 14; reset clear. -/
  pavMask : BitVec 256 := 0
  /-- The pavilions of the mask that the plot sees, 256 bits; R124, 04; reset clear. -/
  pavSeen : BitVec 256 := 0
  /-- Port mask, 0x4000+n:03, 64 bits; R332, 14; reset 0. -/
  portMask : BitVec 64 := 0
  /-- HBM region, 0x4000+n:04, 64 bits; R272, 11; reset 0. -/
  region : BitVec 64 := 0
  /-- Step counter, 0x4000+n:05, 64 bits; R264, 10; reset 0. -/
  step : BitVec 64 := 0
  /-- Step value latched at the last tick, 64 bits; R80, 03; reset 0. -/
  stepLatched : BitVec 64 := 0
  /-- Job seed, 0x4000+n:06, 128 bits; R341, 14; reset 0. -/
  seed : BitVec 128 := 0
  /-- Epoch, 0x4000+n:07, 16 bits; R377, 16; reset 0. -/
  epoch : BitVec 16 := 0
  /-- Energy budget, 0x4000+n:08, 32 bits; R397, 17; reset 0. -/
  energy : BitVec 32 := 0
  /-- Image bytes staged in 0x4000+n:09, at most 64 MiB; R158, 06; reset none. -/
  imageObj : List Byte := []
  /-- Load result, 0x4000+n:0B, 64 bits; R160, 06; reset 0. -/
  loadResult : BitVec 64 := 0
  /-- Load state, 0x4000+n:0C, 8 bits; R158, 06; reset 0. -/
  loadState : Nat := 0
  /-- Load state before the load under verification; R158, 06; reset 0. -/
  loadBack : Nat := 0
  /-- Image under verification; R158, 06; reset none. -/
  loading : List Byte := []
  /-- Tick count at which the reset in progress poisoned the plot (T of R182), 64 bits; R182, 07; reset 0. -/
  resetTick : BitVec 64 := 0
  /-- Image in the shadow banks; R158, 06; reset none. -/
  shadow : Option Image := none
  /-- The shadow was altered by bank writes since the load, 1 bit; R165, 06; reset 0. -/
  shadowDirty : Bool := false
  /-- Active image; R165, 06; reset none. -/
  image : Option Image := none
  /-- Ticks counted since the activation request; R166, 06; reset 0. -/
  actTicks : Nat := 0
  /-- Start frame, as a tick count; R165, R334, 06, 14; reset 0. -/
  startFrame : BitVec 64 := 0
  /-- Wait-cycle report, 0x4000+n:0D; R185, 07; reset empty. -/
  waitReport : List (BitVec 128) := []
  /-- Dropped signals, 0x4000+n:0E, 64 bits; R183, 07; reset 0. -/
  dropped : BitVec 64 := 0
  /-- Counter limits, 0x4000+n:0F, 64 bits; R176, 07; reset 0. -/
  ctrLimits : BitVec 64 := 0
  /-- Pending plot command; R334, 14; reset none. -/
  pendingCmd : Option PlotCmd := none
  /-- Hold causes raised and not in effect, 32 bits; R368, 16; reset 0. -/
  pendHold : BitVec 32 := 0
  /-- Hold causes in force, 0x9000:20+n, 32 bits; R368, 16; reset 0. -/
  causes : BitVec 32 := 0
  /-- Consecutive qualifying frames; R184, 07; reset 0. -/
  quiet : Nat := 0
  /-- A flit, transfer or signal of the plot moved, or one of its engines issued, in this frame, 1 bit; R184, 07; reset 0. -/
  moved : Bool := false
  /-- Interleave key, 128 bits, held in the Gatehouse; R276, 11; reset 0 (none drawn). -/
  ilvKey : BitVec 128 := 0
  /-- Interleave key serial, 0x3600:02, 32 bits; R283, 11; reset 0. -/
  ilvSerial : BitVec 32 := 0
  /-- Interleave key draw tick, 0x3600:03, 64 bits; R283, 11; reset 0. -/
  ilvTick : BitVec 64 := 0
  /-- Spray key, 128 bits, held in the Gatehouse; R316, 13; reset 0 (none drawn). -/
  sprayKey : BitVec 128 := 0
  /-- A spray key is held since the plot's last reset, 1 bit; R316, 13; reset 0. -/
  sprayHeld : Bool := false
  /-- Spray key serial, 0x3600:04, 32 bits; R329, 13; reset 0. -/
  spraySerial : BitVec 32 := 0
  /-- Spray key draw tick, 0x3600:05, 64 bits; R329, 13; reset 0. -/
  sprayTick : BitVec 64 := 0
  /-- Window W, 0x3200:02, 8 bits, as written; R295, 12; reset 64. -/
  window : BitVec 8 := 64
  /-- Window W in force since the last step 5; R306, 12; reset 64. -/
  windowEff : BitVec 8 := 64
  /-- Running frames, 0x8000:31, 64 bits; R390, 16; reset 0. -/
  runFrames : BitVec 64 := 0
  /-- Held frames, 0x8000:32, 64 bits; R390, 16; reset 0. -/
  heldFrames : BitVec 64 := 0
  /-- Step advances, 0x8000:33, 64 bits; R390, 16; reset 0. -/
  stepAdvances : BitVec 64 := 0
  /-- Last advance tick, 0x8000:34, 64 bits; R390, 16; reset 0. -/
  lastAdvance : BitVec 64 := 0
deriving DecidableEq, Repr, Inhabited

/-! ### Sundial -/

/-- The sundial (R37–R56). -/
structure Sundial where
  /-- Elapsed ticks, 0x1018, 64 bits; R53, 02; reset 0. -/
  ticks : BitVec 64 := 0
  /-- Boot count, 0x1019, 32 bits saturating; R54, 02; no value stated, DESIGN CHOICE 0. -/
  boot : BitVec 32 := 0
  /-- Period, 0x1200:01, 8 bits; R41, 02; reset 1. -/
  period : BitVec 8 := 1
  /-- Period in force since the last tick, 8 bits; R41, 02; reset 1. -/
  periodEff : BitVec 8 := 1
  /-- A period write that has taken hold awaits the next tick, 1 bit; R41, 02; reset 0. -/
  periodSet : Bool := false
  /-- Master, 0x1200:02, 32 bits; R45, 02; reset 0x00FF_FFFF. -/
  master : BitVec 32 := 0x00FFFFFF
  /-- Alignment error, 0x1200:03, signed 32 bits, ns; R298, 12; reset 0. -/
  err : BitVec 32 := 0
  /-- Frame number, 0x1200:04, 64 bits; R55, 02; reset 0. -/
  frame : BitVec 64 := 0
  /-- Frame number the next tick takes from the parent; R298, 12; reset none. -/
  nextFrame : Option (BitVec 64) := none
  /-- Parent port, 0x1200:05, 8 bits; R43, 02; reset 0xFF. -/
  parent : BitVec 8 := 0xFF
  /-- Holdover frames, 0x1200:06, 32 bits; R47, 02; reset 0. -/
  holdover : BitVec 32 := 0
  /-- Overruns, 0x1200:07, 64 bits; R51, 02; reset 0. -/
  overruns : BitVec 64 := 0
  /-- Refresh events, 0x1200:08, 64 bits; R50, 02; reset 0. -/
  refreshes : BitVec 64 := 0
  /-- Retried flits, 0x1200:09, 64 bits; R50, 02; reset 0. -/
  retried : BitVec 64 := 0
  /-- Alignment state, 0x1200:0B, 8 bits; R47, 02; reset 0. -/
  align : Nat := 0
  /-- Peak error of the present excursion above 20 ns, if one is open; R47, 02; reset none. -/
  excursion : Option Nat := none
  /-- Consecutive sundial sets missed on the parent port; R47, 02; reset 0. -/
  missed : Nat := 0
  /-- A sundial set arrived on the parent port in this frame, 1 bit; R47, 02; reset 0. -/
  heard : Bool := false
  /-- Hops to the master, 8 bits, 0xFF unaligned; R298, 12; reset 0xFF. -/
  hops : BitVec 8 := 0xFF
  /-- Slew of the frame just begun, −4 to 4 core cycles; R46, 02; reset 0. -/
  slew : Int := 0
  /-- The first tick since power-good has come, 1 bit; R53, 02; reset 0. -/
  ticking : Bool := false
  /-- Core cycles from power-good to the last tick, 64 bits; R38, R298, 02, 12; reset 0. -/
  tickCycle : BitVec 64 := 0
  /-- Core cycles by which the start-up phase step moves the next tick, signed; R38, R404, 02, 17; reset 0. -/
  phaseStep : Int := 0
deriving DecidableEq, Repr, Inhabited

/-- The arithmetic objects (R91). -/
structure Arith where
  /-- B2 rounding mode, 0x2000:01, 8 bits; R91, 03; reset 0. -/
  b2Mode : BitVec 8 := 0
  /-- B2 rounding mode in force; R91, 03; reset 0. -/
  b2ModeEff : BitVec 8 := 0
  /-- B2 window base, 0x2000:02, signed 32 bits; R91, 03; reset −560. -/
  b2Base : BitVec 32 := BitVec.ofInt 32 (-560)
  /-- B2 window base in force; R91, 03; reset −560. -/
  b2BaseEff : BitVec 32 := BitVec.ofInt 32 (-560)
  /-- Escapes, 0x2000:05, 64 bits; R91, 03; reset 0. -/
  escapes : BitVec 64 := 0
  /-- Contribution-limit events, 0x2000:06, 64 bits; R91, 03; reset 0. -/
  limits : BitVec 64 := 0
deriving DecidableEq, Repr, Inhabited

/-! ### Dovecotes -/

/-- The identity of a segment within a run (R202, R203). -/
structure SegKey where
  kind : Nat
  rank : Nat
  eoff : Nat
  dest : Nat
  slot : Nat
deriving DecidableEq, Repr, Inhabited

/-- A provisional segment sent or received and not confirmed (R214–R216). -/
structure ProvSeg where
  key : SegKey
  run : Nat
  pkt : Pkt
  link : Nat
  frame : BitVec 64
  outLinks : List Nat
  /-- Staging buffer that holds the segment until its CONFIRM, 0 where none is taken; R207, R216. -/
  buf : BitVec 32 := 0
  /-- Relayed before this module's own ingress link had confirmed all its flits; R214, R215. -/
  own : Bool := false
deriving DecidableEq, Repr, Inhabited

/-- When a segment reached its port, and whether outside its reserved frame (R212, R221). -/
structure Arrival where
  tick : BitVec 64
  cycle : BitVec 16
  off : Bool := false
deriving DecidableEq, Repr, Inhabited

/-- A segment staged in POOL until it may be processed (R208, R224). -/
structure EarlySeg where
  pkt : Pkt
  link : Nat
  buf : BitVec 32
  arr : Arrival
  /-- Links on which its copies went out provisionally and were confirmed: they are not sent there again; R216. -/
  relayed : List Nat := []
deriving DecidableEq, Repr, Inhabited

/-- A chunk staged in a POOL buffer, waiting for its feed (R204): chunk, rank, buffer handle, first slot data. -/
structure StagedChunk where
  chunk : Nat
  rank : Nat
  handle : BitVec 32
  carry : Bool
  data : List Byte
  scales : List Byte
  last : Bool
deriving DecidableEq, Repr, Inhabited

/-- A segment held at ingress for lack of a staging buffer (R207). -/
structure HeldSeg where
  link : Nat
  idx : Nat
  pkt : Pkt
  arr : Arrival
deriving DecidableEq, Repr, Inhabited

/-- An element under combination in an edge combiner (R198, R234): the exact slot, and in fixed-tree order the
contributions by rank and position. -/
structure CombElem where
  slot : Slot
  tree : List (Nat × Nat × BitVec 64)
  best : Option (BitVec 64)
  nanSeen : Bool
deriving DecidableEq, Repr, Inhabited

/-- The progress of a run on one Dovecote (R203–R210). -/
structure Run where
  /-- Tick count at triggering; Table 8.7, 08. -/
  startTick : BitVec 64 := 0
  /-- The plot's step value as latched at the tick that began the frame of the triggering, 64 bits; R80, 03. -/
  step : BitVec 64 := 0
  /-- Confirmed segments received; R203, 08. -/
  got : List SegKey := []
  /-- Elements or records received per rank; R209, 08. -/
  recv : Tbl Nat := []
  /-- Ranks whose stream has ended, with its length, per kind; R228, 09. -/
  ended : List (Nat × Nat × Nat) := []
  /-- (chunk, rank) pairs written or added at a local home by this Dovecote; R204, 08. -/
  delivered : List (Nat × Nat) := []
  /-- Chunks whose HCTR signal has been sent; R204, 08. -/
  signalled : List Nat := []
  /-- Chunks staged and not fed; R204, 08. -/
  staged : List StagedChunk := []
  /-- Result chunks released here, as lead; R205, 08. -/
  released : List Nat := []
  /-- Results sent on this die: (chunk or offset, rank) pairs; R209, 08. -/
  sentRes : List (Nat × Nat) := []
  /-- Bytes sent of all-to-all rows that are not whole yet, by row key; R209, R218, 08. -/
  rowSent : Tbl Nat := []
  /-- Edge-combiner elements; R121, R198, 04, 08. -/
  comb : Tbl CombElem := []
  /-- Occupancy maps: indices that received a record; R233, 09. -/
  occ : List Nat := []
  /-- Records of sparse and selection streams by (rank, position); R228, 09. -/
  recs : List (Nat × Nat × BitVec 32 × BitVec 64) := []
  /-- Ended chunk sub-streams: (chunk, rank); R232, 09. -/
  subEnded : List (Nat × Nat) := []
  /-- At the lead, the records of a chunk's sub-streams: (chunk, rank, position, index, value); R232, 09. -/
  merged : List (Nat × Nat × Nat × BitVec 32 × BitVec 64) := []
  /-- At the lead, carry records of a chunk, 48 bytes each, by the die and group of members that formed them: (chunk, group, record);
  R121, R232, 04, 09. -/
  carries : List (Nat × Nat × BitVec 384) := []
  /-- Staging buffers of a record stream: (segment, chunk, handle); R207, R234, 08, 09. -/
  bufs : List (SegKey × Nat × BitVec 32) := []
  /-- Route lists: (rank, position, expert); R217, 08. -/
  routes : List (Nat × Nat × Nat) := []
  /-- Assigned capacity slots: (rank, choice position, expert, slot); R217, 08. -/
  slots : List (Nat × Nat × Nat × Nat) := []
  /-- Drop-mask bits set: (rank, choice position); R217, 08. -/
  drops : List (Nat × Nat) := []
  /-- Ranks whose slots are assigned; R217, 08. -/
  assigned : List Nat := []
  /-- Token rows received: (rank, token, bytes); R217, 08. -/
  rows : List (Nat × Nat × List Byte) := []
  /-- Row list of a row gather, kept rows; R242, 09. -/
  rowList : List Nat := []
  /-- Rows sent, row gather; R243, 09. -/
  rowsSent : List Nat := []
  /-- Row list sent, 1 bit; R240, 09. -/
  listSent : Bool := false
  /-- Used rows reported: (rank, row); R244, 09. -/
  used : List (Nat × Nat) := []
  /-- DROPS and rows cut; Table 8.7, 08. -/
  nDrops : Nat := 0
  /-- BADIDX; Table 8.7, 08. -/
  nBad : Nat := 0
  /-- RETRACTS; Table 8.7, 08. -/
  nRetracts : Nat := 0
  /-- OFFSCHED; Table 8.7, 08. -/
  nOffsched : Nat := 0
  /-- First arrivals: (rank, tick, core cycle); R221, 08. -/
  arrivals : List (Nat × BitVec 64 × BitVec 16) := []
  /-- Summary of a combined result; R205, 08. -/
  summary : Summary := {}
  /-- A status other than OK met during the run, 0 none; R210, 08. -/
  status : BitVec 16 := 0
  /-- Left incomplete by an uncorrectable HBM word that the Dovecote met, 1 bit; Table 11.3, 11; reset 0. -/
  stuck : Bool := false
deriving DecidableEq, Repr, Inhabited

/-- A B2 collective's own tables (R222). -/
structure B2Info where
  group : Nat
  home : BitVec 24
  launchers : List (BitVec 24)
  bytes : Nat
  op : Nat
  rop : Nat
  fmt : Nat
  root : Nat
  mismatch : Bool
  /-- The run has completed on this die; the slot is left when it has on every die of the module; R222. -/
  done : Bool := false
deriving DecidableEq, Repr, Inhabited

/-- A descriptor held by a Dovecote (R199, R208). -/
structure Desc where
  /-- Owning plot; R197, 08. -/
  plot : Nat
  /-- Descriptor index in the plot on this die; R200, 08. -/
  rel : Nat
  /-- The 64 bytes of Table 8.2, 512 bits; R199, 08. -/
  img : BitVec 512
  /-- State armed (false) or triggered (true), 0x5800:02; R208, 08; reset armed. -/
  triggered : Bool := false
  /-- Run number, 0x5800:03, 16 bits; R208, 08; reset 0. -/
  run : BitVec 16 := 0
  /-- Progress of the current run; R209, 08; reset cleared. -/
  prog : Run := {}
  /-- Segments of the next run staged early, with their buffer; R208, 08; reset none. -/
  early : List EarlySeg := []
  /-- Provisional segments received and awaiting CONFIRM; R216, 08; reset none. -/
  provIn : List ProvSeg := []
  /-- Provisional segments sent and awaiting CONFIRM to be sent; R215, 08; reset none. -/
  provOut : List ProvSeg := []
  /-- Laggard, 0x5800:10, 64 bits; R221, 08; reset 0. -/
  laggard : BitVec 64 := 0
  /-- B2 collective; R222, 08; reset none. -/
  b2 : Option B2Info := none
deriving DecidableEq, Repr, Inhabited

/-- A trigger counter with its owner (R178, R200): plot and plot-relative number. -/
structure TrigCtr where
  plot : Nat
  rel : Nat
  ctr : Counter
deriving DecidableEq, Repr, Inhabited

/-- The Dovecote of a port die, with its edge combiner (R197, R121). -/
structure Dovecote where
  /-- Descriptors, 1,024; R201, 08; reset none. -/
  descs : Tbl Desc := []
  /-- Trigger counters, 1,024; R200, 08; reset none. -/
  trigs : List TrigCtr := []
  /-- Segments held for lack of a staging buffer; R207, 08; reset none. -/
  held : List HeldSeg := []
  /-- Trigger counters whose limit was reported this frame; R176, R178, 07; reset none. -/
  limited : List (Nat × Nat) := []
  /-- Port die failed or under self-test, 2 bits; R167, R400, 06, 17; reset 0. -/
  failed : Bool := false
  testing : Bool := false
  /-- Buffer memory, 24 MiB of bytes, unlisted 0; R337, 14; reset zero. -/
  mem : List Host.Cell := []
  /-- Words of the buffer memory that SECDED finds uncorrectable until a whole-word write; R35, R96, 01, 04; reset none. -/
  badWords : List Nat := []
deriving DecidableEq, Repr, Inhabited

/-- Row-gather statistics of a plot and layer (Table 9.7). -/
structure RowStats where
  plot : Nat
  layer : Nat
  runs : BitVec 64 := 0
  sent : BitVec 64 := 0
  cut : BitVec 64 := 0
  used : BitVec 64 := 0
  hits : BitVec 64 := 0
  misses : BitVec 64 := 0
  unused : BitVec 64 := 0
  recallVal : BitVec 32 := 0xFFFFFFFF
deriving DecidableEq, Repr, Inhabited

/-- The collective objects (R226, R247). -/
structure Coll where
  /-- Dovecotes of PD0–PD15; R197, 08; reset empty. -/
  dies : Tbl Dovecote := []
  /-- Provisional relay enable, 0x5800:06, 32 bits; R214, 08; reset 0. -/
  relay : BitVec 32 := 0
  /-- Provisional relay enable in force; R226, 08; reset 0. -/
  relayEff : BitVec 32 := 0
  /-- Retractions, 0x5800:07, 64 bits; R215, 08; reset 0. -/
  retractions : BitVec 64 := 0
  /-- Segments dropped, 0x5800:08, 64 bits; R203, 08; reset 0. -/
  dropped : BitVec 64 := 0
  /-- Staging stalls, 0x5800:09, 64 bits; R207, 08; reset 0. -/
  stalls : BitVec 64 := 0
  /-- Provisional PSMSG packets that await their CONFIRM; R216, R261, 08, 10; reset none. -/
  psWait : List Pkt := []
  /-- B2 enable, 0x5900:01, 32 bits; R3, 00; reset 0. -/
  b2Enable : BitVec 32 := 0
  /-- B2 groups, 0x5900:02; R222, 08; reset empty. -/
  b2Groups : List Byte := []
  /-- B2 reserve, 0x5900:03, 16 bits; R222, 08; reset 0. -/
  b2Reserve : BitVec 16 := 0
  /-- B2 reserve in force; R226, 08; reset 0. -/
  b2ReserveEff : BitVec 16 := 0
  /-- B2 launches, 0x5900:04, 64 bits; R226, 08; reset 0. -/
  b2Launches : BitVec 64 := 0
  /-- B2 refusals, 0x5900:05, 64 bits; R223, 08; reset 0. -/
  b2Refusals : BitVec 64 := 0
  /-- Row-gather statistics, 0x5800:21–28; R247, 09; reset none. -/
  rowStats : List RowStats := []
deriving DecidableEq, Repr, Inhabited

/-! ### Pools -/

/-- A buffer of a pool (R188). -/
structure Buf where
  /-- Reference count, 8 bits, free when 0; R188, 07; reset free. -/
  ref : Nat := 0
  /-- Generation, 8 bits; R188, 07; reset 0. -/
  gen : BitVec 8 := 0
deriving DecidableEq, Repr, Inhabited

/-- A pool (R186, R193). -/
structure Pool where
  plot : Nat
  rel : Nat
  loc : Nat
  unit : Nat
  size : Nat
  count : Nat
  /-- Location of buffer 0, behind 0x6900:04: SRAM address, buffer-memory offset, or region offset for HBM; R193, 07. -/
  base : Nat
  /-- Buffers, unlisted free with generation 0; R188, 07; reset free. -/
  bufs : Tbl Buf := []
  /-- Held high-water, 0x6900:06; R193, 07; reset 0. -/
  high : Nat := 0
  /-- Empty count, 0x6900:07, 32 bits; R193, 07; reset 0. -/
  nEmpty : BitVec 32 := 0
  /-- Double-free count, 0x6900:08, 32 bits; R193, 07; reset 0. -/
  nDouble : BitVec 32 := 0
  /-- Limit count, 0x6900:09, 32 bits; R193, 07; reset 0. -/
  nLimit : BitVec 32 := 0
  /-- Invalid-handle count, 0x6900:0A, 32 bits; R193, 07; reset 0. -/
  nInvalid : BitVec 32 := 0
  /-- Last error, 0x6900:0B, 64 bits; R193, 07; reset 0. -/
  lastError : BitVec 64 := 0
deriving DecidableEq, Repr, Inhabited

/-! ### Parameter service -/

/-- A shard (R248, Table 10.6). -/
structure Shard where
  /-- Shard entry, 0x6000:02, 512 bits; R248, 10; reset 0. -/
  entry : BitVec 512 := 0
  /-- Shard state, 0x6000:03, 8 bits; R261, 10; reset 0. -/
  state : Nat := 0
  /-- State to return to after serving; R267, 10; reset 1. -/
  backState : Nat := 1
  /-- Committed generation, 0x6000:04, 1 bit; R249, 10; reset 0. -/
  gen : Nat := 0
  /-- Committed step, 64 bits; R250, 10; reset 0. -/
  step : BitVec 64 := 0
  /-- Step value of the step in progress, 64 bits; R259, 10; reset 0. -/
  cur : BitVec 64 := 0
  /-- Blocks digested of the present digest; R259, 10; reset 0. -/
  blocks : Nat := 0
  /-- Tick and blocks served in it, for DPF; R259, 10; reset 0. -/
  quotaTick : BitVec 64 := 0
  quotaUsed : Nat := 0
  /-- Local digest list, 0x6000:06; R259, 10; reset empty. -/
  local_ : List (BitVec 64) := []
  /-- Twin digest list, 0x6000:07, by block; R261, 10; reset empty. -/
  twin : Tbl (BitVec 64) := []
  /-- Twin header held with that list: configuration and status; R261, 10; reset none. -/
  twinHdr : Option (BitVec 512 × BitVec 16) := none
  /-- Step value of the twin header and list, 64 bits; R262, 10; reset 0. -/
  hdrStep : BitVec 64 := 0
  /-- Twin header and list kept one deep, with their step value; R262, 10; reset none. -/
  nextHdr : Option (BitVec 512 × BitVec 16) := none
  nextList : Tbl (BitVec 64) := []
  nextStep : BitVec 64 := 0
  /-- Commit to be made at the next running tick: status and FLAGS; R264, 10; reset none. -/
  todo : Option (BitVec 16 × BitVec 8) := none
  /-- Commit record, 0x6000:05, 256 bits; R264, 10; reset 0. -/
  record : BitVec 256 := 0
  /-- Ticks spent awaiting the twin, and whether PS_TWIN_LATE was emitted; R263, 10; reset 0. -/
  waitTicks : Nat := 0
  lateSaid : Bool := false
  /-- Divergences, 0x6000:09, 64 bits; R269, 10; reset 0. -/
  divergences : BitVec 64 := 0
  /-- Degraded commits, 0x6000:0A, 64 bits; R269, 10; reset 0. -/
  degraded : BitVec 64 := 0
  /-- Commits, 0x6000:0B, 64 bits; R269, 10; reset 0. -/
  commits : BitVec 64 := 0
  /-- Stale messages, 0x6000:0C, 64 bits; R262, 10; reset 0. -/
  stale : BitVec 64 := 0
  /-- Restore progress, 0x6000:0D, 32 bits; R268, 10; reset 0. -/
  progress : BitVec 32 := 0
  /-- Command status, 0x6000:0E, 16 bits; R265, 10; reset 0. -/
  cmdStatus : BitVec 16 := 0
  /-- Commands accepted and awaiting step 5, in order; R265, 10; reset none. -/
  cmds : List Nat := []
  /-- Restore in progress: new generation (Adopt twin), s_t, blocks asked for a second time; R268, 10; reset none. -/
  restoreNew : Bool := false
  restoreStep : Option (BitVec 64) := none
  retriedBlocks : List Nat := []
  /-- Bytes received of each block of the restore, and blocks verified; R268, 10; reset none. -/
  got : Tbl Nat := []
  okBlocks : List Nat := []
deriving DecidableEq, Repr, Inhabited

/-- A norm partial: value at 2^−298, count and flags (R255, R257). -/
structure Partial where
  value : Int := 0
  count : Nat := 0
  nan : Bool := false
  posInf : Bool := false
  negInf : Bool := false
  allNegZero : Bool := true
deriving DecidableEq, Repr, Inhabited

/-- The norm of a plot (R254). -/
structure Norm where
  /-- Norm configuration, 0x6000:21, 512 bits; R254, 10; reset 0. -/
  config : BitVec 512 := 0
  /-- The norm is collecting, 1 bit; R269, 10; reset 0. -/
  collecting : Bool := false
  /-- Step of the present norm, 64 bits; R256, 10; reset 0. -/
  step : BitVec 64 := 0
  /-- Partials held on the root: (step value, endpoint id, plot, partial); R256, R262, 10; reset none. -/
  held : List (BitVec 64 × BitVec 24 × Nat × Partial) := []
  /-- Step value of the last norm that finished; R262, 10; reset none. -/
  doneStep : Option (BitVec 64) := none
  /-- Last norm, 0x6000:22, 32 bits; R269, 10; reset 0. -/
  last : BitVec 32 := 0
  /-- Norm messages dropped as stale, counted in 0x6000:0C, 64 bits; R262, 10; reset 0. -/
  stale : BitVec 64 := 0
deriving DecidableEq, Repr, Inhabited

/-! ### HBM -/

/-- A stack (R270, R283). -/
structure Stack where
  /-- Stack state, 0x6800:02: 0 untrained, 1 in service, 2 failed; R283, 11; reset 0. -/
  state : Nat := 0
  /-- Corrected errors, 0x6800:03, 64 bits; R280, 11; reset 0. -/
  corrected : BitVec 64 := 0
  /-- Uncorrected errors, 0x6800:04, 64 bits; R280, 11; reset 0. -/
  uncorrected : BitVec 64 := 0
  /-- Last error, 0x6800:05, 64 bits; R283, 11; reset 0. -/
  lastError : BitVec 64 := 0
  /-- Refresh rate doubled, 0x6800:06, 1 bit; R278, 11; reset 0. -/
  doubled : Bool := false
  /-- Pressure ratio, 0x6800:07, 16 bits; R281, 11; reset 0. -/
  ratio : BitVec 16 := 0
  /-- Pressure notices, 0x6800:08, 64 bits; R281, 11; reset 0. -/
  notices : BitVec 64 := 0
  /-- Consecutive frames above 2.0 and at or below 2.0; R281, 11; reset 0. -/
  above : Nat := 0
  below : Nat := 0
  /-- A record was emitted and 4,096 calm frames have not passed, 1 bit; R281, 11; reset 0. -/
  armed : Bool := true
  /-- Plot that sent most to the busiest pseudo-channel in the last such frame; R281, 11; reset 0. -/
  topPlot : Nat := 0
  /-- 64 MiB units under scrub; R337, 14; reset none. -/
  scrubbing : List Nat := []
  /-- Pseudo-channel and bank last refreshed; R278, 11; reset none. -/
  refreshing : Option (Nat × Nat) := none
deriving DecidableEq, Repr, Inhabited

/-- The HBM (chapter 11). -/
structure Hbm where
  /-- Bytes by module address, 38 bits, unlisted 0; R270, R337, 11, 14; reset zero. -/
  mem : List Host.Cell := []
  /-- Words found uncorrectable until a whole-word write; R279, 11; reset none. -/
  badWords : List Nat := []
  /-- Stacks HS0–HS7; R270, 11; reset untrained. -/
  stks : Tbl Stack := []
deriving DecidableEq, Repr, Inhabited

/-! ### Ports and links -/

/-- A port (Table 12.10). -/
structure Port where
  /-- Mode, 0x3000+n:01, 8 bits; R284, 12; reset 0. -/
  mode : BitVec 8 := 0
  /-- Expected partner, 0x3000+n:03, 32 bits; R302, 12; reset 0x00FF_FFFF. -/
  expected : BitVec 32 := 0x00FFFFFF
  /-- Encryption mask, 0x3000+n:0E, 32 bits; R299, 12; reset 0. -/
  encMask : BitVec 32 := 0
  /-- Encryption mask of half b, 0x3000+n:1E, 32 bits; R299, R306, 12; reset 0. -/
  encMaskB : BitVec 32 := 0
deriving DecidableEq, Repr, Inhabited

/-- A pair of the window police (R296). -/
structure Pair where
  plot : Nat
  dest : BitVec 24
  count : Nat
deriving DecidableEq, Repr, Inhabited

/-- A data flit in a retry buffer, with the plot and TAG of its packet (R293). -/
structure TxFlit where
  bytes : List Byte
  /-- Source of the packet: its ingress link, 128 for the package; R324. -/
  source : Nat := 128
  plot : Nat
  opc : BitVec 8
  tag : BitVec 16
deriving DecidableEq, Repr, Inhabited

/-- A packet handed to a link's sender, with the flits already sent (R323). -/
structure TxPkt where
  pkt : Pkt
  sent : Nat := 0
  /-- Ingress link the packet came from, 128 for the package (R324). -/
  source : Nat := 128
  /-- The SPRAY entry that the packet's route hashed over; R317. -/
  spray : Option Nat := none
deriving DecidableEq, Repr, Inhabited

/-- A node of the fair-queueing hierarchy (R324): virtual time and the finish tag of each child. -/
structure SfqNode where
  v : BitVec 48 := 0
  finish : Tbl (BitVec 48) := []
  /-- Start tags of the children whose head is eligible. -/
  start : Tbl (BitVec 48) := []
  /-- Last child of weight 0 chosen, for round robin. -/
  rr : Nat := 0
deriving DecidableEq, Repr, Inhabited

/-- A scheduler service of a link (R325, R326). -/
structure Service where
  sub : Nat
  cls : Nat
  /-- Floor credit, 0–17; R325, 13; reset 0. -/
  credit : Nat := 0
  /-- Ticks backlogged without a flit, and whether SCHED_STARVED was raised; R326, 13; reset 0. -/
  dry : Nat := 0
  said : Bool := false
deriving DecidableEq, Repr, Inhabited

/-- A key exchange in progress on a link (R342). -/
inductive KeyxState where
  | idle | awaitHello | awaitResponse | awaitFinish | agreed | failed
deriving DecidableEq, Repr, Inhabited

/-- The key generations of a plot on a link (R301). -/
structure LinkKey where
  plot : Nat
  txGen : BitVec 8 := 0
  txCtr : Nat := 0
  /-- The next generation is installed; it has been asked for. -/
  nextReady : Bool := false
  asked : Bool := false
  rxGen : BitVec 8 := 0
  stopped : Bool := false
deriving DecidableEq, Repr, Inhabited

/-- A link (Table 12.8, Table 12.10). -/
structure Link where
  /-- Link state, 0x3000+n:04/14, 0–7; R302, 12; reset 0 DOWN. -/
  state : Nat := 0
  /-- Partner, 0x3000+n:05, 32 bits; R306, 12; reset 0. -/
  partner : BitVec 32 := 0
  /-- Round trip, 0x3000+n:06, 32 bits, ns; R298, 12; reset 0. -/
  rtt : BitVec 32 := 0
  /-- Frame capacity, 0x3000+n:07, 32 bits; R294, 12; reset 0. -/
  capacity : BitVec 32 := 0
  /-- Spared lanes, 0x3000+n:08, 16 bits; R287, 12; reset 0. -/
  spared : BitVec 16 := 0
  /-- Retried, 0x3000+n:09, 64 bits; R306, 12; reset 0. -/
  retried : BitVec 64 := 0
  /-- FEC corrected, 0x3000+n:0A, 64 bits; R306, 12; reset 0. -/
  fecOk : BitVec 64 := 0
  /-- FEC uncorrectable, 0x3000+n:0B, 64 bits; R306, 12; reset 0. -/
  fecBad : BitVec 64 := 0
  /-- Dropped packets, 0x3000+n:0C, 64 bits; R290, 12; reset 0. -/
  dropped : BitVec 64 := 0
  /-- Last down cause, 0x3000+n:0D, 16 bits; R303, 12; reset 0. -/
  downCause : BitVec 16 := 0
  /-- Authentication failures, 0x3000+n:0F, 64 bits; R300, 12; reset 0. -/
  authFails : BitVec 64 := 0
  /-- Credit allocations in force on this link, as receiver, VC0–VC7; R291, 12; reset none. -/
  alloc : List Nat := []
  /-- INIT_v the partner declared; R292, 12; reset none. -/
  init : List Nat := []
  /-- SENT_v, 16 bits each; R292, 12; reset 0. -/
  sent : Tbl (BitVec 16) := []
  /-- RET_v reported by the partner, 16 bits each; R292, 12; reset 0. -/
  retIn : Tbl (BitVec 16) := []
  /-- RET_v of this receiver, 16 bits each; R292, 12; reset 0. -/
  ret : Tbl (BitVec 16) := []
  /-- RET_v last reported to the partner; R292, 12; reset 0. -/
  retSaid : Tbl (BitVec 16) := []
  /-- Flits received on v, 16 bits each; R292, 12; reset 0. -/
  rcvd : Tbl (BitVec 16) := []
  /-- Next sequence number to send, 14 bits; R293, 12; reset 0. -/
  seqTx : BitVec 14 := 0
  /-- Expected sequence number, 14 bits; R293, 12; reset 0. -/
  seqRx : BitVec 14 := 0
  /-- A data flit has been confirmed since ACTIVE, 1 bit; R293, 12; reset 0. -/
  rxAny : Bool := false
  /-- Expected value of the last NAK sent and the core cycle it was sent at; R293, 12; reset none. -/
  nakSaid : Option (BitVec 14 × BitVec 64) := none
  /-- Expected value when ACKSEQ was last reported to the partner; R293, 12; reset none. -/
  ackSaid : Option (BitVec 14) := none
  /-- Retry buffer, sent and unacknowledged flits, oldest first, 4,096 or 2,048; R293, 12; reset empty. -/
  retry : List TxFlit := []
  /-- Flits of the retry buffer that are to be sent again; R293, 12; reset 0. -/
  replay : Nat := 0
  /-- Consecutive replays without progress; R293, 12; reset 0. -/
  replays : Nat := 0
  /-- Confirmed flits of packets not complete, per VC, in order; R289, 12; reset empty. -/
  rx : Tbl (List (List Byte)) := []
  /-- Packets waiting for the sender, in hand-off order; R323, 13; reset empty. -/
  txq : List TxPkt := []
  /-- Sprayed flits sent in this frame, by entry and plot: (entry, plot, flits); R317, 13; reset none. -/
  sprayed : List (Nat × Nat × Nat) := []
  /-- Ordered sets due; R297, R323, 12, 13; reset none. -/
  osq : List (List Byte) := []
  /-- VC whose RET the next payload flit reports; R292, 12; reset 0. -/
  cvc : Nat := 0
  /-- Encryption mask in force; R299, 12; reset 0. -/
  encMask : BitVec 32 := 0
  /-- Key exchange; R342, 14; reset idle. -/
  keyx : KeyxState := .idle
  /-- Link keys per plot; R301, 12; reset none. -/
  keys : List LinkKey := []
  /-- Window pairs, at most 1,024 or 512; R284, R296, 12; reset none. -/
  pairs : List Pair := []
  /-- Pairs, as plot and destination, that LINK_WINDOW has named in this frame; R296, 12; reset none. -/
  windowSaid : List (Nat × BitVec 24) := []
  /-- Packets waiting at ingress for a pair entry; R296, 12; reset none. -/
  pairWait : List Pkt := []
  /-- P2P packets accepted here and not acknowledged: (plot, source, count); R295, 12; reset none. -/
  unacked : List (Nat × BitVec 24 × Nat) := []
  /-- Consecutive heartbeats missed, and one heard this frame; R378, 16; reset 0. -/
  hbMissed : Nat := 0
  hbHeard : Bool := false
  /-- TXS and arrival cycle of the latest SUNDIAL received; R298, 12; reset none. -/
  lastSundial : Option (BitVec 64 × BitVec 64) := none
  /-- Bring-up attempts left of the three after a loss; R303, 12; reset none (no loss). -/
  attempts : Option Nat := none
  /-- Lane under retraining; R287, 12; reset none. -/
  retrain : Option Nat := none
  /-- The partner has stopped the link for lane retraining, 1 bit; R287, 12; reset 0. -/
  stopped : Bool := false
  /-- Root of the fair-queueing hierarchy; R324, 13; reset v 0. -/
  sfq : SfqNode := {}
  /-- Class nodes by subscriber, source nodes by 3 × subscriber + class; R324, 13; reset v 0. -/
  sfqCls : Tbl SfqNode := []
  sfqSrc : Tbl SfqNode := []
  /-- Services with floor credit; R325, 13; reset none. -/
  services : List Service := []
  /-- Flits served per subscriber, 0x3500:09, 64 bits; R329, 13; reset 0. -/
  served : Tbl (BitVec 64) := []
  /-- Reserved flits sent this frame: (plot, RSVID, flits); R320, 13; reset none. -/
  rsvUsed : List (Nat × Nat × Nat) := []
  /-- Ticks without RET progress while waiting, per VC, and ROUTE_STALL raised; R312, 13; reset 0. -/
  stall : Tbl Nat := []
  stallSaid : List Nat := []
  /-- Records raised at most once per link per frame: code; R309, R314, R335, R384, 13, 14, 16; reset none. -/
  saidCodes : List (BitVec 16) := []
deriving DecidableEq, Repr, Inhabited

/-- The port layer (R284–R306). -/
structure Ports where
  /-- Ports P00–P63; R284, 12; reset whole mode. -/
  ports : Tbl Port := []
  /-- Links by link index L = 2n + h; R302, 12; reset DOWN. -/
  links : Tbl Link := []
  /-- VC credits, 0x3100:01–08, 16 bits each; R291, 12; reset Table 12.4. -/
  credits : List (BitVec 16) := [64, 256, 4096, 4096, 1536, 1536, 128, 576]
  /-- Spare SerDes of each port die in use, unlisted 0; R287, 12; reset 0 (4 free). -/
  sparesUsed : Tbl Nat := []
  /-- Window drops, 0x3200:03, 64 bits; R296, 12; reset 0. -/
  windowDrops : BitVec 64 := 0
  /-- Pair-table stalls, 0x3200:04, 64 bits; R296, 12; reset 0. -/
  pairStalls : BitVec 64 := 0
deriving DecidableEq, Repr, Inhabited

/-- A route table entry (Table 13.1) with the pressure count of R317. -/
structure RouteEntry where
  lo : BitVec 24
  hi : BitVec 24
  spray : Bool
  links : BitVec 128
deriving DecidableEq, Repr, Inhabited

/-- Spray pressure of a route entry (R317). -/
structure SprayState where
  above : Nat := 0
  below : Nat := 0
  armed : Bool := true
  ratio : Nat := 0
  plot : Nat := 0
deriving DecidableEq, Repr, Inhabited

/-- Routing (R313–R318) and scheduler settings (R329). -/
structure Route where
  /-- Route table as written, 0x3400:01, at most 4,096 entries; R313, 13; reset empty. -/
  table : List RouteEntry := []
  /-- A table has been written: an unwritten one reads as the empty byte string, 1 bit; R313, 13; reset 0. -/
  written : Bool := false
  /-- Route table in force; R318, 13; reset empty. -/
  tableEff : List RouteEntry := []
  /-- Link direction map as written, 0x3400:02, 256 bits; R309, 13; reset clear. -/
  dir : BitVec 256 := 0
  /-- Link direction map in force; R318, 13; reset clear. -/
  dirEff : BitVec 256 := 0
  /-- A table or map write awaits step 5, 1 bit; R318, 13; reset 0. -/
  dirty : Bool := false
  /-- Own endpoint id, 0x3400:03, 32 bits; R314, 13; reset 0x00FF_FFFF. -/
  self : BitVec 32 := 0x00FFFFFF
  /-- Route generation, 0x3400:04, 32 bits; R318, 13; reset 0. -/
  gen : BitVec 32 := 0
  /-- Unroutable drops, 0x3400:05, 64 bits; R314, 13; reset 0. -/
  noRoute : BitVec 64 := 0
  /-- Turn drops, 0x3400:06, 64 bits; R309, 13; reset 0. -/
  turns : BitVec 64 := 0
  /-- Stall threshold, 0x3400:07, 32 bits; R312, 13; reset 4,096. -/
  stallLimit : BitVec 32 := 4096
  /-- Spray pressure per entry; R317, 13; reset none. -/
  sprays : Tbl SprayState := []
  /-- Subscriber weights, 0x3500:02, 16 bits each, unlisted 0x0100; R329, 13; reset 0x0100. -/
  weights : Tbl (BitVec 16) := []
  /-- Subscriber weights in force; R324, 13; reset 0x0100. -/
  weightsEff : Tbl (BitVec 16) := []
  /-- Class weights, 0x3500:03, 64 bits each, unlisted 0x0000_0100_0100_0100; R329, 13; reset as unlisted. -/
  clsWeights : Tbl (BitVec 64) := []
  /-- Class weights in force; R324, 13; reset as unlisted. -/
  clsWeightsEff : Tbl (BitVec 64) := []
  /-- Starvation threshold, 0x3500:04, 32 bits; R326, 13; reset 4,096. -/
  starveLimit : BitVec 32 := 4096
  /-- Starvation notices, 0x3500:08, 64 bits; R329, 13; reset 0. -/
  notices : BitVec 64 := 0
deriving DecidableEq, Repr, Inhabited

/-! ### Gatehouse -/

/-- The Gatehouse and its security objects (R339–R348). -/
structure Gate where
  /-- Gatehouse state, 0x7000:01 [31:24]: 0 operational, 1 error, 2 zeroised; R348, 14; reset 0. -/
  state : Nat := 0
  /-- Status that placed it in its error state, 16 bits; R348, 14; reset 0. -/
  status : BitVec 16 := 0
  /-- Fused anti-rollback count, 0x7000:02, 32 bits; R344, 14; no value stated, DESIGN CHOICE 0. -/
  rollback : BitVec 32 := 0
  /-- Trust anchors, 0x7000:10; R348, 14; reset the Vilolo root. -/
  trust : List Byte := Config.viloloRoot
  /-- Draws made from the DRBG, over every power-good; R340, 14; reset 0 (the model's own, for the free draws). -/
  draws : Nat := 0
  /-- A health test has failed, 1 bit; R340, 14; reset 0. -/
  entropyFailed : Bool := false
  /-- Foreign-plot drops, 0x7000:21, 64 bits; R335, 14; reset 0. -/
  foreign : BitVec 64 := 0
  /-- Violations, 0x7000:22, 64 bits; R348, 14; reset 0. -/
  violations : BitVec 64 := 0
  /-- Attestation nonce, 0x7000:30, 32 bytes; R347, 14; reset none. -/
  nonce : Option (List Byte) := none
  /-- A report has been requested and is not ready, 1 bit; R347, 14; reset 0. -/
  reporting : Bool := false
  /-- Attestation report, 0x7000:31, 4,979 bytes; R347, 14; reset empty. -/
  report : List Byte := []
  /-- Attestation target, 0x7000:32, 8 bits; R348, 14; reset 0. -/
  target : BitVec 8 := 0
  /-- Key-exchange messages sent, for the free message bodies; R342, 14; reset 0. -/
  keyxSent : Nat := 0
deriving DecidableEq, Repr, Inhabited

/-! ### Kiosk -/

/-- A subscription (R360). -/
structure Sub where
  index : BitVec 16
  sub : BitVec 8
  /-- 0 on change, or the period in ticks. -/
  period : BitVec 32
  since : BitVec 64
  lastValue : List Byte
  /-- Notifications missed. -/
  missed : BitVec 32 := 0
deriving DecidableEq, Repr, Inhabited

/-- A message queued towards a client (Table 15.4). -/
structure KMsg where
  notify : Bool
  seq : BitVec 32
  index : BitVec 16 := 0
  sub : BitVec 8 := 0
  status : BitVec 16 := 0
  param : BitVec 32 := 0
  last : Bool := false
  body : List Byte := []
deriving DecidableEq, Repr, Inhabited

/-- A staged DOMAIN write (R357). -/
structure Staging where
  index : BitVec 16
  sub : BitVec 8
  data : List Byte
deriving DecidableEq, Repr, Inhabited

/-- A Kiosk session slot (R354). -/
structure Session where
  /-- Open, 1 bit; R354, 15; reset 0 (slot 7: 1). -/
  isOpen : Bool := false
  /-- Session id, 16 bits; R366, 15; a free value of each OPEN (log entry 96); no value stated, DESIGN CHOICE 0. -/
  sid : BitVec 16 := 0
  /-- Transport; R366, 15; reset I3C for slot 7. -/
  transport : Transport := .tls0
  /-- Role; R338, 14; reset OB for slot 7. -/
  role : Role := .ob
  /-- Plot of a PO; R338, 14; reset 0. -/
  plot : Nat := 0
  /-- Low 32 bits of 0x1018 at opening; R366, 15; reset 0. -/
  opened : BitVec 32 := 0
  /-- AUTH has bound the role of an in-band session, 1 bit; R355, 15; reset 0. -/
  authed : Bool := false
  /-- Link of an in-band session; R356, 15; reset 0. -/
  link : Nat := 0
  /-- Nonce of an in-band session, 256 bits; R355, 15; reset 0. -/
  nonce : BitVec 256 := 0
  /-- MCTR of the last message received, and of the last sent; R355, 15; reset 0. -/
  mctrIn : BitVec 64 := 0
  mctrOut : BitVec 64 := 0
  /-- Engine select, 0x5000:01, 32 bits; R173, 06; reset 0. -/
  engSel : BitVec 32 := 0
  /-- Counter select, 0x5000:10, 8 bits; R193, 07; reset 0. -/
  ctrSel : BitVec 8 := 0
  /-- Pool select, 0x6900:02, 8 bits; R193, 07; reset 0. -/
  poolSel : BitVec 8 := 0
  /-- Descriptor select, 0x5800:01, 16 bits; R226, 08; reset 0. -/
  descSel : BitVec 16 := 0
  /-- Trigger counter select, 0x5800:12, 16 bits; R226, 08; reset 0. -/
  trigSel : BitVec 16 := 0
  /-- Layer select, 0x5800:20, 32 bits; R247, 09; reset 0. -/
  layerSel : BitVec 32 := 0
  /-- Shard select, 0x6000:01, 16 bits; R269, 10; reset 0. -/
  shardSel : BitVec 16 := 0
  /-- Norm plot select, 0x6000:20, 8 bits; R269, 10; reset 0. -/
  normSel : BitVec 8 := 0
  /-- Key plot select, 0x3600:01, 8 bits; R283, 11; reset 0. -/
  keySel : BitVec 8 := 0
  /-- Stack select, 0x6800:01, 8 bits; R283, 11; reset 0. -/
  stackSel : BitVec 8 := 0
  /-- Window plot select, 0x3200:01, 8 bits; R306, 12; reset 0. -/
  winSel : BitVec 8 := 0
  /-- Subscriber select, 0x3500:01, 8 bits; R329, 13; reset 0. -/
  subSel : BitVec 8 := 0
  /-- Link select, 0x3500:05, 8 bits; R329, 13; reset 0. -/
  linkSel : BitVec 8 := 0
  /-- Session select, 0x1100:02, 8 bits; R366, 15; reset 0. -/
  sessSel : BitVec 8 := 0
  /-- Progress plot select, 0x8000:30, 8 bits; R392, 16; reset 0. -/
  progSel : BitVec 8 := 0
  /-- Domain plot select, 0x9100:01, 8 bits; R392, 16; reset 0. -/
  domSel : BitVec 8 := 0
  /-- Sensor select, 0xA000:10, 8 bits; R409, 17; reset 0. -/
  sensSel : BitVec 8 := 0
  /-- Subscriptions, at most 32; R360, 15; reset none. -/
  subs : List Sub := []
  /-- Staged DOMAIN write; R357, 15; reset none. -/
  staging : Option Staging := none
  /-- Messages queued towards the client, at most 64; R360, 15; reset none. -/
  outq : List KMsg := []
deriving DecidableEq, Repr, Inhabited

/-- The Kiosk (R353–R366). -/
structure Kiosk where
  /-- Session slots 0–7; R354, 15; reset closed, slot 7 open over I3C. -/
  sessions : Tbl Session := [(7, { isOpen := true, transport := .i3c, role := .ob })]
  /-- The model's own count of the session ids given, the argument of the free SID (log entry 96); reset 0. -/
  sids : Nat := 0
  /-- Idle timeout, 0x1100:06, 32 bits, ms; R366, 15; reset 60,000. -/
  idle : BitVec 32 := 60000
  /-- Refusals, 0x1100:07, 64 bits; R366, 15; reset 0. -/
  refusals : BitVec 64 := 0
  /-- SO anchors, 0x1100:10; R366, 15; reset factory. -/
  anchorsSo : List Byte := Config.factorySoAnchors
  /-- FM anchors, 0x1100:11; R366, 15; reset empty. -/
  anchorsFm : List Byte := []
  /-- PO anchors, 0x1100:12; R366, 15; reset empty. -/
  anchorsPo : List Byte := []
  /-- OB anchors, 0x1100:13; R366, 15; reset empty. -/
  anchorsOb : List Byte := []
  /-- Management addresses, 0x1100:30, at most 256 bytes; R366, 15; reset empty. -/
  addrs : List Byte := []
  /-- Management addresses in force per management port; R366, 15; reset empty (DHCP). -/
  addrsEff : Tbl (List Byte) := []
  /-- Change counts of DOMAIN objects, key index × 256 + subindex; R353, 15; reset 0. -/
  changes : Tbl (BitVec 32) := []
deriving DecidableEq, Repr, Inhabited

/-! ### Journal -/

/-- A value of the persistent set (R361). -/
structure JEntry where
  index : BitVec 16
  sub : BitVec 8
  value : List Byte
deriving DecidableEq, Repr, Inhabited

/-- A journal slot (R361). -/
structure JSlot where
  /-- MAGIC, commit word and CRC are right, 1 bit; R361, 15; reset 0. -/
  valid : Bool := false
  /-- SEQ, 64 bits; R361, 15; reset 0. -/
  seq : BitVec 64 := 0
  /-- ZMARK, 1 bit; R361, 15; reset 0. -/
  zmark : Bool := false
  /-- Boot count in the set, 32 bits; R362, 15; reset 0. -/
  boot : BitVec 32 := 0
  /-- Payload; R361, 15; reset empty. -/
  payload : List JEntry := []
deriving DecidableEq, Repr, Inhabited

/-- A snapshot waiting to run (R362): the writer to answer, if any, and what it changes. -/
structure JPend where
  slot : Option Nat
  seq : BitVec 32
  entry : Option JEntry
  /-- The selected instance of the object: the plot of 0x3200:02. -/
  sel : Nat := 0
  zmark : Option Bool := none
deriving DecidableEq, Repr, Inhabited

/-- The persistent journal and the boot tally (R361–R364). -/
structure Journal where
  /-- Slot A, 256 KiB of flash; R361, 15; no value stated, DESIGN CHOICE invalid. -/
  a : JSlot := {}
  /-- Slot B, 256 KiB of flash; R361, 15; no value stated, DESIGN CHOICE invalid. -/
  b : JSlot := {}
  /-- Boot tally, last count, 128 KiB of flash; R364, 15; no value stated, DESIGN CHOICE none. -/
  tally : Option (BitVec 32) := none
  /-- Records in the tally, at most 16,384; R364, 15; DESIGN CHOICE 0. -/
  tallyLen : Nat := 0
  /-- Snapshots to run, in acceptance order; R362, 15; reset none. -/
  pend : List JPend := []
  /-- A failed boot-count snapshot is to be tried again, 1 bit; R364, 15; reset 0. -/
  bootRetry : Bool := false
  /-- Snapshots, 0x1100:22, 64 bits; R366, 15; reset 0. -/
  snapshots : BitVec 64 := 0
  /-- Last recovery, 0x1100:23, 8 bits; R363, 15; no value stated, DESIGN CHOICE 0. -/
  recovery : BitVec 8 := 0
  /-- Zeroisation marker in force, 1 bit; R346, 14; reset 0. -/
  zmark : Bool := false
  /-- Losses of power so far: the model's own counter, to which Config.snapshotCut is applied; DESIGN CHOICE 0, log entry 118. -/
  cuts : Nat := 0
deriving DecidableEq, Repr, Inhabited

/-! ### Telemetry -/

/-- A source of records (Table 16.4): SKIND and SIDX. -/
structure Src where
  kind : Nat
  idx : Nat
deriving DecidableEq, Repr, Inhabited

/-- A Belvedere record (Table 16.3), with the order of its emission. -/
structure Rec where
  tick : BitVec 64
  boot : BitVec 32
  code : BitVec 16
  epoch : BitVec 16
  cls : Nat
  plot : Option Nat
  src : Src
  sseq : BitVec 16
  count : Nat
  arg : BitVec 64
deriving DecidableEq, Repr, Inhabited

/-- A record in a ring and whether it has been read (R375). -/
structure RingRec where
  rec_ : Rec
  read : Bool := false
deriving DecidableEq, Repr, Inhabited

/-- An incident (R374): A records so far, tick of the last, and its tail window. -/
structure Incident where
  plot : Option Nat
  n : Nat
  last : BitVec 64
  tail : List Rec
deriving DecidableEq, Repr, Inhabited

/-- A ledger entry (R375). -/
structure Ledger where
  src : Src
  a : BitVec 64 := 0
  b : BitVec 64 := 0
  c : BitVec 64 := 0
  d : BitVec 64 := 0
deriving DecidableEq, Repr, Inhabited

/-- The staging and coalescing of one source (R372, R373). -/
structure SrcStage where
  src : Src
  /-- Per-source sequence number, 16 bits; R371, 16; reset 0. -/
  sseq : BitVec 16 := 0
  /-- Staged records, at most 4; R372, 16; reset none. -/
  staged : List Rec := []
  /-- Coalescing table, at most 16 entries by code; R373, 16; reset none. -/
  table : List Rec := []
deriving DecidableEq, Repr, Inhabited

/-- The Belvedere (R371–R376, R392). -/
structure Tele where
  /-- Staging of every source; R372, 16; reset empty. -/
  stages : List SrcStage := []
  /-- Ring A, 16,384 records, oldest first; R372, 16; reset empty. -/
  ringA : List RingRec := []
  /-- Ring B, 65,536 records; R372, 16; reset empty. -/
  ringB : List RingRec := []
  /-- Ring C, 65,536 records; R372, 16; reset empty. -/
  ringC : List RingRec := []
  /-- Ring D, 262,144 records; R372, 16; reset empty. -/
  ringD : List RingRec := []
  /-- Records not yet taken by the export path, oldest first; R372, 16; reset none. -/
  toSend : List Rec := []
  /-- Collector, 0x8000:10, 32 bits; R392, 16; reset 0x00FF_FFFF. -/
  collector : BitVec 32 := 0x00FFFFFF
  /-- Export classes, 0x8000:11, 8 bits; R392, 16; reset 0x07. -/
  classes : BitVec 8 := 7
  /-- Records put into each ring, by class, 32 bits: the change counts of 0x8000:01–04; R353, R372, 15, 16; reset 0. -/
  ringPuts : Tbl (BitVec 32) := []
  /-- Records emitted, 0x8000:12, 64 bits; R392, 16; reset 0. -/
  emitted : BitVec 64 := 0
  /-- Export skips, 0x8000:14, 64 bits; R372, 16; reset 0. -/
  skips : BitVec 64 := 0
  /-- Loss ledger, 0x8000:20; R375, 16; reset empty. -/
  ledger : List Ledger := []
  /-- Losses A–D, 0x8000:21–24, 64 bits each; R375, 16; reset 0. -/
  lossA : BitVec 64 := 0
  lossB : BitVec 64 := 0
  lossC : BitVec 64 := 0
  lossD : BitVec 64 := 0
  /-- Incidents open; R374, 16; reset none. -/
  incidents : List Incident := []
  /-- Kept A records, 0x9000:01, at most 64, oldest first; R376, 16; reset none. -/
  kept : List Rec := []
  /-- Contained events, 0x9000:03, 64 bits; R367, 16; reset 0. -/
  contained : BitVec 64 := 0
  /-- Uncontained events, 0x9000:04, 64 bits; R392, 16; reset 0. -/
  uncontained : BitVec 64 := 0
  /-- Every plot holds with cause MODULE (heartbeat state 2), 1 bit; R367, 16; reset 0. -/
  moduleHeld : Bool := false
deriving DecidableEq, Repr, Inhabited

/-! ### Lodge -/

/-- A member of a membership table (Table 16.6). -/
structure Member where
  epid : BitVec 24
  endpoint : Bool
  conf : Nat
  twin : Nat
  ps : Bool
deriving DecidableEq, Repr, Inhabited

/-- A COMMIT under reception or kept (R383, R384). -/
structure CommitMsg where
  epoch : BitVec 16
  origin : BitVec 24
  oidx : Nat
  dead : List Nat
  parts : List Nat
  last : Option Nat
deriving DecidableEq, Repr, Inhabited

/-- A round this module proposes (R380, R381). -/
structure Round where
  epoch : BitVec 16
  suspects : List Nat
  acks : List Nat
  started : BitVec 64
deriving DecidableEq, Repr, Inhabited

/-- The Lodge of one plot (R377). -/
structure Domain where
  /-- Membership table bytes, 0x9100:02; R377, 16; reset empty. -/
  bytes : List Byte := []
  /-- DOMAIN, 32 bits; R377, 16; reset 0. -/
  id : BitVec 32 := 0
  /-- SELF, 18 bits; R377, 16; reset 0. -/
  self : Nat := 0
  /-- Members; R377, 16; reset none. -/
  members : List Member := []
  /-- Lodge state, 0x9100:03, 8 bits; R392, 16; reset 0. -/
  state : Nat := 0
  /-- Dead map, 0x9100:04: dead member indices; R383, 16; reset empty. -/
  dead : List Nat := []
  /-- Accusations at the current epoch: (accused, accuser); R380, 16; reset none. -/
  accusals : List (Nat × Nat) := []
  /-- Ticks an accused member has been held with no PROPOSE or COMMIT seen; R380, 16; reset 0. -/
  accusedTicks : Nat := 0
  /-- Lowest OIDX of a PROPOSE seen and forwarded for e + 1; R379, R381, 16; reset none. -/
  proposed : Option Nat := none
  /-- Own round; R380, 16; reset none. -/
  round : Option Round := none
  /-- Flooded packets already seen: (type, epoch, oidx, subj, part); R379, 16; reset none. -/
  seen : List (Nat × Nat × Nat × Nat × Nat) := []
  /-- COMMIT under reception; R383, 16; reset none. -/
  coming : Option CommitMsg := none
  /-- COMMITs kept for the last 16 epochs; R384, 16; reset none. -/
  kept : List CommitMsg := []
  /-- Probe in progress: member and tick; R386, 16; reset none. -/
  probe : Option (Nat × BitVec 64) := none
  /-- Claim result, 0x9100:0A, 8 bits; R392, 16; reset 0. -/
  claim : BitVec 8 := 0
  /-- Epoch drops, 0x9100:0B, 64 bits; R384, 16; reset 0. -/
  drops : BitVec 64 := 0
  /-- Decisions, 0x9100:0C, 64 bits; R392, 16; reset 0. -/
  decisions : BitVec 64 := 0
  /-- Last decision tick, 0x9100:0D, 64 bits; R392, 16; reset 0. -/
  lastDecision : BitVec 64 := 0
deriving DecidableEq, Repr, Inhabited

/-- The Lodge (R377–R387). -/
structure Lodge where
  /-- Domains by plot; R377, 16; reset none. -/
  domains : Tbl Domain := []
  /-- Collection window, 0x9100:06, 32 bits, µs; R392, 16; reset 1,000. -/
  window : BitVec 32 := 1000
  /-- Takeover delay, 0x9100:07, 16 bits, ticks; R392, 16; reset 16. -/
  takeover : BitVec 16 := 16
  /-- Neighbours under suspicion, endpoint ids; R378, 16; reset none. -/
  suspects : List (BitVec 24) := []
deriving DecidableEq, Repr, Inhabited

/-! ### Power, start-up and firmware -/

/-- Power, cooling, start-up, resets and firmware update (chapter 17). -/
structure Power where
  /-- PG pin, 1 high; R393, 17; reset 0. -/
  pg : Bool := false
  /-- THERMTRIP_N pin, 1 high (released); R399, 17; reset 1. -/
  thermtripN : Bool := true
  /-- Start-up step, 0xA000:01, 8 bits; R400, 17; reset 0. -/
  step : Nat := 0
  /-- Start-up status, 0xA000:02, 16 bits; R400, 17; reset 0. -/
  status : BitVec 16 := 0
  /-- Start-up has stopped, 1 bit; R401, 17; reset 0. -/
  stopped : Bool := false
  /-- Step durations, 0xA000:03, 32 bits each; R401, 17; reset none. -/
  durations : List (BitVec 32) := []
  /-- Input voltage, 0xA000:04, 32 bits; R409, 17; reset 0. -/
  millivolts : BitVec 32 := 0
  /-- Input power, 0xA000:05, 32 bits; R409, 17; reset 0. -/
  milliwatts : BitVec 32 := 0
  /-- Frame energy, 0xA000:06, 32 bits; R396, 17; reset 0. -/
  energy : BitVec 32 := 0
  /-- Hottest junction, 0xA000:07, signed 32 bits, m°C; R409, 17; reset 0. -/
  hottest : Int := 0
  /-- Hottest sensor, 0xA000:08, 8 bits; R409, 17; reset 0. -/
  hotSensor : Nat := 0
  /-- Coolant inlet, 0xA000:09, signed 32 bits, m°C; R409, 17; reset 0. -/
  inlet : Int := 0
  /-- Coolant flow, 0xA000:0A, 32 bits; R409, 17; reset 0. -/
  flow : BitVec 32 := 0
  /-- Thermal holds, 0xA000:0B, 32 bits; R409, 17; reset 0. -/
  thermalHolds : BitVec 32 := 0
  /-- Energy excess frames, 0xA000:0D, 64 bits; R396, 17; reset 0. -/
  energyOver : BitVec 64 := 0
  /-- Thermal cutoffs, 0xA000:0E, 32 bits, over the module's life; R399, 17; reset 0. -/
  cutoffs : BitVec 32 := 0
  /-- The carrier has latched a trip that no Kiosk ready has reported, 1 bit; R399, 17; reset 0. -/
  tripLatched : Bool := false
  /-- Sensor readings, 0xA000:11, signed 32 bits, m°C, 68 sensors, unlisted 0; R399, 17; reset 0. -/
  sensors : Tbl Int := []
  /-- A thermal episode is open, 1 bit; R399, 17; reset 0. -/
  hot : Bool := false
  /-- Consecutive ticks with every sensor at 95 °C or less; R399, 17; reset 0. -/
  coolTicks : Nat := 0
  /-- Ticks of the last VIN_RANGE, ENERGY_OVER and COOLANT_WARN; R395, R396, R398, 17; reset none. -/
  vinSaid : Option (BitVec 64) := none
  energySaid : Option (BitVec 64) := none
  coolantSaid : Option (BitVec 64) := none
  /-- Pending module warm reset, with what its start-up steps find; R405, 17; reset none. -/
  warm : Option StartEnv := none
  /-- Pending pavilion resets (pavilion, self-test verdict) and engine resets; R405, 17; reset none. -/
  pavResets : List (Nat × Bool) := []
  engResets : List EngRef := []
  /-- The start-up that follows completes a commanded or RESET_N cold reset, 1 bit; R406, 17; reset 0. -/
  coldPending : Bool := false
  /-- Update state, 0xA000:31, 8 bits; R409, 17; reset 0. -/
  update : Nat := 0
  /-- Version of the image under update; R407, 17; reset 0. -/
  updateVersion : BitVec 32 := 0
  /-- Preferred slot, 0xA000:32, 8 bits; R408, 17; reset 0. -/
  preferred : BitVec 8 := 0
  /-- Slot versions, 0xA000:33 and :34, 32 bits, 0 invalid; R409, 17; no value stated, DESIGN CHOICE 0. -/
  versionA : BitVec 32 := 0
  versionB : BitVec 32 := 0
  /-- Security version of the running image, 32 bits; R347, 14; no value stated, DESIGN CHOICE 0. -/
  svn : BitVec 32 := 0
  /-- Running slot, 0xA000:35, 8 bits; R407, 17; no value stated, DESIGN CHOICE 0. -/
  running : BitVec 8 := 0
deriving DecidableEq, Repr, Inhabited

/-! ### What leaves the block -/

/-- What the block has handed to the outside, oldest first. -/
inductive Out where
  /-- A flit or ordered set put on a link (R286). -/
  | wire (link : Nat) (bytes : List Byte)
  /-- The answer to an on-package pool request (R190). -/
  | pool (r : PoolReq) (status : BitVec 16) (handle : BitVec 32)
  /-- A Kiosk message to a client (Table 15.4). -/
  | kiosk (slot : Nat) (m : KMsg)
deriving DecidableEq, Repr, Inhabited

/-- The state of the block. -/
structure State where
  /-- Commands that are waiting, first in, first out; the block's queue; reset empty. -/
  pending : List Instr := []
  /-- What the block has handed to the outside, oldest first; reset empty. -/
  out : List Out := []
  /-- The sundial; chapter 02. -/
  sd : Sundial := {}
  /-- The arithmetic objects; chapter 03. -/
  ar : Arith := {}
  /-- Pavilion enable map, 0x2100, 256 bits of fuses that no command changes; R17, 01; no value stated, DESIGN CHOICE all ones. -/
  enableMap : BitVec 256 := BitVec.allOnes 256
  /-- Pavilion status, 0x2101, 256 bits; R20, 01; reset clear. -/
  failedMap : BitVec 256 := 0
  /-- Quarters that are powered, bit 4k + q; R30, 01; reset 0 (gated). -/
  powered : BitVec 32 := 0
  /-- Quarters whose power-up has begun, bit 4k + q; R124, 04; reset 0. -/
  powering : BitVec 32 := 0
  /-- Pavilions by linear index; chapter 04. -/
  pavs : Tbl Pavilion := []
  /-- Remote signals on their way, in issue order; R120, 04; reset none. -/
  sigs : List RemoteSig := []
  /-- Plots 0–31; chapter 14. -/
  plots : Tbl Plot := []
  /-- Collectives; chapters 08 and 09. -/
  coll : Coll := {}
  /-- Pools by module pool id, at most 256; R186, 07; reset none. -/
  pools : Tbl Pool := []
  /-- Shards by number, at most 4,096; R248, 10; reset invalid. -/
  shards : Tbl Shard := []
  /-- Norms by plot; R254, 10; reset unconfigured. -/
  norms : Tbl Norm := []
  /-- HBM; chapter 11. -/
  hbm : Hbm := {}
  /-- Ports and links; chapter 12. -/
  net : Ports := {}
  /-- Routing and scheduling; chapter 13. -/
  route : Route := {}
  /-- Gatehouse; chapter 14. -/
  gate : Gate := {}
  /-- Kiosk; chapter 15. -/
  kiosk : Kiosk := {}
  /-- Journal; chapter 15. -/
  journal : Journal := {}
  /-- Belvedere; chapter 16. -/
  tele : Tele := {}
  /-- Lodge; chapter 16. -/
  lodge : Lodge := {}
  /-- Power, start-up and firmware; chapter 17. -/
  power : Power := {}
  /-- Self-test result, 0x5000:0D, 16 bits; R173, 06; reset 0. -/
  testResult : BitVec 16 := 0
deriving DecidableEq, Repr

/-- The block right after reset: main power not yet good, every object at its default. -/
def State.reset : State := {}

end Sys2Proof.Machine
end

