-- ==== Sys2Proof/Machine/Table.lean ====
section
/-! DEFINITION. The named operations over sparse tables and over memory. Memory is a list of (address, byte) cells with strictly
rising addresses and no cell that holds 0, the value an unlisted address reads as (R93, R337). -/

namespace Sys2Proof.Machine

/-- The entry of key `k`, or `d` where none is listed. -/
def tblGet {α : Type} (d : α) : Tbl α → Nat → α
  | [], _ => d
  | (k', v) :: t, k => if k = k' then v else tblGet d t k

/-- The table with key `k` holding `v`; keys stay in rising order. -/
def tblSet {α : Type} : Tbl α → Nat → α → Tbl α
  | [], k, v => [(k, v)]
  | (k', v') :: t, k, v =>
    if k = k' then (k, v) :: t
    else if k < k' then (k, v) :: (k', v') :: t
    else (k', v') :: tblSet t k v

/-- The table without key `k`. -/
def tblErase {α : Type} (t : Tbl α) (k : Nat) : Tbl α := t.filter (fun e => e.1 != k)

/-- The table with `f` applied to the entry of key `k`. -/
def tblMod {α : Type} (d : α) (t : Tbl α) (k : Nat) (f : α → α) : Tbl α := tblSet t k (f (tblGet d t k))

/-- The byte at an address; an unlisted one reads 0. -/
def memRead : List Host.Cell → Nat → Byte
  | [], _ => 0
  | (k, b) :: m, a => if a = k then b else memRead m a

/-- Memory with one byte written; writing 0 removes the cell. -/
def memWrite : List Host.Cell → Nat → Byte → List Host.Cell
  | [], a, b => if b = 0 then [] else [(a, b)]
  | (k, c) :: m, a, b =>
    if a < k then (if b = 0 then (k, c) :: m else (a, b) :: (k, c) :: m)
    else if a = k then (if b = 0 then m else (a, b) :: m)
    else (k, c) :: memWrite m a b

/-- `n` bytes from address `a`. -/
def memReads (m : List Host.Cell) (a n : Nat) : List Byte := (List.range n).map (fun i => memRead m (a + i))

/-- The bytes written from address `a` upwards. -/
def memWrites : List Host.Cell → Nat → List Byte → List Host.Cell
  | m, _, [] => m
  | m, a, b :: bs => memWrites (memWrite m a b) (a + 1) bs

/-- Memory with every byte from `a` to `a + n - 1` zero. -/
def memZero (m : List Host.Cell) (a n : Nat) : List Host.Cell := m.filter (fun c => !(decide (a ≤ c.1) && decide (c.1 < a + n)))

/-- The canonical form from address `lo` upwards. -/
def memWfFrom : Nat → List Host.Cell → Bool
  | _, [] => true
  | lo, (k, b) :: m => decide (lo ≤ k) && b != 0 && memWfFrom (k + 1) m

/-- Memory is in its canonical form: addresses strictly rising and no cell equal to what an unlisted address reads as. -/
def Memory.wf (m : List Host.Cell) : Bool := memWfFrom 0 m

/-! ### Bytes and bit fields -/

/-- A little-endian byte string as a number (R9). -/
def leNat : List Byte → Nat
  | [] => 0
  | b :: bs => b.toNat + 256 * leNat bs

/-- A number as `n` little-endian bytes (R9). -/
def natLe : Nat → Nat → List Byte
  | 0, _ => []
  | n + 1, v => BitVec.ofNat 8 v :: natLe n (v / 256)

/-- The field of `n` bits from bit `lo` of a number. -/
def fieldN (v lo n : Nat) : Nat := v / 2 ^ lo % 2 ^ n

/-- The field of `n` bits from bit `lo` of a bit vector, as a number. -/
def field {w : Nat} (v : BitVec w) (lo n : Nat) : Nat := fieldN v.toNat lo n

/-- One bit of a bit vector. -/
def bitAt {w : Nat} (v : BitVec w) (i : Nat) : Bool := v.getLsbD i

/-- A bit vector with one bit set or cleared. -/
def setBit {w : Nat} (v : BitVec w) (i : Nat) (b : Bool) : BitVec w :=
  if b then v ||| BitVec.ofNat w (2 ^ i) else v &&& ~~~(BitVec.ofNat w (2 ^ i))

/-- The numbers of the bits set among the first `n`, ascending. -/
def bitsSet {w : Nat} (v : BitVec w) (n : Nat) : List Nat := (List.range n).filter (fun i => v.getLsbD i)

/-- An `n`-bit number read as two's complement. -/
def signedN (n v : Nat) : Int := if v < 2 ^ (n - 1) then (v : Int) else (v : Int) - (2 ^ n : Nat)

/-- An integer as an `n`-bit two's complement number. -/
def toN (n : Nat) (v : Int) : Nat := (v % ((2 ^ n : Nat) : Int)).toNat

/-- A Boolean as a bit. -/
def bit (b : Bool) : Nat := if b then 1 else 0

/-- Whether every byte is zero (reserved bytes, R10). -/
def allZero (bs : List Byte) : Bool := bs.all (fun b => b == 0)

/-- Bytes `a` to `a + n - 1` of a byte string, short at its end. -/
def sliceB (bs : List Byte) (a n : Nat) : List Byte := (bs.drop a).take n

/-- The little-endian number of `n` bytes at `a` of a byte string. -/
def numAt (bs : List Byte) (a n : Nat) : Nat := leNat (sliceB bs a n)

/-- The bytes padded with zeros to `n`, or cut to `n`. -/
def padTo (n : Nat) (bs : List Byte) : List Byte := (bs ++ List.replicate (n - bs.length) 0).take n

/-- Consecutive pieces of `n` elements, `fuel` at most. -/
def piecesN {α : Type} : Nat → Nat → List α → List (List α)
  | 0, _, _ => []
  | fuel + 1, n, l => if l.isEmpty then [] else l.take n :: piecesN fuel n (l.drop n)

/-- Consecutive pieces of `n` elements, the last one possibly short. -/
def pieces {α : Type} (n : Nat) (l : List α) : List (List α) := piecesN l.length n l

/-- A list without repeats, first occurrences kept. -/
def addNew {α : Type} [BEq α] (l : List α) (x : α) : List α := if l.contains x then l else l ++ [x]

/-- Insertion into a list sorted by `le`, after equal elements. -/
def insertBy {α : Type} (le : α → α → Bool) (x : α) : List α → List α
  | [] => [x]
  | y :: ys => if le y x then y :: insertBy le x ys else x :: y :: ys

/-- A stable sort by `le`. -/
def sortBy {α : Type} (le : α → α → Bool) : List α → List α
  | [] => []
  | x :: xs => insertFront le x (sortBy le xs)
where
  /-- Insertion of an element that came before every element of the list, ahead of its equals. -/
  insertFront (le : α → α → Bool) (x : α) : List α → List α
    | [] => [x]
    | y :: ys => if le x y then x :: y :: ys else y :: insertFront le x ys

/-- The numbers of a list, sorted. -/
def sortNat (l : List Nat) : List Nat := sortBy (fun a b => decide (a ≤ b)) l

/-- The least number of a list. -/
def minNat? : List Nat → Option Nat
  | [] => none
  | x :: xs => some (xs.foldl min x)

/-- Saturating 32-bit count. -/
def sat32 (n : Nat) : Nat := min n 0xFFFFFFFF

end Sys2Proof.Machine
end

