-- ==== Sys2Proof/Machine/Formats.lean ====
section
/-! DEFINITION. The ten formats of chapter 03 and the one rounding every result passes through (R57–R61, R70–R74, R78–R79). A finite
value is an exact quotient num / den × 2^e; nothing is rounded before `roundFloat` or `roundInt`. -/

namespace Sys2Proof.Machine

/-! ### Formats (Table 3.1) -/

abbrev fFP64 : Nat := 0
abbrev fFP32 : Nat := 1
abbrev fBF16 : Nat := 2
abbrev fFP16 : Nat := 3
abbrev fE4M3 : Nat := 4
abbrev fE5M2 : Nat := 5
abbrev fMXFP8 : Nat := 6
abbrev fMXFP4 : Nat := 7
abbrev fINT32 : Nat := 8
abbrev fINT8 : Nat := 9

/-- A format code of Table 3.1 is assigned (R57). -/
def fmtValid (f : Nat) : Bool := decide (f ≤ 9)
/-- MXFP8 or MXFP4. -/
def fmtMx (f : Nat) : Bool := f == fMXFP8 || f == fMXFP4
/-- INT32 or INT8. -/
def fmtInt (f : Nat) : Bool := f == fINT32 || f == fINT8
/-- A format with sums in XA320 (Table 3.2). -/
def fmtXa320 (f : Nat) : Bool := fmtValid f && f != fFP64
/-- A Lattice input format (Table 3.2). -/
def fmtLattice (f : Nat) : Bool := f == fBF16 || f == fE4M3 || f == fE5M2 || fmtMx f
/-- A MERGE key format (Table 3.2). -/
def fmtKey (f : Nat) : Bool := fmtValid f && !fmtMx f
/-- Bits of one element (Table 3.1, R60). -/
def fmtBits (f : Nat) : Nat :=
  match f with
  | 0 => 64 | 1 => 32 | 2 => 16 | 3 => 16 | 4 => 8 | 5 => 8 | 6 => 8 | 7 => 4 | 8 => 32 | 9 => 8 | _ => 8
/-- Bytes that `n` elements of a format take (R60). -/
def fmtSize (f n : Nat) : Nat := (n * fmtBits f + 7) / 8

/-- The parameters of a floating-point format: exponent bits, mantissa bits, bias, the largest finite magnitude's bits, whether
it has infinities and whether it has a NaN. -/
structure FF where
  eb : Nat
  mb : Nat
  bias : Nat
  maxBits : Nat
  hasInf : Bool
  hasNan : Bool
deriving DecidableEq, Repr

/-- The element format of a code (MXFP8 elements are E4M3, MXFP4 elements E2M1). -/
def ffOf (f : Nat) : FF :=
  match f with
  | 0 => ⟨11, 52, 1023, 0x7FEFFFFFFFFFFFFF, true, true⟩
  | 1 => ⟨8, 23, 127, 0x7F7FFFFF, true, true⟩
  | 2 => ⟨8, 7, 127, 0x7F7F, true, true⟩
  | 3 => ⟨5, 10, 15, 0x7BFF, true, true⟩
  | 5 => ⟨5, 2, 15, 0x7B, true, true⟩
  | 7 => ⟨2, 1, 1, 7, false, false⟩
  | _ => ⟨4, 3, 7, 0x7E, false, true⟩

/-- Canonical NaN of a float format (Table 3.1); MXFP4 has none and its elements are written 0 (R72). -/
def nanBits (f : Nat) : Nat :=
  match f with
  | 0 => 0x7FF8000000000000 | 1 => 0x7FC00000 | 2 => 0x7FC0 | 3 => 0x7E00 | 4 => 0x7F | 5 => 0x7E | 6 => 0x7F | _ => 0

/-! ### Exact values -/

/-- A decoded element: a finite value is m × 2^e, and a zero keeps its sign. -/
inductive Num where
  | nan
  | inf (neg : Bool)
  | fin (neg : Bool) (m : Nat) (e : Int)
deriving DecidableEq, Repr, Inhabited

/-- Sign of a decoded value; false for a NaN. -/
def Num.neg : Num → Bool
  | .nan => false
  | .inf n => n
  | .fin n _ _ => n

def Num.isNan : Num → Bool
  | .nan => true
  | _ => false

def Num.isInf : Num → Bool
  | .inf _ => true
  | _ => false

def Num.isZero : Num → Bool
  | .fin _ 0 _ => true
  | _ => false

/-- A finite value as a signed multiple m of 2^e; 0 for the others. -/
def Num.int : Num → Int × Int
  | .fin n m e => (if n then -(m : Int) else m, e)
  | _ => (0, 0)

/-- Decode a float pattern (Table 3.1). -/
def decodeFF (p : FF) (v : Nat) : Num :=
  let mant := fieldN v 0 p.mb
  let ex := fieldN v p.mb p.eb
  let neg := fieldN v (p.mb + p.eb) 1 == 1
  let mag := fieldN v 0 (p.mb + p.eb)
  if p.maxBits < mag then (if p.hasInf && mag == p.maxBits + 1 then .inf neg else .nan)
  else if ex = 0 then .fin neg mant (1 - (p.bias : Int) - p.mb)
  else .fin neg (2 ^ p.mb + mant) ((ex : Int) - p.bias - p.mb)

/-- Decode an element of a format; `scale` is the E8M0 byte of its block for MX formats (R58, R60). -/
def decodeElem (f scale v : Nat) : Num :=
  if f == fINT32 || f == fINT8 then
    let i := signedN (fmtBits f) v
    .fin (decide (i < 0)) i.natAbs 0
  else if fmtMx f then
    if scale = 0xFF then .nan
    else match decodeFF (ffOf f) v with
      | .fin n m e => .fin n m (e + (scale : Int) - 127)
      | x => x
  else decodeFF (ffOf f) v

/-- A result before its one rounding: special, or sign and num / den × 2^e. -/
inductive Res where
  | nan
  | inf (neg : Bool)
  | fin (neg : Bool) (num den : Nat) (e : Int)
deriving DecidableEq, Repr, Inhabited

/-- Why an element's result is what it is (R83). -/
inductive Origin where
  | plain | nanIn | nanGen | infIn | empty | escape
deriving DecidableEq, Repr, Inhabited

/-- A result with its origin. -/
structure Elem where
  res : Res
  origin : Origin := .plain
deriving DecidableEq, Repr, Inhabited

def Num.toRes : Num → Res
  | .nan => .nan
  | .inf n => .inf n
  | .fin n m e => .fin n m 1 e

/-- A signed dyadic value as a result; zero gets the sign `zn`. -/
def resOfInt (zn : Bool) (m e : Int) : Res := if m = 0 then .fin zn 0 1 0 else .fin (decide (m < 0)) m.natAbs 1 e

/-- floor(log2(num / den)) for num, den > 0. -/
def log2Ratio (num den : Nat) : Int :=
  let l : Int := (Nat.log2 num : Int) - Nat.log2 den
  if 0 ≤ l then (if den * 2 ^ l.toNat ≤ num then l else l - 1)
  else (if den ≤ num * 2 ^ (-l).toNat then l else l - 1)

/-- num × 2^k / den as whole part, remainder and divisor. -/
def scaleDiv (num den : Nat) (k : Int) : Nat × Nat × Nat :=
  let n := if 0 ≤ k then num * 2 ^ k.toNat else num
  let d := if 0 ≤ k then den else den * 2 ^ (-k).toNat
  (n / d, n % d, d)

/-- One more or not, by the rounding mode of Table 3.3: `q` is the truncated value, `rem / d` the rest, `r` the 16 generated
bits (R78). -/
def roundQ (mode r q rem d : Nat) : Nat :=
  if rem = 0 then q
  else match mode with
    | 0 => if 2 * rem > d || (2 * rem == d && q % 2 == 1) then q + 1 else q
    | 1 => q
    | 2 => if q % 2 = 1 then q else q + 1
    | _ => if 2 ^ 16 ≤ rem * 2 ^ 16 / d + r then q + 1 else q

/-- A written element and what writing it counted (R72). -/
structure Written where
  bits : Nat
  sat : Bool := false
  ovf : Bool := false
  udf : Bool := false
deriving DecidableEq, Repr, Inhabited

/-- Round a magnitude num / den × 2^e, num > 0, to a float format: bits of the magnitude, whether the exact value lies beyond the
largest finite one, and whether the result is infinite (R70, R72, R78). -/
def roundFloat (p : FF) (mode r num den : Nat) (e : Int) : Nat × Bool × Bool :=
  let emin : Int := 1 - (p.bias : Int)
  let emax : Int := (p.maxBits / 2 ^ p.mb : Nat) - (p.bias : Int)
  let ex := min emax (max emin (log2Ratio num den + e))
  let u := ex - p.mb
  let (q, rem, d) := scaleDiv num den (e - u)
  let base := (u + p.mb + p.bias).toNat * 2 ^ p.mb
  let pack (x : Nat) : Nat := base + x - 2 ^ p.mb
  let beyond := decide (p.maxBits < pack q) || (pack q == p.maxBits && decide (0 < rem))
  let w := pack (roundQ mode r q rem d)
  if p.maxBits < w then
    (if p.hasInf && (mode == 0 || mode == 3) then (p.maxBits + 1, beyond, true) else (p.maxBits, beyond, false))
  else (w, beyond, false)

/-- Write a result in a float format, the element format of `f` for MX (R70, R72). A NaN in MXFP4 is written 0; its block scale
is set by `writeBlock`. -/
def writeFloat (f mode r : Nat) (x : Res) : Written :=
  let p := ffOf f
  let sgn (n : Bool) : Nat := bit n * 2 ^ (p.mb + p.eb)
  match x with
  | .nan => { bits := nanBits f }
  | .inf n => if p.hasInf then { bits := sgn n + p.maxBits + 1 } else { bits := sgn n + p.maxBits, sat := true }
  | .fin n 0 _ _ => { bits := sgn n }
  | .fin n num den e =>
    let (w, beyond, isInf) := roundFloat p mode r num den e
    { bits := sgn n + w, sat := beyond && !isInf, ovf := isInf, udf := w == 0 }

/-- Write a result as INT32 or INT8: rounded to an integer under the mode, then clamped (R72). -/
def writeInt (f mode r : Nat) (x : Res) : Written :=
  let n := fmtBits f
  let hi : Int := 2 ^ (n - 1) - 1
  let lo : Int := -(2 ^ (n - 1) : Int)
  match x with
  | .nan => { bits := 0 }
  | .inf ng => { bits := toN n (if ng then lo else hi), sat := true }
  | .fin ng num den e =>
    let (q, rem, d) := scaleDiv num den e
    let w := roundQ mode r q rem d
    let v : Int := if ng then -(w : Int) else w
    let lim : Nat := if ng then 2 ^ (n - 1) else 2 ^ (n - 1) - 1
    let beyond := decide (lim < q) || (q == lim && decide (0 < rem))
    { bits := toN n (max lo (min hi v)), sat := beyond, udf := decide (0 < num) && w == 0 }

/-- Write one result in a format that is not MX. -/
def writeElem (f mode r : Nat) (x : Res) : Written := if fmtInt f then writeInt f mode r x else writeFloat f mode r x

/-- floor(log2 of the magnitude) of a finite nonzero result. -/
def Res.expo : Res → Option Int
  | .fin _ 0 _ _ => none
  | .fin _ num den e => some (log2Ratio num den + e)
  | _ => none

/-- The shared exponent X of a MX block, clamped to −127…127 (R73). -/
def mxShared (f : Nat) (xs : List Res) : Int :=
  match xs.filterMap Res.expo with
  | [] => -127
  | a :: as => max (-127) (min 127 (as.foldl max a - (if f == fMXFP4 then 2 else 8)))

/-- A result divided by 2^X. -/
def Res.scaleBy (x : Res) (k : Int) : Res :=
  match x with
  | .fin n num den e => .fin n num den (e - k)
  | y => y

/-- Write a MX block of at most 32 results, each with its 16 generated bits: elements and the E8M0 scale byte (R72, R73).
No element of an MXFP4 block that holds a NaN counts as saturated or underflowed: all are written 0 under the scale 0xFF. -/
def writeBlock (f mode : Nat) (xs : List (Res × Nat)) : List Written × Nat :=
  let k := mxShared f (xs.map (·.1))
  if f == fMXFP4 && xs.any (fun x => x.1 == .nan) then
    (xs.map (fun x => let w := writeFloat f mode x.2 (x.1.scaleBy k); { w with bits := 0, sat := false, ovf := false, udf := false }), 0xFF)
  else (xs.map (fun x => writeFloat f mode x.2 (x.1.scaleBy k)), (k + 127).toNat)

/-! ### The rounding generator (R79) -/

/-- One of the ten rounds of the generator. -/
def genRound (k : U64) (s : U64 × U64 × U64) (i : Nat) : U64 × U64 × U64 :=
  let (a, b, c) := s
  let a := a + b
  let c := (c ^^^ a).rotateLeft 32
  let b := b + c
  let a := (a ^^^ b).rotateLeft 24
  let a := a + c
  let c := (c ^^^ a).rotateLeft 16
  let b := b + k + BitVec.ofNat 64 i
  let b := (b ^^^ c).rotateLeft 63
  (a, b, c)

/-- The 64-bit word that the rounding generator ends with (R79). -/
def genWord (seed : BitVec 128) (step : U64) (tid : U32) (idx : Nat) : U64 :=
  let k0 := seed.extractLsb' 0 64
  let k1 := seed.extractLsb' 64 64
  let s0 : U64 × U64 × U64 := (BitVec.ofNat 64 idx ^^^ k0, step ^^^ k1, tid ++ (0x9E3779B9 : U32))
  let (a, b, c) := (List.range 10).foldl (genRound (k0 ^^^ k1)) s0
  a ^^^ b ^^^ c

/-- The 16 bits of an element: job seed, latched step, tensor id, element index (R79). -/
def genBits (seed : BitVec 128) (step : U64) (tid : U32) (idx : Nat) : Nat := field (genWord seed step tid idx) 48 16

/-! ### Packing elements in bytes (R60) -/

/-- Element `i` of an array of format `f`, as bits. -/
def elemAt (f : Nat) (bs : List Byte) (i : Nat) : Nat :=
  if f == fMXFP4 then fieldN (bs.getD (i / 2) 0).toNat (4 * (i % 2)) 4
  else numAt bs (i * (fmtBits f / 8)) (fmtBits f / 8)

/-- Pairs of 4-bit elements as bytes, a missing last one 0. -/
def nibbles : List Nat → List Byte
  | [] => []
  | [a] => [BitVec.ofNat 8 a]
  | a :: b :: r => BitVec.ofNat 8 (a + 16 * b) :: nibbles r

/-- Elements of a format as bytes. -/
def packElems (f : Nat) (vs : List Nat) : List Byte :=
  if f == fMXFP4 then nibbles vs else vs.flatMap (fun v => natLe (fmtBits f / 8) v)

/-- Decode `n` elements of an array of format `f` with its scale bytes. -/
def decodeArr (f n : Nat) (elems scales : List Byte) : List Num :=
  (List.range n).map (fun i => decodeElem f (scales.getD (i / 32) 0).toNat (elemAt f elems i))

/-- Write a whole tensor of results with their generated bits: what each counted, the elements' bytes and the scales' bytes. -/
def writeTensor (f mode : Nat) (xs : List (Res × Nat)) : List Written × List Byte × List Byte :=
  if fmtMx f then
    let blocks := (pieces 32 xs).map (writeBlock f mode)
    let ws := blocks.flatMap (·.1)
    (ws, packElems f (ws.map (·.bits)), blocks.map (fun b => BitVec.ofNat 8 b.2))
  else
    let ws := xs.map (fun x => writeElem f mode x.2 x.1)
    (ws, packElems f (ws.map (·.bits)), [])

/-! ### Order (R75) -/

/-- Whether m × 2^e is below n × 2^k. -/
def ltDy (m e n k : Int) : Bool :=
  if e ≤ k then decide (m < n * 2 ^ (k - e).toNat) else decide (m * 2 ^ (e - k).toNat < n)

/-- Rank class of a value: −∞, finite, +∞, NaN. -/
def Num.rank : Num → Nat
  | .inf true => 0
  | .fin _ _ _ => 1
  | .inf false => 2
  | .nan => 3

/-- Strict order of R75: −0 below +0, NaN above +∞, all NaNs equal. -/
def Num.lt (x y : Num) : Bool :=
  if x.rank != y.rank then decide (x.rank < y.rank)
  else match x, y with
    | .fin n m e, .fin n' m' e' =>
      if m = 0 ∧ m' = 0 then n && !n'
      else ltDy (Num.fin n m e).int.1 e (Num.fin n' m' e').int.1 e'
    | _, _ => false

/-- Equality under the order of R75. -/
def Num.eqv (x y : Num) : Bool := !x.lt y && !y.lt x

end Sys2Proof.Machine
end

