-- ==== Sys2Proof/Machine/EngDecode.lean ====
section
/-! DEFINITION. The 128-bit commands of the engine streams: encoder, decoder and the well-formedness test of R129 (Tables 5.1 to
5.18). Word 0 is bits 63–0. Reserved bits are those the encoder writes as 0, so a word is free of reserved bits exactly when
encoding what was decoded gives it back. -/

namespace Sys2Proof.Machine

/-- A flag as one bit. -/
def bit1 (b : Bool) : BitVec 1 := if b then 1 else 0

/-- The opcode of an operation (Tables 5.3, 5.4, 5.10, 5.13, 5.16, R149). -/
def opcOf : EngOp → BitVec 8
  | .nop => 0x00 | .loop _ => 0x01 | .endloop => 0x02 | .frame _ => 0x03 | .halt => 0x04 | .mark _ => 0x05
  | .setvl _ => 0x10 | .setvls _ => 0x11 | .sli _ _ => 0x12 | .salu _ => 0x13 | .tld _ => 0x14 | .tst _ => 0x15 | .tsum _ => 0x16 | .exec _ => 0x17
  | .amode _ => 0x30 | .aclr _ => 0x31 | .addd _ => 0x32 | .addi _ => 0x33 | .acarry _ => 0x34 | .adrain _ => 0x35
  | .mmerge _ => 0x40 | .msort _ => 0x41 | .mtopk _ => 0x42 | .mfilt _ => 0x43
  | .lmm _ => 0x50
  | .mcopy _ => 0x60 | .msig _ => 0x61

/-! ### Operand words -/

/-- Table 5.5. -/
def encTile (o : TileMem) : BitVec 64 := o.t ++ o.fmt ++ o.sa ++ o.sx ++ o.off ++ o.rs ++ o.rm ++ o.si ++ o.y
/-- A selector of Table 5.6. -/
def encSel (b : BSel) : BitVec 12 := b.kind ++ b.reg ++ b.idx
/-- R148. -/
def encMerge (o : MergeOps) : BitVec 64 := o.pb ++ o.vfmt ++ bit1 o.key ++ bit1 o.dir ++ o.dup ++ o.fop ++ (0 : BitVec 31)

/-- The operand word, bits 63–0 (Tables 5.3, 5.5, 5.6, 5.11, R145, R148, R149, R151, R153). -/
def encOps : EngOp → BitVec 64
  | .nop => 0
  | .loop o => (0 : BitVec 26) ++ bit1 o.cs ++ o.sn ++ (0 : BitVec 16) ++ o.count
  | .endloop => 0
  | .frame nf => (0 : BitVec 48) ++ nf
  | .halt => 0
  | .mark v => (0 : BitVec 32) ++ v
  | .setvl n => (0 : BitVec 54) ++ n
  | .setvls sn => (0 : BitVec 59) ++ sn
  | .sli d imm => (0 : BitVec 27) ++ d ++ imm
  | .salu o => o.op ++ bit1 o.i ++ o.d ++ o.a ++ o.b ++ (0 : BitVec 28) ++ o.imm
  | .tld o => encTile o
  | .tst o => encTile o
  | .tsum o => encTile o
  | .exec o => o.epa ++ o.epl ++ encSel o.b0 ++ encSel o.b1 ++ encSel o.b2 ++ encSel o.b3 ++ (0 : BitVec 1)
  | .amode o => o.slot ++ o.n ++ bit1 o.mode ++ o.b ++ o.fmt ++ bit1 o.sq ++ (0 : BitVec 25)
  | .aclr o => o.slot ++ o.n ++ (0 : BitVec 43)
  | .addd o => o.src ++ o.slot ++ o.n ++ o.fmt ++ bit1 o.sq ++ o.scoff
  | .addi o => o.src ++ o.slot ++ o.n ++ o.fmt ++ bit1 o.sq ++ o.ib
  | .acarry o => o.src ++ o.slot ++ o.n ++ o.ib ++ (0 : BitVec 4)
  | .adrain o => o.dst ++ o.slot ++ o.n ++ o.ofmt ++ o.rm ++ bit1 o.mean ++ bit1 o.dsrc ++ o.dblk
  | .mmerge o => encMerge o
  | .msort o => encMerge o
  | .mtopk o => encMerge o
  | .mfilt o => encMerge o
  | .lmm o => o.pb ++ o.afmt ++ o.bfmt ++ o.sp ++ bit1 o.init ++ bit1 o.ob ++ o.rm ++ (0 : BitVec 28)
  | .mcopy mda => mda ++ (0 : BitVec 42)
  | .msig o => o.kind ++ o.pav ++ o.die ++ o.ctr ++ o.inc ++ (0 : BitVec 34)

/-- The common fields of Tables 5.1 and 5.2, bits 127–64. -/
def encHdr (opc : BitVec 8) (eng : BitVec 4) (h : CmdHdr) : BitVec 64 :=
  opc ++ eng ++ h.tag ++ bit1 h.w ++ h.wctr ++ h.wthr ++ bit1 h.s ++ h.sctr ++ h.sinc ++ bit1 h.ord ++ bit1 h.wdec ++ bit1 h.laa ++
    bit1 h.lab ++ bit1 h.trc ++ (0 : BitVec 1)

/-- The 128-bit word of a command for an engine (R128). -/
def encodeCmd (eng : Nat) (c : EngCmd) : BitVec 128 := encHdr (opcOf c.op) (BitVec.ofNat 4 eng) c.hdr ++ encOps c.op

/-- The two little-endian 64-bit words of a command as 16 bytes, word 0 first (R128, R9). -/
def cmdBytes (w : BitVec 128) : List Byte := natLe 16 w.toNat

/-- The commands a byte string holds (R128). -/
def cmdsOfBytes (bs : List Byte) : List (BitVec 128) := (pieces 16 bs).map (fun p => BitVec.ofNat 128 (leNat p))

/-! ### Decoding -/

/-- A field of `n` bits from bit `lo`. -/
def fld {w : Nat} (v : BitVec w) (lo n : Nat) : BitVec n := v.extractLsb' lo n
/-- One bit. -/
def flg {w : Nat} (v : BitVec w) (i : Nat) : Bool := v.extractLsb' i 1 == 1

def decHdr (w : BitVec 64) : CmdHdr :=
  { tag := fld w 36 16, w := flg w 35, wctr := fld w 29 6, wthr := fld w 17 12, s := flg w 16, sctr := fld w 10 6, sinc := fld w 6 4,
    ord := flg w 5, wdec := flg w 4, laa := flg w 3, lab := flg w 2, trc := flg w 1 }

def decTile (v : BitVec 64) : TileMem :=
  { t := fld v 59 5, fmt := fld v 55 4, sa := fld v 50 5, sx := fld v 45 5, off := fld v 23 22, rs := fld v 9 14, rm := fld v 7 2,
    si := fld v 2 5, y := fld v 0 2 }
def decSel (v : BitVec 12) : BSel := { kind := fld v 10 2, reg := fld v 5 5, idx := fld v 0 5 }
def decMerge (v : BitVec 64) : MergeOps :=
  { pb := fld v 42 22, vfmt := fld v 38 4, key := flg v 37, dir := flg v 36, dup := fld v 34 2, fop := fld v 31 3 }

/-- The operation an opcode names on an engine, with its operands; none where Table 5.3 and the engine's own table have no such
opcode (R129). -/
def decOp (eng opc : Nat) (v : BitVec 64) : Option EngOp :=
  match opc with
  | 0x00 => some .nop
  | 0x01 => some (.loop { cs := flg v 37, sn := fld v 32 5, count := fld v 0 16 })
  | 0x02 => some .endloop
  | 0x03 => some (.frame (fld v 0 16))
  | 0x04 => some .halt
  | 0x05 => some (.mark (fld v 0 32))
  | _ =>
    match eng, opc with
    | 0, 0x10 => some (.setvl (fld v 0 10))
    | 0, 0x11 => some (.setvls (fld v 0 5))
    | 0, 0x12 => some (.sli (fld v 32 5) (fld v 0 32))
    | 0, 0x13 => some (.salu { op := fld v 60 4, i := flg v 59, d := fld v 54 5, a := fld v 49 5, b := fld v 44 5, imm := fld v 0 16 })
    | 0, 0x14 => some (.tld (decTile v))
    | 0, 0x15 => some (.tst (decTile v))
    | 0, 0x16 => some (.tsum (decTile v))
    | 0, 0x17 => some (.exec { epa := fld v 56 8, epl := fld v 49 7, b0 := decSel (fld v 37 12), b1 := decSel (fld v 25 12),
                               b2 := decSel (fld v 13 12), b3 := decSel (fld v 1 12) })
    | 1, 0x30 => some (.amode { slot := fld v 54 10, n := fld v 43 11, mode := flg v 42, b := fld v 30 12, fmt := fld v 26 4, sq := flg v 25 })
    | 1, 0x31 => some (.aclr { slot := fld v 54 10, n := fld v 43 11 })
    | 1, 0x32 => some (.addd { src := fld v 42 22, slot := fld v 32 10, n := fld v 21 11, fmt := fld v 17 4, sq := flg v 16, scoff := fld v 0 16 })
    | 1, 0x33 => some (.addi { src := fld v 42 22, slot := fld v 32 10, n := fld v 20 12, fmt := fld v 16 4, sq := flg v 15, ib := fld v 0 15 })
    | 1, 0x34 => some (.acarry { src := fld v 42 22, slot := fld v 32 10, n := fld v 20 12, ib := fld v 4 16 })
    | 1, 0x35 => some (.adrain { dst := fld v 42 22, slot := fld v 32 10, n := fld v 21 11, ofmt := fld v 17 4, rm := fld v 15 2,
                                 mean := flg v 14, dsrc := flg v 13, dblk := fld v 0 13 })
    | 2, 0x40 => some (.mmerge (decMerge v))
    | 2, 0x41 => some (.msort (decMerge v))
    | 2, 0x42 => some (.mtopk (decMerge v))
    | 2, 0x43 => some (.mfilt (decMerge v))
    | 3, 0x50 => some (.lmm { pb := fld v 42 22, afmt := fld v 38 4, bfmt := fld v 34 4, sp := fld v 32 2, init := flg v 31, ob := flg v 30,
                              rm := fld v 28 2 })
    | 4, 0x60 => some (.mcopy (fld v 42 22))
    | 4, 0x61 => some (.msig { kind := fld v 60 4, pav := fld v 52 8, die := fld v 48 4, ctr := fld v 38 10, inc := fld v 34 4 })
    | 5, 0x60 => some (.mcopy (fld v 42 22))
    | 5, 0x61 => some (.msig { kind := fld v 60 4, pav := fld v 52 8, die := fld v 48 4, ctr := fld v 38 10, inc := fld v 34 4 })
    | _, _ => none

/-! ### Well-formed commands (R129) -/

/-- The opcode has a first address operand that LAA advances (R136, Tables 5.5, 5.11, R148, R149, R151). -/
def hasLaa : EngOp → Bool
  | .tld _ | .tst _ | .tsum _ | .addd _ | .addi _ | .acarry _ | .adrain _ | .mmerge _ | .msort _ | .mtopk _ | .mfilt _ | .lmm _ | .mcopy _ => true
  | _ => false

/-- The opcode has a second address operand that LAB advances: the scale address of TLD and TST, the drain block of ADRAIN. -/
def hasLab : EngOp → Bool
  | .tld _ | .tst _ | .adrain _ => true
  | _ => false

/-- The pairings of Table 5.1 and Table 5.2. -/
def hdrOk (h : CmdHdr) (op : EngOp) : Bool :=
  (h.w || (h.wctr == 0 && h.wthr == 0 && !h.wdec)) &&
  (if h.s then h.sinc != 0 else h.sctr == 0 && h.sinc == 0) &&
  (!h.laa || hasLaa op) && (!h.lab || hasLab op)

/-- Operand fields that the opcode does not use in this form are reserved and 0 (Table 5.1, R129, R143, R145, R146, R148, R149,
Tables 5.3, 5.5, 5.6, 5.11; log entry 41). -/
def unusedOk : EngOp → Bool
  | .loop o => if o.cs then o.count == 0 else o.sn == 0
  | .salu o => if o.i then o.b == 0 else o.imm == 0
  | .tld o => o.rm == 0 && o.si == 0 && o.y == 0 && (fmtMx o.fmt.toNat || o.sx == 0)
  | .tst o => fmtMx o.fmt.toNat || o.sx == 0
  | .tsum o => o.t == 0 && o.fmt == 0 && o.sx == 0 && o.rs == 0 && o.rm == 0 && o.si == 0
  | .addd o => fmtMx o.fmt.toNat || o.scoff == 0
  | .mmerge o => o.fop == 0
  | .msort o => o.fop == 0
  | .mtopk o => o.fop == 0
  | .exec o => [o.b0, o.b1, o.b2, o.b3].all (fun b => b.kind != 0 || (b.reg == 0 && b.idx == 0))
  | .amode o => o.mode || o.b == 0
  | .adrain o => o.mean || !o.dsrc
  | .lmm o => o.ob || o.rm == 0
  | _ => true

/-- Fields that an opcode's table bounds (Tables 5.3, 5.5, 5.6, 5.9, 5.11, R138, R141, R145, R148, R149, R153). -/
def opOk (eng : Nat) (h : CmdHdr) : EngOp → Bool
  | .loop o => !h.w && !h.s && !h.ord && !h.wdec && !h.trc && (!o.cs || eng == 0)
  | .endloop => !h.w && !h.s && !h.ord && !h.wdec && !h.trc
  | .frame nf => nf != 0
  | .setvl n => decide (n.toNat ≤ 512)
  | .salu o => decide (o.op.toNat ≤ 0xA)
  | .tst o => decide (o.si.toNat ≤ 29)
  | .exec o => decide (1 ≤ o.epl.toNat) && decide (o.epl.toNat ≤ 64) && decide (o.epa.toNat * 8 + o.epl.toNat ≤ 2048)
  | .amode o => fmtValid o.fmt.toNat
  | .mmerge o => o.dup != 3
  | .msort o => o.dup != 3
  | .mtopk o => o.dup != 3
  | .mfilt o => o.dup != 3 && o.fop != 7
  | .msig o => decide (o.kind.toNat ≤ 1) && o.inc != 0 &&
      (if o.kind == 0 then decide (o.ctr.toNat ≤ 63) && o.die == 0 else o.pav == 0)
  | _ => true

/-- A well-formed command for an engine (R129). -/
def cmdOk (eng : Nat) (c : EngCmd) : Bool := hdrOk c.hdr c.op && unusedOk c.op && opOk eng c.hdr c.op

/-- The command an engine reads from a word, or none where it is malformed (R129). -/
def decodeCmd (eng : Nat) (w : BitVec 128) : Option EngCmd :=
  match decOp eng (fld w 120 8).toNat (fld w 0 64) with
  | none => none
  | some op =>
    let c : EngCmd := { hdr := decHdr (fld w 64 64), op := op }
    if encodeCmd eng c = w ∧ cmdOk eng c = true then some c else none

/-- The engine that takes an operation: the engine's own opcodes, or any engine for the control opcodes (R129, R137). -/
def opOnEng (eng : Nat) : EngOp → Bool
  | .nop | .loop _ | .endloop | .frame _ | .halt | .mark _ => true
  | .setvl _ | .setvls _ | .sli _ _ | .salu _ | .tld _ | .tst _ | .tsum _ | .exec _ => eng == 0
  | .amode _ | .aclr _ | .addd _ | .addi _ | .acarry _ | .adrain _ => eng == 1
  | .mmerge _ | .msort _ | .mtopk _ | .mfilt _ => eng == 2
  | .lmm _ => eng == 3
  | .mcopy _ | .msig _ => eng == 4 || eng == 5

end Sys2Proof.Machine
end

