-- ==== Sys2Proof/Machine/Fp32.lean ====
section
/-! DEFINITION. The FP32, BF16 and FP64 operations of chapters 03 and 05 on bit patterns: every result is formed exactly and rounded
once, to nearest with ties to even (R58, R69, R84, R86, Table 5.7). -/

namespace Sys2Proof.Machine

/-- Round a result once to a float format by RNE. -/
def rne (f : Nat) (x : Res) : Nat := (writeFloat f 0 0 x).bits

/-- The decoded value of an FP32 pattern. -/
def dec32 (v : Nat) : Num := decodeFF (ffOf fFP32) v

/-- Sum of two dyadic values. -/
def dyAdd (m e n k : Int) : Int × Int :=
  if e ≤ k then (m + n * 2 ^ (k - e).toNat, e) else (m * 2 ^ (e - k).toNat + n, k)

/-- The exact sum of two decoded values, with the zero and special rules of IEEE 754-2019 under RNE. -/
def numAdd (x y : Num) : Res :=
  match x, y with
  | .nan, _ => .nan
  | _, .nan => .nan
  | .inf a, .inf b => if a == b then .inf a else .nan
  | .inf a, _ => .inf a
  | _, .inf b => .inf b
  | .fin a m e, .fin b n k =>
    let (s, t) := dyAdd (Num.fin a m e).int.1 e (Num.fin b n k).int.1 k
    resOfInt (a && b && m == 0 && n == 0) s t

/-- A decoded value with its sign flipped. -/
def Num.negate : Num → Num
  | .nan => .nan
  | .inf a => .inf (!a)
  | .fin a m e => .fin (!a) m e

/-- The exact product of two decoded values. -/
def numMul (x y : Num) : Num :=
  match x, y with
  | .nan, _ => .nan
  | _, .nan => .nan
  | .inf a, .inf b => .inf (a != b)
  | .inf a, .fin b n _ => if n = 0 then .nan else .inf (a != b)
  | .fin a m _, .inf b => if m = 0 then .nan else .inf (a != b)
  | .fin a m e, .fin b n k => .fin (a != b) (m * n) (e + k)

/-- The exact quotient of two decoded values. -/
def numDiv (x y : Num) : Res :=
  match x, y with
  | .nan, _ => .nan
  | _, .nan => .nan
  | .inf _, .inf _ => .nan
  | .inf a, .fin b _ _ => .inf (a != b)
  | .fin a _ _, .inf b => .fin (a != b) 0 1 0
  | .fin a m e, .fin b n k =>
    if n = 0 then (if m = 0 then .nan else .inf (a != b))
    else .fin (a != b) m n (e - k)

/-- The integer square root, by binary digits from 2^(n-1) down. -/
def isqrtN : Nat → Nat → Nat → Nat
  | 0, _, r => r
  | n + 1, x, r => if (r + 2 ^ n) * (r + 2 ^ n) ≤ x then isqrtN n x (r + 2 ^ n) else isqrtN n x r

/-- floor(√x). -/
def isqrt (x : Nat) : Nat := isqrtN (Nat.log2 x / 2 + 1) x 0

/-- The exact square root as far as one rounding needs it: a root that is not exact carries a sticky bit. -/
def numSqrt (x : Num) : Res :=
  match x with
  | .nan => .nan
  | .inf a => if a then .nan else .inf false
  | .fin a m e =>
    if m = 0 then .fin a 0 1 0
    else if a then .nan
    else
      let odd := (e % 2).toNat
      let n := m * 2 ^ odd * 2 ^ 64
      let q := isqrt n
      .fin false (2 * q + bit (q * q != n)) 1 ((e - odd) / 2 - 33)

def f32Add (a b : Nat) : Nat := rne fFP32 (numAdd (dec32 a) (dec32 b))
def f32Sub (a b : Nat) : Nat := rne fFP32 (numAdd (dec32 a) (dec32 b).negate)
def f32Mul (a b : Nat) : Nat := rne fFP32 (numMul (dec32 a) (dec32 b)).toRes
/-- a × b + c, rounded once. -/
def f32Fma (a b c : Nat) : Nat := rne fFP32 (numAdd (numMul (dec32 a) (dec32 b)) (dec32 c))
/-- −(a × b) + c, rounded once. -/
def f32Fnma (a b c : Nat) : Nat := rne fFP32 (numAdd (numMul (dec32 a) (dec32 b)).negate (dec32 c))
def f32Div (a b : Nat) : Nat := rne fFP32 (numDiv (dec32 a) (dec32 b))
def f32Sqrt (a : Nat) : Nat := rne fFP32 (numSqrt (dec32 a))

/-- An FP32 pattern with every NaN made canonical. -/
def f32Canon (a : Nat) : Nat := if (dec32 a).isNan then nanBits fFP32 else a

/-- Minimum of R75. -/
def f32Min (a b : Nat) : Nat :=
  if (dec32 a).isNan || (dec32 b).isNan then nanBits fFP32 else if (dec32 b).lt (dec32 a) then b else a
/-- Maximum of R75. -/
def f32Max (a b : Nat) : Nat :=
  if (dec32 a).isNan || (dec32 b).isNan then nanBits fFP32 else if (dec32 a).lt (dec32 b) then b else a
def f32Abs (a : Nat) : Nat := if (dec32 a).isNan then nanBits fFP32 else a % 2 ^ 31
def f32Neg (a : Nat) : Nat := if (dec32 a).isNan then nanBits fFP32 else (a + 2 ^ 31) % 2 ^ 32

/-- IEEE 754-2019 equality: NaN compares false and −0 equals +0. -/
def numEq (x y : Num) : Bool := !x.isNan && !y.isNan && ((x.isZero && y.isZero) || x.eqv y)
/-- IEEE 754-2019 less-than. -/
def numLt (x y : Num) : Bool := !x.isNan && !y.isNan && !(x.isZero && y.isZero) && x.lt y
/-- The pattern of a truth value. -/
def mask32 (b : Bool) : Nat := if b then 0xFFFFFFFF else 0

def f32Clt (a b : Nat) : Nat := mask32 (numLt (dec32 a) (dec32 b))
def f32Cle (a b : Nat) : Nat := mask32 (numLt (dec32 a) (dec32 b) || numEq (dec32 a) (dec32 b))
def f32Ceq (a b : Nat) : Nat := mask32 (numEq (dec32 a) (dec32 b))
/-- INT32 to FP32 by RNE. -/
def cvtIf (a : Nat) : Nat := rne fFP32 (decodeElem fINT32 0 a).toRes
/-- FP32 to INT32 by RNE, saturating; NaN gives 0. -/
def cvtFi (a : Nat) : Nat := (writeInt fINT32 0 0 (dec32 a).toRes).bits

/-! ### exp, log and rsqrt (R86)

The value is formed in fixed point with 192 fraction bits and a sticky bit, far beyond the place at which an FP32 result of these
functions can lie near a tie. PRESUMED (log entry 13): that 192 bits decide every rounding. -/

/-- floor(ln 2 × 2^192). -/
def ln2Fix : Int := 0xB17217F7D1CF79ABC9E3B39803F2F6AF40F343267298B62D

/-- The Taylor terms of exp, each from the one before. -/
def expTerms : Nat → Nat → Int → Int → Int
  | 0, _, _, _ => 0
  | n + 1, i, r, t => t + expTerms n (i + 1) r (t * r / 2 ^ 192 / ((i : Int) + 1))

def f32Exp (a : Nat) : Nat :=
  match dec32 a with
  | .nan => nanBits fFP32
  | .inf n => if n then 0 else 0x7F800000
  | .fin n m e =>
    if m = 0 then 0x3F800000
    else if 7 ≤ log2Ratio m 1 + e then (if n then 0 else 0x7F800000)
    else
      let x : Int := (Num.fin n m e).int.1 * 2 ^ (192 + e).toNat
      let k := x.fdiv ln2Fix
      let s := expTerms 60 0 (x - k * ln2Fix) (2 ^ 192)
      rne fFP32 (.fin false (2 * s.toNat + 1) 1 (k - 193))

/-- The odd powers of the artanh series. -/
def atanhTerms : Nat → Nat → Int → Int → Int
  | 0, _, _, _ => 0
  | n + 1, i, z2, t => t / (2 * (i : Int) + 1) + atanhTerms n (i + 1) z2 (t * z2 / 2 ^ 192)

def f32Log (a : Nat) : Nat :=
  match dec32 a with
  | .nan => nanBits fFP32
  | .inf n => if n then nanBits fFP32 else 0x7F800000
  | .fin n m e =>
    if m = 0 then 0xFF800000
    else if n then nanBits fFP32
    else
      let l := Nat.log2 m
      let up := decide (3 * 2 ^ l < 2 * m)
      let p := if up then l + 1 else l
      let num : Int := (m : Int) - 2 ^ p
      let z := num * 2 ^ 192 / ((m : Int) + 2 ^ p)
      let v := 2 * atanhTerms 60 0 (z * z / 2 ^ 192) z + (e + p) * ln2Fix
      if num = 0 ∧ e + p = 0 then 0
      else rne fFP32 (.fin (decide (v < 0)) (2 * v.natAbs + 1) 1 (-193))

def f32Rsqrt (a : Nat) : Nat :=
  match dec32 a with
  | .nan => nanBits fFP32
  | .inf n => if n then nanBits fFP32 else 0
  | .fin n m e =>
    if m = 0 then (if n then 0xFF800000 else 0x7F800000)
    else if n then nanBits fFP32
    else
      let odd := (e % 2).toNat
      let d := m * 2 ^ odd
      let q := isqrt (2 ^ 192 / d)
      rne fFP32 (.fin false (2 * q + bit (q * q * d != 2 ^ 192)) 1 (-97 - (e - odd) / 2))

/-! ### Packed BF16 -/

def dec16 (v : Nat) : Num := decodeFF (ffOf fBF16) v
/-- Low and high half of a word. -/
def lo16 (v : Nat) : Nat := v % 2 ^ 16
def hi16 (v : Nat) : Nat := v / 2 ^ 16 % 2 ^ 16
/-- A word from its halves. -/
def join16 (l h : Nat) : Nat := l + h * 2 ^ 16

def padd (a b : Nat) : Nat :=
  join16 (rne fBF16 (numAdd (dec16 (lo16 a)) (dec16 (lo16 b)))) (rne fBF16 (numAdd (dec16 (hi16 a)) (dec16 (hi16 b))))
def pmul (a b : Nat) : Nat :=
  join16 (rne fBF16 (numMul (dec16 (lo16 a)) (dec16 (lo16 b))).toRes) (rne fBF16 (numMul (dec16 (hi16 a)) (dec16 (hi16 b))).toRes)
def pfma (a b c : Nat) : Nat :=
  join16 (rne fBF16 (numAdd (numMul (dec16 (lo16 a)) (dec16 (lo16 b))) (dec16 (lo16 c))))
    (rne fBF16 (numAdd (numMul (dec16 (hi16 a)) (dec16 (hi16 b))) (dec16 (hi16 c))))
def pcvt (a b : Nat) : Nat := join16 (rne fBF16 (dec32 a).toRes) (rne fBF16 (dec32 b).toRes)
/-- A BF16 half widened to FP32 (R85). -/
def unp (h : Nat) : Nat := rne fFP32 (dec16 h).toRes

/-! ### Integer micro-operations and SALU (Tables 5.7 and 5.9) -/

def w32 (i : Int) : Nat := toN 32 i
def s32 (v : Nat) : Int := signedN 32 v
def shl32 (a b : Nat) : Nat := a * 2 ^ (b % 32) % 2 ^ 32
def shr32 (a b : Nat) : Nat := a / 2 ^ (b % 32)
/-- Arithmetic shift right by b mod 32. -/
def sar32 (a b : Nat) : Nat := w32 ((s32 a).fdiv (2 ^ (b % 32)))
def and32 (a b : Nat) : Nat := Nat.land a b
def or32 (a b : Nat) : Nat := Nat.lor a b
def xor32 (a b : Nat) : Nat := Nat.xor a b

/-- FP64 addition by RNE, the node of the fixed tree (R69). -/
def f64Add (a b : Nat) : Nat := rne fFP64 (numAdd (decodeFF (ffOf fFP64) a) (decodeFF (ffOf fFP64) b))

/-- One level of the fixed tree (R69). -/
def treeLevel : List Nat → List Nat
  | [] => []
  | [a] => [a]
  | a :: b :: r => f64Add a b :: treeLevel r

/-- The levels of the fixed tree, `n` at most. -/
def treeN : Nat → List Nat → Nat
  | _, [] => 0
  | _, [a] => a
  | 0, a :: _ => a
  | n + 1, l => treeN n (treeLevel l)

/-- The fixed-tree sum of FP64 patterns in contribution-index order; none gives +0 (R69). -/
def treeSum (l : List Nat) : Nat := treeN l.length l

end Sys2Proof.Machine
end

