-- ==== Sys2Proof/Machine/Flags.lean ====
section
/-! DEFINITION. The exact accumulators of R62–R69 and the flags they keep, the final rounding of R70–R77, and the counts of the
exception summary (R83, Table 3.5). -/

namespace Sys2Proof.Machine

/-! ### Accumulator slots -/

/-- A cleared slot keeps its settings (R62, R146). -/
def slotClear (t : Slot) : Slot :=
  { t with value := 0, count := 0, posInf := false, negInf := false, nan := false, allNegZero := true, escapes := 0, limit := false }

/-- AMODE: set the settings and clear (R146). -/
def slotMode (wide : Bool) (fmt : BitVec 4) (sq : Bool) (base : Int) : Slot := { wide := wide, fmt := some fmt, sq := sq, base := base }

/-- The exponent of a slot's least significant bit (R62, R66). -/
def slotLsb (t : Slot) : Int := if t.wide then t.base else -149

/-- m × 2^e as a multiple of 2^b, when it is one. -/
def asMultiple (m : Nat) (e b : Int) : Option Nat :=
  if b ≤ e then some (m * 2 ^ (e - b).toNat)
  else let d := 2 ^ (b - e).toNat; if m % d = 0 then some (m / d) else none

/-- The square of an input (R68). -/
def numSquare : Num → Num
  | .nan => .nan
  | .inf _ => .inf false
  | .fin _ m e => .fin false (m * m) (e + e)

/-- A sum as a two's complement integer of 320 bits (R62). Contributions within their limit never leave it; values of carry records
may, and the manual does not state what the slot then holds: a free value, log entry 100. -/
def slotSum (v : Int) : Int := if -(2 ^ 319) ≤ v ∧ v < 2 ^ 319 then v else (Config.slotBeyond v).toInt

/-- One contribution enters a slot (R63–R68). A slot at 2^32 contributions takes none and marks its output invalid (R64). -/
def slotAdd (t : Slot) (x : Num) : Slot :=
  if 2 ^ 32 ≤ t.count then { t with limit := true }
  else
    let t := { t with count := t.count + 1 }
    match (if t.sq then numSquare x else x) with
    | .nan => { t with nan := true }
    | .inf n => if n then { t with negInf := true } else { t with posInf := true }
    | .fin n m e =>
      match asMultiple m e (slotLsb t) with
      | none => { t with escapes := t.escapes + 1 }
      | some k =>
        if t.wide ∧ 2 ^ 607 ≤ k then { t with escapes := t.escapes + 1 }
        else
          let v := t.value + (if n then -(k : Int) else k)
          { t with value := if t.wide then v else slotSum v, allNegZero := t.allNegZero && n && m == 0 }

/-- A carry record of Table 4.3, as a 384-bit number. -/
structure Carry where
  index : Nat
  count : Nat
  nan : Bool
  posInf : Bool
  negInf : Bool
  allNegZero : Bool
  fmt : Nat
  value : Int
deriving DecidableEq, Repr, Inhabited

def carryOf (v : Nat) : Carry :=
  { index := fieldN v 352 32, count := fieldN v 328 24, nan := fieldN v 327 1 == 1, posInf := fieldN v 326 1 == 1,
    negInf := fieldN v 325 1 == 1, allNegZero := fieldN v 324 1 == 1, fmt := fieldN v 320 4, value := signedN 320 (fieldN v 0 320) }

def carryNat (c : Carry) : Nat :=
  toN 320 c.value + 2 ^ 320 * (c.fmt + 2 ^ 4 * (bit c.allNegZero + 2 * (bit c.negInf + 2 * (bit c.posInf + 2 * (bit c.nan +
    2 * (c.count + 2 ^ 24 * c.index))))))

/-- `n` more contributions would take the slot past 2^32, and are turned away (R64). -/
def slotTurnsAway (t : Slot) (n : Nat) : Bool := decide (2 ^ 32 < t.count + n)

/-- A carry record enters a slot (R107); one that would pass 2^32 contributions is handled as R64 lays down. -/
def slotCarry (t : Slot) (c : Carry) : Slot :=
  if 2 ^ 32 < t.count + c.count then { t with limit := true }
  else { t with value := slotSum (t.value + c.value), count := t.count + c.count, nan := t.nan || c.nan, posInf := t.posInf || c.posInf,
                negInf := t.negInf || c.negInf, allNegZero := t.allNegZero && c.allNegZero }

/-- The final result of a slot: a sum, or a mean by divisor `d` (R67, R70, R74, R77). -/
def slotResult (t : Slot) (mean : Option Nat) : Elem :=
  let sum : Elem :=
    if t.nan then ⟨.nan, .nanIn⟩
    else if t.posInf && t.negInf then ⟨.nan, .nanGen⟩
    else if t.posInf then ⟨.inf false, .infIn⟩
    else if t.negInf then ⟨.inf true, .infIn⟩
    else ⟨resOfInt (t.allNegZero && t.count != 0) t.value (slotLsb t), .plain⟩
  if t.escapes != 0 then ⟨.nan, .escape⟩
  else match mean with
    | none => if t.count = 0 then ⟨.fin false 0 1 0, .empty⟩ else sum
    | some d =>
      if d = 0 then ⟨.nan, .empty⟩
      else if t.count = 0 then ⟨.fin false 0 1 0, .empty⟩
      else match sum.res with
        | .fin n num den e => ⟨.fin n num (den * d) e, sum.origin⟩
        | _ => sum

/-! ### Exception summaries (R83) -/

/-- One element's result counted (R72, R83): an element counts in at most one of EMPTY, ESCAPE, NAN_IN, NAN_GEN and INF_IN. -/
def countElem (y : Summary) (o : Origin) (w : Written) : Summary :=
  let y := { y with elems := y.elems + 1 }
  match o with
  | .empty => { y with empty := sat32 (y.empty + 1) }
  | .escape => y
  | .nanIn => { y with nanIn := sat32 (y.nanIn + 1) }
  | .nanGen => { y with nanGen := sat32 (y.nanGen + 1) }
  | .infIn => { y with infIn := sat32 (y.infIn + 1), sat := sat32 (y.sat + bit w.sat) }
  | .plain => { y with sat := sat32 (y.sat + bit w.sat), overflow := sat32 (y.overflow + bit w.ovf), underflow := sat32 (y.underflow + bit w.udf) }

/-- Escaped inputs of an element: their number, the lowest index, and VALID cleared (R67). -/
def countEscapes (y : Summary) (idx n : Nat) : Summary :=
  if n = 0 then y
  else { y with
    escape := sat32 (y.escape + n), valid := false,
    firstEsc := if idx < y.firstEsc.toNat then BitVec.ofNat 64 idx else y.firstEsc }

/-- The 512-bit summary of Table 3.5. -/
def summaryNat (y : Summary) : Nat :=
  bit y.valid + 2 ^ 3 * bit y.fto + 2 ^ 4 * y.fmt.toNat + 2 ^ 32 * y.tid.toNat + 2 ^ 64 * y.step.toNat + 2 ^ 128 * y.nanIn + 2 ^ 160 * y.infIn +
    2 ^ 192 * y.nanGen + 2 ^ 224 * y.overflow + 2 ^ 256 * y.sat + 2 ^ 288 * y.underflow + 2 ^ 320 * y.escape + 2 ^ 352 * y.empty +
    2 ^ 384 * y.firstEsc.toNat + 2 ^ 448 * (y.elems % 2 ^ 64)

/-- The 64 bytes of a summary. -/
def summaryBytes (y : Summary) : List Byte := natLe 64 (summaryNat y)

/-- A whole tensor of elements written in format `f`: summary, element bytes and scale bytes. `base` is the element index of the
first one, `gen` the generated bits of an element index (R79, R80). An infinity that derives from no infinite input counts in
OVERFLOW, wherever it arose (R72, R83). -/
def writeElems (f mode : Nat) (gen : Nat → Nat) (base : Nat) (y : Summary) (es : List Elem) : Summary × List Byte × List Byte :=
  let xs := (List.range es.length).zip es |>.map (fun p => (p.2.res, if mode == 3 then gen (base + p.1) else 0))
  let (ws, eb, sb) := writeTensor f mode xs
  let y := (es.zip ws).foldl (fun y p => countElem y p.1.origin { p.2 with ovf := p.2.ovf || ((p.1.res == .inf false || p.1.res == .inf true) && !p.2.sat) }) y
  (y, eb, sb)

/-- Minimum or maximum of values, and whether the result is empty or a NaN (R75, R77). -/
def extremum (wantMax : Bool) (xs : List Num) : Elem :=
  match xs with
  | [] => ⟨.nan, .empty⟩
  | x :: r =>
    if xs.any Num.isNan then ⟨.nan, .nanIn⟩
    else
      let b := r.foldl (fun b y => if wantMax then (if b.lt y then y else b) else (if y.lt b then y else b)) x
      ⟨b.toRes, if b.isInf then .infIn else .plain⟩

end Sys2Proof.Machine
end

