-- ==== Sys2Proof/Machine/Codes.lean ====
section
/-! DEFINITION. The record codes and classes of chapters 02 to 17 and the status codes of R12, by name. -/

namespace Sys2Proof.Machine

/-- A record code with its class: 0 A fault, 1 B warning, 2 C notice, 3 D trace (Table 16.3). -/
structure RecKind where
  code : U16
  cls : Nat
deriving DecidableEq, Repr

def rkPeriodChanged : RecKind := ⟨0x0924, 2⟩
def rkFrameOverrun : RecKind := ⟨0x0923, 1⟩
def rkSundialAlign : RecKind := ⟨0x0920, 1⟩
def rkSundialHoldover : RecKind := ⟨0x0921, 1⟩
def rkSundialLost : RecKind := ⟨0x0922, 0⟩
def rkPeriodMismatch : RecKind := ⟨0x0925, 0⟩
def rkAccLimit : RecKind := ⟨0x0930, 0⟩
def rkArithEscape : RecKind := ⟨0x0931, 2⟩
def rkSramCorrected : RecKind := ⟨0x0940, 2⟩
def rkSramUncorrected : RecKind := ⟨0x0941, 0⟩
def rkQueueParity : RecKind := ⟨0x0942, 0⟩
def rkEngineBounds : RecKind := ⟨0x0943, 0⟩
def rkMergeUnsorted : RecKind := ⟨0x0944, 2⟩
def rkLatticePcode : RecKind := ⟨0x0945, 1⟩
def rkCommandTrace : RecKind := ⟨0x0946, 3⟩
def rkEngineMalformed : RecKind := ⟨0x0947, 0⟩
def rkLoadBlocked : RecKind := ⟨0x0948, 1⟩
def rkBreakHit : RecKind := ⟨0x0949, 2⟩
def rkLoadRefused : RecKind := ⟨0x094A, 2⟩
def rkLoadActivated : RecKind := ⟨0x094B, 2⟩
def rkSelftestDone : RecKind := ⟨0x094C, 2⟩
def rkSelftestFail : RecKind := ⟨0x094D, 0⟩
def rkActiveBankWrite : RecKind := ⟨0x094E, 1⟩
def rkWaitCycle : RecKind := ⟨0x0950, 0⟩
def rkCtrLimit : RecKind := ⟨0x0951, 1⟩
def rkPoisonDrop : RecKind := ⟨0x0952, 2⟩
def rkPoolEmpty : RecKind := ⟨0x0953, 1⟩
def rkDoubleFree : RecKind := ⟨0x0954, 1⟩
def rkRefcountLimit : RecKind := ⟨0x0955, 1⟩
def rkHandleInvalid : RecKind := ⟨0x0956, 1⟩
def rkEngineHandle : RecKind := ⟨0x0957, 0⟩
def rkCollSegInvalid : RecKind := ⟨0x0960, 1⟩
def rkCollRetract : RecKind := ⟨0x0961, 2⟩
def rkCollFault : RecKind := ⟨0x0962, 0⟩
def rkCollDrop : RecKind := ⟨0x0963, 2⟩
def rkCollStale : RecKind := ⟨0x0964, 1⟩
def rkB2Refused : RecKind := ⟨0x0965, 2⟩
def rkRowMiss : RecKind := ⟨0x0968, 2⟩
def rkPsCommit : RecKind := ⟨0x0970, 3⟩
def rkPsDegraded : RecKind := ⟨0x0971, 1⟩
def rkPsDivergence : RecKind := ⟨0x0972, 0⟩
def rkPsTwinMismatch : RecKind := ⟨0x0973, 0⟩
def rkPsDamaged : RecKind := ⟨0x0974, 0⟩
def rkPsTwinLate : RecKind := ⟨0x0975, 1⟩
def rkPsRestored : RecKind := ⟨0x0976, 2⟩
def rkPsRestoreFail : RecKind := ⟨0x0977, 0⟩
def rkPsStale : RecKind := ⟨0x0978, 2⟩
def rkPsNormFault : RecKind := ⟨0x0979, 0⟩
def rkHbmCorrected : RecKind := ⟨0x0980, 2⟩
def rkHbmUncorrected : RecKind := ⟨0x0981, 0⟩
def rkHbmPressure : RecKind := ⟨0x0982, 2⟩
def rkHbmStackFail : RecKind := ⟨0x0983, 0⟩
def rkLinkUp : RecKind := ⟨0x0990, 2⟩
def rkLinkDown : RecKind := ⟨0x0991, 0⟩
def rkLinkTrainFail : RecKind := ⟨0x0992, 1⟩
def rkLaneSpared : RecKind := ⟨0x0993, 1⟩
def rkLinkHeader : RecKind := ⟨0x0994, 1⟩
def rkLinkWindow : RecKind := ⟨0x0995, 1⟩
def rkLinkAuthFail : RecKind := ⟨0x0996, 0⟩
def rkLinkKeyExhausted : RecKind := ⟨0x0997, 0⟩
def rkLinkOsError : RecKind := ⟨0x0998, 2⟩
def rkRouteTurn : RecKind := ⟨0x09A0, 1⟩
def rkNoRoute : RecKind := ⟨0x09A1, 1⟩
def rkRouteRole : RecKind := ⟨0x09A2, 1⟩
def rkRouteStall : RecKind := ⟨0x09A3, 1⟩
def rkSprayPressure : RecKind := ⟨0x09A4, 2⟩
def rkSchedStarved : RecKind := ⟨0x09A5, 1⟩
def rkReserveOver : RecKind := ⟨0x09A6, 1⟩
def rkPlotViolation : RecKind := ⟨0x09B0, 0⟩
def rkPlotForeign : RecKind := ⟨0x09B1, 1⟩
def rkEntropyFail : RecKind := ⟨0x09B2, 0⟩
def rkKeyAgreeFail : RecKind := ⟨0x09B3, 1⟩
def rkBootImageFail : RecKind := ⟨0x09B4, 0⟩
def rkKatFail : RecKind := ⟨0x09B5, 0⟩
def rkZeroise : RecKind := ⟨0x09B6, 0⟩
def rkJournalRecovered : RecKind := ⟨0x09C0, 2⟩
def rkJournalLost : RecKind := ⟨0x09C1, 0⟩
def rkJournalWriteFail : RecKind := ⟨0x09C2, 0⟩
def rkSessionRefused : RecKind := ⟨0x09C3, 2⟩
def rkKioskAuthFail : RecKind := ⟨0x09C4, 1⟩
def rkPlotHold : RecKind := ⟨0x09D0, 1⟩
def rkModuleHold : RecKind := ⟨0x09D1, 0⟩
def rkLockstepFail : RecKind := ⟨0x09D2, 0⟩
def rkHubUncorrected : RecKind := ⟨0x09D3, 0⟩
def rkLodgeSuspect : RecKind := ⟨0x09D4, 1⟩
def rkLodgeCommit : RecKind := ⟨0x09D5, 0⟩
def rkLodgeNoQuorum : RecKind := ⟨0x09D6, 0⟩
def rkLodgeFenced : RecKind := ⟨0x09D7, 0⟩
def rkEpochDrop : RecKind := ⟨0x09D8, 1⟩
def rkLodgeClaim : RecKind := ⟨0x09D9, 2⟩
def rkLodgeTakeover : RecKind := ⟨0x09DA, 2⟩
def rkHoldReleased : RecKind := ⟨0x09DB, 2⟩
def rkVinRange : RecKind := ⟨0x09E0, 1⟩
def rkEnergyOver : RecKind := ⟨0x09E1, 1⟩
def rkThermalHold : RecKind := ⟨0x09E2, 0⟩
def rkThermalCutoff : RecKind := ⟨0x09E3, 0⟩
def rkCoolantWarn : RecKind := ⟨0x09E4, 1⟩
def rkStartupDone : RecKind := ⟨0x09E5, 2⟩
def rkStartupFail : RecKind := ⟨0x09E6, 0⟩
def rkUpdateDone : RecKind := ⟨0x09E7, 2⟩
def rkResetDone : RecKind := ⟨0x09E8, 2⟩

def stOk : U16 := 0x0000
def stVerifyFail : U16 := 0x0101
def stLoadRefusedFit : U16 := 0x0102
def stLoadRefusedEnergy : U16 := 0x0103
def stLoadActiveBank : U16 := 0x0104
def stLoadBlocked : U16 := 0x0105
def stSelftestBusy : U16 := 0x0106
def stLoadPending : U16 := 0x0107
def stLoadShortMask : U16 := 0x0108
def stImageCorrupt : U16 := 0x0109
def stLoadPeriod : U16 := 0x010A
def stSelftestMapped : U16 := 0x010B
def stSelftestFail : U16 := 0x094D
def stPoisoned : U16 := 0x0201
def stWaitCycle : U16 := 0x0202
def stCtrSaturated : U16 := 0x0203
def stPoolEmpty : U16 := 0x0301
def stDoubleFree : U16 := 0x0302
def stRefcountLimit : U16 := 0x0303
def stHandleInvalid : U16 := 0x0304
def stCapacityDrop : U16 := 0x0401
def stRetracted : U16 := 0x0402
def stB2MinSize : U16 := 0x0403
def stCollAborted : U16 := 0x0404
def stStaleRun : U16 := 0x0405
def stSegInvalid : U16 := 0x0406
def stB2NoSlot : U16 := 0x0407
def stNoDescriptor : U16 := 0x0408
def stB2Mismatch : U16 := 0x0409
def stDivergence : U16 := 0x0501
def stDegradedCommit : U16 := 0x0502
def stTwinConfig : U16 := 0x0503
def stShardDamaged : U16 := 0x0504
def stShardAborted : U16 := 0x0505
def stShardState : U16 := 0x0506
def stRestoreFail : U16 := 0x0507
def stNormBadSlot : U16 := 0x0508
def stTwinSkew : U16 := 0x0509
def stLinkDown : U16 := 0x0601
def stHeaderInvalid : U16 := 0x0602
def stWindowExceeded : U16 := 0x0603
def stCreditOverrun : U16 := 0x0604
def stLinkRetryFail : U16 := 0x0605
def stLinkPartner : U16 := 0x0606
def stLinkAuthFail : U16 := 0x0607
def stKeyExhausted : U16 := 0x0608
def stSpareNone : U16 := 0x0609
def stLaneChannel : U16 := 0x060A
def stSignalLost : U16 := 0x060B
def stLinkCommanded : U16 := 0x060C
def stNoRoute : U16 := 0x060D
def stRouteTurn : U16 := 0x060E
def stPlotViolation : U16 := 0x0701
def stImageAuthFail : U16 := 0x0702
def stKatFail : U16 := 0x0703
def stKeyAgreeFail : U16 := 0x0704
def stZeroised : U16 := 0x0705
def stRollback : U16 := 0x0706
def stKioskNoObject : U16 := 0x0801
def stKioskAccess : U16 := 0x0802
def stKioskRange : U16 := 0x0803
def stKioskType : U16 := 0x0804
def stKioskState : U16 := 0x0805
def stSessionLimit : U16 := 0x0806
def stKioskMalformed : U16 := 0x0807
def stKioskAuth : U16 := 0x0808
def stKioskPending : U16 := 0x0809
def stJournalFail : U16 := 0x080A
def stKioskNotReady : U16 := 0x080B
def stSubLimit : U16 := 0x080C
def stDomainSeq : U16 := 0x080D
def stEpochFenced : U16 := 0x0901
def stNoQuorum : U16 := 0x0902
def stEpochAhead : U16 := 0x0903
def stEpochLimit : U16 := 0x0904
def stStartupTimeout : U16 := 0x0A01
def stStartupFuse : U16 := 0x0A02
def stStartupHub : U16 := 0x0A03
def stStartupThermal : U16 := 0x0A04
def stResetPending : U16 := 0x0A05
def stStartupCount : U16 := 0x0A06

/-! ### Hold causes (Table 16.2) -/

abbrev hcEngine : Nat := 0
abbrev hcPavilion : Nat := 1
abbrev hcMemory : Nat := 2
abbrev hcIsolation : Nat := 3
abbrev hcCollective : Nat := 4
abbrev hcWaitCycle : Nat := 5
abbrev hcArith : Nat := 6
abbrev hcLink : Nat := 7
abbrev hcSundial : Nat := 8
abbrev hcShard : Nat := 9
abbrev hcThermal : Nat := 10
abbrev hcMemberLost : Nat := 11
abbrev hcNoQuorum : Nat := 12
abbrev hcFenced : Nat := 13
abbrev hcModule : Nat := 14

/-! ### Source kinds (Table 16.4) -/

def srcModule : Src := ⟨0, 0⟩
def srcPav (i : Nat) : Src := ⟨1, i⟩
def srcDie (j : Nat) : Src := ⟨2, j⟩
def srcLink (l : Nat) : Src := ⟨3, l⟩
def srcHub (h : Nat) : Src := ⟨4, h⟩
def srcCore (k : Nat) : Src := ⟨5, k⟩
def srcStack (k : Nat) : Src := ⟨6, k⟩
def srcGate : Src := ⟨7, 0⟩
def srcMgmt : Src := ⟨8, 0⟩
def srcShard (n : Nat) : Src := ⟨9, n⟩

end Sys2Proof.Machine
end

