-- ==== Sys2Proof/Machine/Ops.lean ====
section
/-! DEFINITION. The operations every meaning shares: reading and changing one unit of the state, emitting a Belvedere record
(R371–R376), raising a hold (R367, R368), and adding to a counter (R176). -/

namespace Sys2Proof.Machine

/-! ### One unit of the state -/

def pavAt (s : State) (i : Nat) : Pavilion := tblGet {} s.pavs i
def setPav (s : State) (i : Nat) (p : Pavilion) : State := { s with pavs := tblSet s.pavs i p }
def modPav (s : State) (i : Nat) (f : Pavilion → Pavilion) : State := setPav s i (f (pavAt s i))

def engAt (s : State) (u : EngRef) : Engine := tblGet {} (pavAt s u.pav).engines u.eng
def setEng (s : State) (u : EngRef) (e : Engine) : State :=
  modPav s u.pav (fun p => { p with engines := tblSet p.engines u.eng e })
def modEng (s : State) (u : EngRef) (f : Engine → Engine) : State := setEng s u (f (engAt s u))

def plotAt (s : State) (n : Nat) : Plot := tblGet {} s.plots n
def setPlot (s : State) (n : Nat) (p : Plot) : State := { s with plots := tblSet s.plots n p }
def modPlot (s : State) (n : Nat) (f : Plot → Plot) : State := setPlot s n (f (plotAt s n))

def dieAt (s : State) (j : Nat) : Dovecote := tblGet {} s.coll.dies j
def setDie (s : State) (j : Nat) (d : Dovecote) : State := { s with coll := { s.coll with dies := tblSet s.coll.dies j d } }
def modDie (s : State) (j : Nat) (f : Dovecote → Dovecote) : State := setDie s j (f (dieAt s j))

def shardAt (s : State) (n : Nat) : Shard := tblGet {} s.shards n
def setShard (s : State) (n : Nat) (h : Shard) : State := { s with shards := tblSet s.shards n h }
def modShard (s : State) (n : Nat) (f : Shard → Shard) : State := setShard s n (f (shardAt s n))

def normAt (s : State) (n : Nat) : Norm := tblGet {} s.norms n
def setNorm (s : State) (n : Nat) (x : Norm) : State := { s with norms := tblSet s.norms n x }
def modNorm (s : State) (n : Nat) (f : Norm → Norm) : State := setNorm s n (f (normAt s n))

def stackAt (s : State) (k : Nat) : Stack := tblGet {} s.hbm.stks k
def setStack (s : State) (k : Nat) (x : Stack) : State := { s with hbm := { s.hbm with stks := tblSet s.hbm.stks k x } }
def modStack (s : State) (k : Nat) (f : Stack → Stack) : State := setStack s k (f (stackAt s k))

def portAt (s : State) (n : Nat) : Port := tblGet {} s.net.ports n
def setPort (s : State) (n : Nat) (x : Port) : State := { s with net := { s.net with ports := tblSet s.net.ports n x } }
def linkAt (s : State) (l : Nat) : Link := tblGet {} s.net.links l
def setLink (s : State) (l : Nat) (x : Link) : State := { s with net := { s.net with links := tblSet s.net.links l x } }
def modLink (s : State) (l : Nat) (f : Link → Link) : State := setLink s l (f (linkAt s l))

def sessAt (s : State) (k : Nat) : Session := tblGet {} s.kiosk.sessions k
def setSess (s : State) (k : Nat) (x : Session) : State := { s with kiosk := { s.kiosk with sessions := tblSet s.kiosk.sessions k x } }
def modSess (s : State) (k : Nat) (f : Session → Session) : State := setSess s k (f (sessAt s k))

def domAt (s : State) (n : Nat) : Domain := tblGet {} s.lodge.domains n
def setDom (s : State) (n : Nat) (x : Domain) : State := { s with lodge := { s.lodge with domains := tblSet s.lodge.domains n x } }
def modDom (s : State) (n : Nat) (f : Domain → Domain) : State := setDom s n (f (domAt s n))

def poolAt? (s : State) (p : Nat) : Option Pool := (s.pools.find? (fun e => e.1 == p)).map (·.2)
def setPool (s : State) (p : Nat) (x : Pool) : State := { s with pools := tblSet s.pools p x }

/-! ### Numbering and ownership -/

/-- All 32 plots (R330). -/
def allPlots : List Nat := List.range 32

/-- The plot whose mask names pavilion `i` (R331: masks do not overlap). -/
def maskOwner (s : State) (i : Nat) : Option Nat := allPlots.find? (fun n => (plotAt s n).pavMask.getLsbD i)

/-- The plot that owns and sees pavilion `i` (R124, R331). -/
def plotOfPav (s : State) (i : Nat) : Option Nat := allPlots.find? (fun n => (plotAt s n).pavSeen.getLsbD i)

/-- The plots whose port mask holds a port of die `j` (R14, R332). -/
def plotsOfDie (s : State) (j : Nat) : List Nat :=
  allPlots.filter (fun n => (List.range 4).any (fun k => (plotAt s n).portMask.getLsbD (4 * j + k)))

/-- The plots whose port mask holds port `n` (R332). -/
def plotsOfPort (s : State) (n : Nat) : List Nat := allPlots.filter (fun k => (plotAt s k).portMask.getLsbD n)

/-- The pavilions of a plot in plot-relative order: index j is the j-th smallest linear index of its mask, which cannot change while
the plot holds an image, so the binding made at load time stands (R19, R331). -/
def pavsOfPlot (s : State) (n : Nat) : List Nat := bitsSet (plotAt s n).pavMask 256

/-- The ports of a plot in plot-relative order. -/
def portsOfPlot (s : State) (n : Nat) : List Nat := bitsSet (plotAt s n).portMask 64

/-- The linear index of a plot-relative pavilion (R19). -/
def pavOfRel (s : State) (n rel : Nat) : Option Nat := (pavsOfPlot s n)[rel]?

/-- The plot-relative index of a pavilion (R19). -/
def relOfPav (s : State) (n i : Nat) : Nat := (bitsSet (plotAt s n).pavMask i).length

/-- Port of a link index, and its half (R302: L = 2n + h). -/
def linkPort (l : Nat) : Nat := l / 2
def linkHalf (l : Nat) : Nat := l % 2
/-- Port die of a link (R14). -/
def linkDie (l : Nat) : Nat := l / 8

/-- The engines of a pavilion. -/
def engsOfPav (i : Nat) : List EngRef := (List.range 6).map (fun e => ⟨i, e⟩)
/-- The engines of a plot, by plot-relative pavilion and then ENG. -/
def engsOfPlot (s : State) (n : Nat) : List EngRef := (pavsOfPlot s n).flatMap engsOfPav

/-- Neither held nor suspended: STATE 2 and HELD 0 (R333). -/
def plotRuns (s : State) (n : Nat) : Bool := (plotAt s n).state == 2 && !(plotAt s n).held

/-! ### Belvedere (R371–R376) -/

/-- Values packed from bit 0 upwards in the order named, stopping at the first wider than the space left (Table 16.3). -/
def packArgs : Nat → List (Nat × Nat) → Nat
  | _, [] => 0
  | at_, (w, v) :: r => if 64 < at_ + w then 0 else v % 2 ^ w * 2 ^ at_ + packArgs (at_ + w) r

def stageOf (t : Tele) (src : Src) : SrcStage := (t.stages.find? (fun g => g.src == src)).getD { src := src }
/-- The staging of a source replaced, or added at the end. -/
def putStage : List SrcStage → SrcStage → List SrcStage
  | [], g => [g]
  | h :: r, g => if h.src == g.src then g :: r else h :: putStage r g
def setStage (t : Tele) (g : SrcStage) : Tele := { t with stages := putStage t.stages g }

/-- Count one in the loss ledger and its totals (R375). -/
def lose (t : Tele) (r : Rec) : Tele :=
  let add (e : Ledger) : Ledger :=
    match r.cls with
    | 0 => { e with a := e.a + 1 }
    | 1 => { e with b := e.b + 1 }
    | 2 => { e with c := e.c + 1 }
    | _ => { e with d := e.d + 1 }
  let led := if t.ledger.any (fun e => e.src == r.src) then t.ledger.map (fun e => if e.src == r.src then add e else e)
    else t.ledger ++ [add { src := r.src }]
  match r.cls with
  | 0 => { t with ledger := led, lossA := t.lossA + 1 }
  | 1 => { t with ledger := led, lossB := t.lossB + 1 }
  | 2 => { t with ledger := led, lossC := t.lossC + 1 }
  | _ => { t with ledger := led, lossD := t.lossD + 1 }

/-- The index, from the end, of the newest staged record that `p` picks. -/
def dropNewest (p : Rec → Bool) (l : List Rec) : Option (Rec × List Rec) :=
  match l.reverse.find? p with
  | none => none
  | some r => some (r, (l.reverse.erase r).reverse)

/-- Put a record into its source's staging (R372, R373). -/
def stageRec (t : Tele) (r : Rec) : Tele :=
  let g := stageOf t r.src
  let free := 4 - g.staged.length
  let put (l : List Rec) : Tele := setStage t { g with staged := l ++ [r] }
  match r.cls with
  | 3 => if 2 ≤ free then put g.staged else lose t r
  | 2 =>
    if 1 ≤ free then put g.staged
    else if g.table.any (fun e => e.code == r.code) then
      setStage t { g with table := g.table.map (fun e => if e.code == r.code then { e with count := min 0xFFFF (e.count + 1) } else e) }
    else if g.table.length < 16 then setStage t { g with table := g.table ++ [r] }
    else lose t r
  | 1 =>
    if 1 ≤ free then put g.staged
    else match dropNewest (fun e => decide (2 ≤ e.cls)) g.staged with
      | some (old, l) => lose (put l) old
      | none => lose t r
  | _ =>
    if 1 ≤ free then put g.staged
    else match dropNewest (fun e => decide (1 ≤ e.cls)) g.staged with
      | some (old, l) => lose (put l) old
      | none => lose t r

/-- Ring capacities (Table 16.5). -/
def ringCap (c : Nat) : Nat := match c with | 0 => 16384 | 1 => 65536 | 2 => 65536 | _ => 262144
def ringOf (t : Tele) (c : Nat) : List RingRec := match c with | 0 => t.ringA | 1 => t.ringB | 2 => t.ringC | _ => t.ringD
def setRing (t : Tele) (c : Nat) (r : List RingRec) : Tele :=
  match c with
  | 0 => { t with ringA := r }
  | 1 => { t with ringB := r }
  | 2 => { t with ringC := r }
  | _ => { t with ringD := r }

/-- Export takes the records of this class (0x8000:10, 0x8000:11). -/
def exports (t : Tele) (cls : Nat) : Bool := t.collector != 0x00FFFFFF && t.classes.getLsbD cls

/-- A record reaches its ring; the oldest one is overwritten when the ring is full (Table 16.5, R375). -/
def ringPut (t : Tele) (r : Rec) : Tele :=
  let ring := ringOf t r.cls
  let t := match ring with
    | o :: rest =>
      if ringCap r.cls ≤ ring.length then
        let t := setRing t r.cls rest
        let t := if o.read then t else lose t o.rec_
        if t.toSend.contains o.rec_ then { t with toSend := t.toSend.erase o.rec_, skips := t.skips + 1 } else t
      else t
    | [] => t
  let t := setRing t r.cls (ringOf t r.cls ++ [{ rec_ := r }])
  { t with emitted := t.emitted + 1, ringPuts := tblMod 0 t.ringPuts r.cls (· + 1), toSend := if exports t r.cls then t.toSend ++ [r] else t.toSend }

/-- The collector takes every staged record, classes A to D in turn, round robin among sources (Table 16.5). Log entry 10. -/
def collectTele (t : Tele) : Tele :=
  let all := t.stages.flatMap (·.staged)
  let byCls := (List.range 4).flatMap (fun c => all.filter (fun r => r.cls == c))
  byCls.foldl ringPut { t with stages := t.stages.map (fun g => { g with staged := [] }) }

/-- What has been staged reaches the rings: the end of every meaning (log entry 10). -/
def settle (s : State) : State := { s with tele := collectTele s.tele }

/-- The coalescing tables leave at the tick, one record an entry (R373). -/
def uncoalesce (t : Tele) : Tele :=
  let all := t.stages.flatMap (·.table)
  all.foldl ringPut { t with stages := t.stages.map (fun g => { g with table := [] }) }

/-- Send a record along its path: kept A records (R376), incidents (R374) and staging (R373). An A record that comes 4,096 ticks or more
after the last one begins a new incident, the old one's window having left. -/
def placeRec (t : Tele) (r : Rec) : Tele :=
  if r.cls == 0 then
    let kept := t.kept ++ [r]
    let t := { t with kept := kept.drop (kept.length - 64) }
    let old := t.incidents.find? (fun i => i.plot == r.plot)
    let gone := old.filter (fun i => decide (i.last.toNat + 4096 ≤ r.tick.toNat))
    let t := ((gone.map (·.tail)).getD []).foldl stageRec t
    let inc : Incident := (if gone.isSome then none else old).getD { plot := r.plot, n := 0, last := 0, tail := [] }
    let put (i : Incident) : Tele := { t with incidents := t.incidents.filter (fun j => j.plot != r.plot) ++ [i] }
    if inc.n < 256 then stageRec (put { inc with n := inc.n + 1, last := r.tick }) r
    else
      let tail := inc.tail ++ [r]
      let t := put { inc with n := inc.n + 1, last := r.tick, tail := tail.drop (tail.length - 256) }
      match inc.tail with
      | o :: _ => if 256 < tail.length then lose t o else t
      | [] => t
  else stageRec t r

/-- Emit a record: TICK, BOOT, EPOCH of the plot, per-source sequence number and packed ARG (R371). -/
def emit (s : State) (k : RecKind) (src : Src) (plot : Option Nat) (args : List (Nat × Nat)) : State :=
  let g := stageOf s.tele src
  let r : Rec := {
    tick := s.sd.ticks, boot := s.sd.boot, code := k.code, epoch := (match plot with | some n => (plotAt s n).epoch | none => 0),
    cls := k.cls, plot := plot, src := src, sseq := g.sseq, count := 1, arg := BitVec.ofNat 64 (packArgs 0 args) }
  { s with tele := placeRec (setStage s.tele { g with sseq := g.sseq + 1 }) r }

/-- A record's 32 bytes (Table 16.3), little-endian (R9). -/
def recBytes (r : Rec) : List Byte :=
  natLe 32 (r.arg.toNat + 2 ^ 64 * (r.count + 2 ^ 16 * (r.sseq.toNat + 2 ^ 16 * (r.src.idx + 2 ^ 16 * (r.src.kind +
    2 ^ 8 * ((match r.plot with | some n => n + 32 | none => 0) + 2 ^ 6 * (r.cls + 4 * (r.epoch.toNat +
    2 ^ 16 * (r.code.toNat + 2 ^ 16 * (r.boot.toNat + 2 ^ 32 * r.tick.toNat))))))))))

/-! ### Holds (R367, R368) -/

/-- Raise a hold of a plot: pending until step 2 of the tick that ends the frame (R368). -/
def raiseHold (s : State) (n cause : Nat) : State := modPlot s n (fun p => { p with pendHold := setBit p.pendHold cause true })

/-- A contained error that holds these plots under one of the causes 0x9000:03 counts (R367). -/
def containedHold (s : State) (ns : List Nat) (cause : Nat) : State :=
  if ns.isEmpty then s
  else ns.foldl (fun s n => raiseHold s n cause) { s with tele := { s.tele with contained := s.tele.contained + 1 } }

/-- A hold of plots for a cause that is not a contained error (R367). -/
def plainHold (s : State) (ns : List Nat) (cause : Nat) : State := ns.foldl (fun s n => raiseHold s n cause) s

/-- An uncontained error: MODULE_HOLD, every plot holds with cause MODULE, heartbeats carry state 2 (Table 16.1). -/
def uncontained (s : State) : State :=
  let s := emit s rkModuleHold srcModule none []
  plainHold { s with tele := { s.tele with uncontained := s.tele.uncontained + 1, moduleHeld := true } } allPlots hcModule

/-- A hold is pending for the plot (R368). -/
def holdPending (s : State) (n : Nat) : Bool := (plotAt s n).pendHold != 0

/-! ### Counters (R174–R178) -/

/-- The signed total of a cycle added and clamped once (R176): the counter and whether and where it met a limit. -/
def ctrAdd (c : Counter) (d : Int) : Counter × Option Bool :=
  let t : Int := c.value.toNat + d
  if 0xFFFF < t then ({ c with value := 0xFFFF, ovf := true }, some true)
  else if t < 0 then ({ c with value := 0, unf := true }, some false)
  else ({ c with value := BitVec.ofNat 16 t.toNat }, none)

/-- A poisoned counter reads 0 and takes no signals (R174). -/
def ctrPoison (c : Counter) : Counter := { c with value := 0, poison := true }

/-- The counter state word of Table 7.1. -/
def ctrWord (c : Counter) : Nat := c.value.toNat + 2 ^ 16 * bit c.ovf + 2 ^ 17 * bit c.unf + 2 ^ 31 * bit c.poison

def ctrAt (s : State) (p c : Nat) : Counter := tblGet {} (pavAt s p).ctrs c
def setCtr (s : State) (p c : Nat) (x : Counter) : State := modPav s p (fun v => { v with ctrs := tblSet v.ctrs c x })

/-- A wait holds: the counter is not poisoned and has reached the threshold (R130). -/
def waitHolds (c : Counter) (thr : Nat) : Bool := !c.poison && decide (thr ≤ c.value.toNat)

/-- Mark the plot as having moved something in this frame, so that the frame does not qualify (R184). -/
def moved (s : State) (n : Nat) : State := modPlot s n (fun p => { p with moved := true })

/-- Sum of a list of numbers. -/
def sumN (l : List Nat) : Nat := l.foldl (· + ·) 0

/-- The source a CTR_LIMIT record names: its kind (0 own engine, 1 MSIG, 2 Dovecote, 3 adjust) and number (R176). -/
structure CtrSrc where
  kind : Nat
  idx : Nat
deriving DecidableEq, Repr

/-- Count a clamp of a counter of a plot, and the one CTR_LIMIT record a frame allows it (R176). Log entry 14: the widths of
the values. -/
def ctrClamped (s : State) (n : Nat) (src : Src) (first : Bool) (ctr : Nat) (up : Bool) (o : CtrSrc) (senders : Nat) : State :=
  let s := modPlot s n (fun p => { p with ctrLimits := p.ctrLimits + 1 })
  if first then emit s rkCtrLimit src (some n) [(10, ctr), (1, bit up), (4, o.kind), (16, o.idx), (16, senders)] else s

/-- The first sender of a cycle in the order of R176: own engines by priority number, MSIG signals by plot-relative pavilion,
Dovecote signals by port die. -/
def firstSrc (sigs : List (Nat × CtrSrc)) : CtrSrc :=
  ((sortBy (fun a b => decide (a.2.kind < b.2.kind) || (a.2.kind == b.2.kind && decide (a.2.idx ≤ b.2.idx))) sigs).map (·.2)).headD ⟨0, 0⟩

/-- Add the signals of one cycle to a pavilion's counter: increments, each with its source (R131 step 1, R176). At a poisoned counter
each is dropped, counted and recorded with its own source (R183). Answers the state and whether the senders met the clamp or were
dropped. -/
def signalPav (s : State) (p ctr : Nat) (sigs : List (Nat × CtrSrc)) : State × SigState :=
  let c := ctrAt s p ctr
  let owner := plotOfPav s p
  if c.poison then
    match owner with
    | none => (s, .dropped)
    | some n =>
      let s := modPlot s n (fun q => { q with dropped := q.dropped + BitVec.ofNat 64 sigs.length })
      (sigs.foldl (fun s g => emit s rkPoisonDrop (srcPav p) (some n) [(4, g.2.kind), (16, g.2.idx)]) s, .dropped)
  else
    let (c', lim) := ctrAdd c (sumN (sigs.map (·.1)) : Nat)
    let s := setCtr s p ctr c'
    let s := match owner with | some n => moved s n | none => s
    match lim, owner with
    | some up, some n =>
      let first := !(pavAt s p).limited.contains ctr
      let s := modPav s p (fun v => { v with limited := addNew v.limited ctr })
      (ctrClamped s n (srcPav p) first ctr up (firstSrc sigs) sigs.length, .saturated)
    | some _, none => (s, .saturated)
    | none, _ => (s, .applied)

def trigAt? (s : State) (die plot rel : Nat) : Option TrigCtr :=
  (dieAt s die).trigs.find? (fun t => t.plot == plot && t.rel == rel)

def setTrig (s : State) (die plot rel : Nat) (c : Counter) : State :=
  modDie s die (fun d => { d with trigs := d.trigs.map (fun t => if t.plot == plot && t.rel == rel then { t with ctr := c } else t) })

/-- As `signalPav`, for a trigger counter of a Dovecote (R178). A counter that the image does not declare takes nothing. -/
def signalTrig (s : State) (die plot rel : Nat) (sigs : List (Nat × CtrSrc)) : State × SigState :=
  match trigAt? s die plot rel with
  | none => (s, .dropped)
  | some t =>
    if t.ctr.poison then
      let s := modPlot s plot (fun q => { q with dropped := q.dropped + BitVec.ofNat 64 sigs.length })
      (sigs.foldl (fun s g => emit s rkPoisonDrop (srcDie die) (some plot) [(4, g.2.kind), (16, g.2.idx)]) s, .dropped)
    else
      let (c', lim) := ctrAdd t.ctr (sumN (sigs.map (·.1)) : Nat)
      let s := moved (setTrig s die plot rel c') plot
      match lim with
      | some up =>
        let first := !(dieAt s die).limited.contains (plot, rel)
        let s := modDie s die (fun d => { d with limited := addNew d.limited (plot, rel) })
        (ctrClamped s plot (srcDie die) first rel up (firstSrc sigs) sigs.length, .saturated)
      | none => (s, .applied)

/-! ### Faults of a pavilion (R127) -/

/-- SRAM_UNCORRECTED or QUEUE_PARITY in a pavilion: it is marked failed, and its plot, if any, holds (Table 4.8, R20). -/
def pavFault (s : State) (k : RecKind) (i : Nat) : State :=
  let s := emit s k (srcPav i) (plotOfPav s i) []
  let s := { s with failedMap := setBit s.failedMap i true }
  containedHold s (plotOfPav s i).toList hcPavilion

/-- A corrected error is only reported (Table 4.8). -/
def pavCorrected (s : State) (i : Nat) : State := emit s rkSramCorrected (srcPav i) (plotOfPav s i) []

/-- Answer next with everything staged collected. -/
def done (s : State) : Host.Outcome State Fault Refusal := .next (settle s)

end Sys2Proof.Machine
end

