-- ==== Sys2Proof/Machine/Operands.lean ====
section
/-! DEFINITION. The operand forms of the engine commands: advanced addresses (R136), data SRAM accesses with their bounds, alignment
and SECDED rules (R94–R97), the strided rows of TILE (R142), records (R147), and the parameter blocks and address words that
commands read from SRAM (Tables 5.12, 5.14, 5.15, 5.17, 5.18). -/

namespace Sys2Proof.Machine

/-- An address operand: field value + i × span where its advance flag is set (R136). -/
def advance (on : Bool) (base span iter : Nat) : Nat := if on then base + iter * span else base

/-! ### Data SRAM -/

/-- The range lies wholly within 0x00_0000 to 0x3F_FFFF (R97); an empty range accesses nothing. -/
def sramIn (a n : Nat) : Bool := n == 0 || decide (a + n ≤ 2 ^ 22)

/-- The first word that SECDED finds uncorrectable in a range (R96). -/
def sramBad (v : Pavilion) (a n : Nat) : Option Nat :=
  if n = 0 then none else v.badWords.find? (fun w => decide (a / 32 ≤ w) && decide (w ≤ (a + n - 1) / 32))

/-- The first bad word of several ranges. -/
def sramBads (v : Pavilion) (rs : List (Nat × Nat)) : Option Nat := rs.findSome? (fun r => sramBad v r.1 r.2)

def sramRead (v : Pavilion) (a n : Nat) : List Byte := memReads v.sram a n

/-- All 32 bytes of word `w` lie in the range (R96). -/
def covers (a n w : Nat) : Bool := decide (a ≤ 32 * w) && decide (32 * w + 32 ≤ a + n)

/-- Bytes written from `a` upwards, but for those of the words in `skip`. -/
def memWritesBut (skip : List Nat) : List Host.Cell → Nat → List Byte → List Host.Cell
  | m, _, [] => m
  | m, a, b :: bs => memWritesBut skip (if skip.contains (a / 32) then m else memWrite m a b) (a + 1) bs

/-- A write to data SRAM: a whole-word write ends a word's error, and a partial write of a bad word changes nothing and is
answered (R96). -/
def sramWrite (v : Pavilion) (a : Nat) (bs : List Byte) : Pavilion × Option Nat :=
  let n := bs.length
  let part := v.badWords.filter (fun w => (sramBad { v with badWords := [w] } a n).isSome && !covers a n w)
  ({ v with sram := memWritesBut part v.sram a bs, badWords := v.badWords.filter (fun w => !covers a n w) }, part.head?)

/-- Several writes in order. -/
def sramWrites (v : Pavilion) : List (Nat × List Byte) → Pavilion × Option Nat
  | [] => (v, none)
  | (a, bs) :: r =>
    let (v, e) := sramWrite v a bs
    let (v, e') := sramWrites v r
    (v, e.or e')

/-! ### The strided rows of TILE (R142) -/

/-- A scalar register. -/
def scalar (v : Pavilion) (n : Nat) : Nat := (tblGet 0 v.scalars n).toNat

/-- Bytes of a full row of 32 elements. -/
def rowBytes (f : Nat) : Nat := fmtSize f 32

/-- The row stride R. -/
def rowStride (o : TileMem) : Nat := if o.rs == 0 then rowBytes o.fmt.toNat else o.rs.toNat

/-- Start of row `r` and of its MX scale byte. -/
def rowAddr (v : Pavilion) (o : TileMem) (k : CmdHdr) (iter r : Nat) : Nat :=
  advance k.laa (scalar v o.sa.toNat + o.off.toNat) (16 * rowStride o) iter + r * rowStride o
def scaleAddr (v : Pavilion) (o : TileMem) (k : CmdHdr) (iter r : Nat) : Nat :=
  let q := rowStride o / rowBytes o.fmt.toNat
  advance k.lab (scalar v o.sx.toNat) (16 * q) iter + r * q

/-- Rows with active elements, each with its number of them. -/
def activeRows (vl : Nat) : List (Nat × Nat) := (List.range ((vl + 31) / 32)).map (fun r => (r, min 32 (vl - 32 * r)))

/-- For MX formats the row stride is a multiple of a whole block row (R142). -/
def strideOk (o : TileMem) : Bool := !fmtMx o.fmt.toNat || rowStride o % rowBytes o.fmt.toNat == 0

/-- The SRAM ranges a TLD or TST touches. -/
def tileRanges (v : Pavilion) (o : TileMem) (k : CmdHdr) (iter vl : Nat) : List (Nat × Nat) :=
  (activeRows vl).flatMap (fun r =>
    (rowAddr v o k iter r.1, fmtSize o.fmt.toNat r.2) ::
      (if fmtMx o.fmt.toNat then [(scaleAddr v o k iter r.1, 1)] else []))

/-! ### Records (R147) -/

/-- Bytes of a record: 16 with an FP64 value or in COUNT mode, else 8. -/
def recordSize (f : Nat) (count : Bool) : Nat := if f == fFP64 || count then 16 else 8

/-- A record: index, count and value bits at the width of its format. -/
structure MRec where
  index : Nat
  count : Nat := 0
  val : Nat
deriving DecidableEq, Repr, Inhabited

/-- Read a record of a format; extension bits are ignored. -/
def readRecord (f : Nat) (bs : List Byte) : MRec :=
  if f == fFP64 then { index := numAt bs 0 4, count := numAt bs 4 4, val := numAt bs 8 8 }
  else { index := numAt bs 0 4, val := numAt bs 4 4 % 2 ^ fmtBits f }

/-- Read `n` records from an address. -/
def readRecords (v : Pavilion) (f a n : Nat) : List MRec :=
  (List.range n).map (fun i => readRecord f (sramRead v (a + i * recordSize f false) (recordSize f false)))

/-- Write a record; extension bits are written as zero. -/
def recordBytes (f : Nat) (count : Bool) (r : MRec) : List Byte :=
  if f == fFP64 || count then natLe 4 r.index ++ natLe 4 (if count then r.count else 0) ++ natLe 8 r.val
  else natLe 4 r.index ++ natLe 4 r.val

/-! ### Blocks in SRAM -/

/-- The drain block of Table 5.12. -/
structure DrainBlk where
  sca : Nat
  suma : Nat
  ebase : Nat
  tid : Nat
  div : Nat
  rsvd : Nat
deriving DecidableEq, Repr

def drainBlk (b : List Byte) : DrainBlk :=
  { div := numAt b 0 4, tid := numAt b 4 4, ebase := numAt b 8 8, suma := numAt b 16 4, sca := numAt b 20 4, rsvd := numAt b 24 8 }

/-- The MERGE parameter block of Table 5.14. -/
structure MergeBlk where
  src : Nat
  n : Nat
  dst : Nat
  k : Nat
  thr : Nat
  lo : Nat
  hi : Nat
  rsvd : Nat
deriving DecidableEq, Repr

def mergeBlk (b : List Byte) : MergeBlk :=
  { src := numAt b 0 4, n := numAt b 4 4, dst := numAt b 8 4, k := numAt b 12 4, thr := numAt b 16 8, lo := numAt b 24 4,
    hi := numAt b 28 4, rsvd := numAt b 36 28 }

/-- The Lattice parameter block of Table 5.15. -/
structure LatBlk where
  aaddr : Nat
  baddr : Nat
  daddr : Nat
  caddr : Nat
  ascale : Nat
  bscale : Nat
  pcaddr : Nat
  suma : Nat
  m : Nat
  n : Nat
  k : Nat
  astr : Nat
  bstr : Nat
  dstr : Nat
  tid : Nat
  ebase : Nat
deriving DecidableEq, Repr

def latBlk (b : List Byte) : LatBlk :=
  { aaddr := numAt b 0 4, baddr := numAt b 4 4, daddr := numAt b 8 4, caddr := numAt b 12 4, ascale := numAt b 16 4, bscale := numAt b 20 4,
    pcaddr := numAt b 24 4, suma := numAt b 28 4, m := numAt b 32 2, n := numAt b 34 2, k := numAt b 36 4, astr := numAt b 40 4,
    bstr := numAt b 44 4, dstr := numAt b 48 4, tid := numAt b 52 4, ebase := numAt b 56 8 }

/-- The MOVE descriptor of Table 5.17. -/
structure MoveBlk where
  src : Nat
  dst : Nat
  len : Nat
  rows : Nat
  sstr : Nat
  dstr : Nat
  rsvd : Nat
deriving DecidableEq, Repr

def moveBlk (b : List Byte) : MoveBlk :=
  { src := numAt b 0 8, dst := numAt b 8 8, len := numAt b 16 4, rows := numAt b 20 2, rsvd := numAt b 22 2, sstr := numAt b 24 4,
    dstr := numAt b 28 4 }

/-- An address word of Table 5.18. -/
inductive AddrWord where
  | own (a : Nat)
  | hbm (off : Nat)
  | other (rel a : Nat)
  | pool (h : U32) (off : Nat)
  | bad
deriving DecidableEq, Repr

/-- Decode an address word; reserved bits and spaces make it malformed. -/
def addrWord (w : Nat) : AddrWord :=
  match fieldN w 60 4 with
  | 0 => if fieldN w 22 38 = 0 then .own (fieldN w 0 22) else .bad
  | 1 => if fieldN w 38 22 = 0 then .hbm (fieldN w 0 38) else .bad
  | 2 => if fieldN w 56 4 = 0 ∧ fieldN w 22 26 = 0 then .other (fieldN w 48 8) (fieldN w 0 22) else .bad
  | 3 => if fieldN w 52 8 = 0 then .pool (BitVec.ofNat 32 (fieldN w 20 32)) (fieldN w 0 20) else .bad
  | _ => .bad

end Sys2Proof.Machine
end

