-- ==== Sys2Proof/Machine/HbmOps.lean ====
section
/-! DEFINITION. HBM as every unit reaches it: region translation (R272, R273), word atomicity (R279) and uncorrectable words (R280). -/

namespace Sys2Proof.Machine

/-! ### Regions -/

def regMask (r : U64) : BitVec 8 := r.extractLsb' 56 8
def regBase (r : U64) : Nat := field r 47 9
def regSize (r : U64) : Nat := field r 38 9

/-- The stacks of a region, ascending. -/
def regStacks (r : U64) : List Nat := bitsSet (regMask r) 8

/-- Bytes of a region. -/
def regBytes (r : U64) : Nat := (regStacks r).length * (regSize r * 2 ^ 26)

/-- Translate a region offset to a module address, or reject it (R273). -/
def regTranslate (r : U64) (o : Nat) : Option Nat :=
  let z := regSize r * 2 ^ 26
  if z = 0 ∨ regBytes r ≤ o then none
  else (regStacks r)[o / z]?.map (fun k => k * 2 ^ 35 + (regBase r * 2 ^ 26 + o % z) % 2 ^ 35)

/-- Every byte of a range of region offsets lies inside the region (R152, R273). -/
def regIn (r : U64) (o n : Nat) : Bool := n == 0 || decide (o + n ≤ regBytes r)

/-- The module addresses of a range of region offsets. -/
def regAddrs (r : U64) (o n : Nat) : List Nat := (List.range n).filterMap (fun i => regTranslate r (o + i))

/-- A module address lies in the reserved region (R271). -/
def inReserved (a : Nat) : Bool := decide (0x7F0000000 ≤ a % 2 ^ 35)

/-- The plot whose region holds a module address. -/
def plotOfAddr (s : State) (a : Nat) : Option Nat :=
  allPlots.find? (fun n =>
    let r := (plotAt s n).region
    (regStacks r).contains (a / 2 ^ 35) && decide (regBase r * 2 ^ 26 ≤ a % 2 ^ 35) &&
      decide (a % 2 ^ 35 < (regBase r + regSize r) * 2 ^ 26))

/-! ### Interleave (R275) -/

/-- The pseudo-channel of a byte address within a stack, of a slice whose plot has the interleave key `key` (R275). The bits taken are those of
the generator's 64-bit word (log entry 108). -/
def pseudoChannel (key : BitVec 128) (a : Nat) : Nat :=
  fieldN a 8 6 ^^^ field (genWord key 0 0 (fieldN a 14 21)) 0 6

/-- The pseudo-channel that serves a module address. -/
def channelOf (s : State) (a : Nat) : Nat :=
  match plotOfAddr s a with
  | some n => pseudoChannel (plotAt s n).ilvKey (a % 2 ^ 35)
  | none => (Config.otherChannel a).toNat

/-- The bytes of an access, cut at the 256-byte chunks of the interleave: the first address and the bytes of each piece. -/
def chunkPieces (o : HbmServed) : List (Nat × Nat) :=
  if o.bytes = 0 then []
  else (List.range ((o.addr + o.bytes - 1) / 256 - o.addr / 256 + 1)).map (fun i =>
    let c := 256 * (o.addr / 256 + i)
    let lo := max o.addr c
    (lo, min (o.addr + o.bytes) (c + 256) - lo))

/-! ### Accesses -/

/-- The address of the first byte that lies in an uncorrectable word. -/
def hbmBad (h : Hbm) (as : List Nat) : Option Nat := as.find? (fun a => h.badWords.contains (a / 32))

def hbmRead (h : Hbm) (as : List Nat) : List Byte := as.map (memRead h.mem)

/-- The words that a list of byte addresses covers whole: 32 bytes of it lie in them (R279). -/
def wholeWords (as : List Nat) : List Nat :=
  ((as.filter (fun a => a % 32 == 0)).map (· / 32)).filter (fun w => (List.range 32).all (fun i => as.contains (32 * w + i)))

/-- Write bytes at module addresses, but for the words in `skip`. -/
def hbmPut (skip : List Nat) : List Host.Cell → List (Nat × Byte) → List Host.Cell
  | m, [] => m
  | m, (a, b) :: r => hbmPut skip (if skip.contains (a / 32) then m else memWrite m a b) r

/-- A write to HBM: a whole-word write ends a word's error; a shorter write of a bad word changes nothing and is answered
(R279). -/
def hbmWrite (h : Hbm) (as : List Nat) (bs : List Byte) : Hbm × Option Nat :=
  let touched := h.badWords.filter (fun w => as.any (fun a => a / 32 == w))
  let whole := if touched.isEmpty then [] else wholeWords as
  let part := touched.filter (fun w => !whole.contains w)
  ({ h with mem := hbmPut part h.mem (as.zip bs), badWords := h.badWords.filter (fun w => !whole.contains w) }, part.head?.map (· * 32))

/-- An access meets an uncorrectable word: HBM_UNCORRECTED with its address, the stack's count and last error, and the hold of
the plot that owns the address; in the reserved region it is uncontained (Table 11.3). -/
def hbmUncorrected (s : State) (a : Nat) (consumed : Bool) : State :=
  let k := a / 2 ^ 35
  let owner := plotOfAddr s a
  let s := modStack s k (fun t => { t with uncorrected := t.uncorrected + 1, lastError := BitVec.ofNat 64 (2 ^ 56 + a) })
  let s := emit s rkHbmUncorrected (srcStack k) owner []
  if inReserved a then uncontained s
  else if consumed then containedHold s owner.toList hcMemory
  else s

/-- A corrected error: counted and reported (Table 11.3). -/
def hbmCorrectedAt (s : State) (a : Nat) : State :=
  let k := a / 2 ^ 35
  let s := modStack s k (fun t => { t with corrected := t.corrected + 1, lastError := BitVec.ofNat 64 a })
  emit s rkHbmCorrected (srcStack k) (plotOfAddr s a) []

/-- An error corrected on-die: counted with the corrected errors, without a record (Table 11.3). -/
def hbmOnDie (s : State) (a : Nat) : State := modStack s (a / 2 ^ 35) (fun t => { t with corrected := t.corrected + 1 })

/-- What SECDED finds in the HBM words of a command: words newly found uncorrectable (log entry 9). -/
def hbmUpset (s : State) (x : Upset) : State :=
  let s := match x.hbmCorrected with | some a => hbmCorrectedAt s a | none => s
  let s := match x.hbmOnDie with | some a => hbmOnDie s a | none => s
  if x.hbmBad.isEmpty then s else { s with hbm := { s.hbm with badWords := x.hbmBad.foldl addNew s.hbm.badWords } }

/-- What SECDED finds in port dies' buffer memory: words newly found uncorrectable (log entry 9). -/
def dieUpset (s : State) (x : Upset) : State :=
  x.dieBad.foldl (fun s e => modDie s e.1 (fun d => { d with badWords := addNew d.badWords e.2 })) s

/-- An uncorrectable word of a port die's SRAM: SRAM_UNCORRECTED, and the plots concerned hold; no pavilion is marked (Table 4.8). -/
def dieFault (s : State) (j : Nat) (ns : List Nat) : State := containedHold (emit s rkSramUncorrected (srcDie j) ns.head? []) ns hcPavilion

end Sys2Proof.Machine
end

