-- ==== Sys2Proof/Machine/Engine.lean ====
section
/-! DEFINITION. The engine as a queue: fetch with loop expansion (R133, R138, R140), the conditions under which the head issues (R130,
R131, R133, R139, R169–R171), the fault state (R154, R155), and completion with its signal (R132). An issued command's effects
are those of the command run alone in program order (R134): they are applied at issue. -/

namespace Sys2Proof.Machine

/-- The plot an engine works for. -/
def engPlot (s : State) (u : EngRef) : Option Nat := plotOfPav s u.pav

/-- The commands of an engine's active bank (R163). -/
def activeBank (e : Engine) : List (BitVec 128) := if e.active then e.bank1 else e.bank0
/-- The element-program store of the active bank (R104). -/
def activeStore (e : Engine) : List (BitVec 32) := if e.active then e.store1 else e.store0

/-- The engine may fetch and issue: it has a program, has not completed HALT and is not in the fault state. -/
def engAlive (e : Engine) : Bool :=
  e.program && !e.halted && e.mode != .fault && e.mode != .selftest && e.mode != .idle

/-- Expanded position of the head (R138, R169). -/
def headPos (e : Engine) : U64 := e.retired + BitVec.ofNat 64 e.inflight.length

/-- An armed breakpoint condition is met at the head (R169). -/
def breakMet (e : Engine) (q : QCmd) : Bool :=
  (e.breakEn.getLsbD 0 && e.breakCount == headPos e) ||
  (e.breakEn.getLsbD 1 && (q.cmd.hdr.tag &&& e.breakTag.extractLsb' 16 16) == (e.breakTag.extractLsb' 0 16 &&& e.breakTag.extractLsb' 16 16))

/-- The breakpoint stops the head: it does not while a resume lets it pass (R171). -/
def breakStops (e : Engine) (q : QCmd) : Bool := breakMet e q && !e.passBreak && e.stepsLeft.isNone

/-! ### Faults (R154, R155) -/

/-- The checks of Table 5.19 that a command can fail at issue, and the uncorrected errors of R127 and R280. -/
inductive Fail where
  | malformed
  | bounds
  | ownership
  | handle (h : U32)
  | sram (word : Nat)
  | remote (pav word : Nat)
  | die (j word : Nat)
  | parity
  | hbm (addr : Nat)
deriving DecidableEq, Repr

/-- The status a failed check puts into the fault word (Table 5.19; 0 for an uncorrected error, R155). -/
def Fail.status : Fail → U16
  | .malformed => stVerifyFail
  | .bounds => stVerifyFail
  | .ownership => stPlotViolation
  | .handle _ => stHandleInvalid
  | _ => stOk

/-- The fault word: retired count, TAG, status (Table 6.6). The count is that of the moment of the fault: commands still in flight then
are not in it (DESIGN CHOICE, log entry 97). -/
def faultWordOf (e : Engine) (tag : BitVec 16) (st : U16) : U64 := e.retired.extractLsb' 0 32 ++ tag ++ st

/-- The engine enters the fault state with its fault word (R155). -/
def engStop (s : State) (u : EngRef) (tag : BitVec 16) (st : U16) : State :=
  modEng s u (fun e => { e with mode := .fault, faultWord := faultWordOf e tag st, stepsLeft := none, passBreak := false })

/-- A command of an engine fails: fault state, record and hold (Table 5.19, Table 4.8, Table 11.3, Table 14.4). -/
def engFail (s : State) (u : EngRef) (tag : BitVec 16) (f : Fail) : State :=
  let s := engStop s u tag f.status
  let n := engPlot s u
  match f with
  | .malformed => containedHold (emit s rkEngineMalformed (srcPav u.pav) n []) n.toList hcEngine
  | .bounds => containedHold (emit s rkEngineBounds (srcPav u.pav) n []) n.toList hcEngine
  | .ownership =>
    let s := emit { s with gate := { s.gate with violations := s.gate.violations + 1 } } rkPlotViolation (srcPav u.pav) n []
    plainHold (containedHold s n.toList hcIsolation) n.toList hcEngine
  | .handle h => containedHold (emit s rkEngineHandle (srcPav u.pav) n [(32, h.toNat)]) n.toList hcEngine
  | .sram _ => plainHold (pavFault s rkSramUncorrected u.pav) n.toList hcEngine
  | .remote p _ => plainHold (pavFault s rkSramUncorrected p) n.toList hcEngine
  | .die j _ => plainHold (dieFault s j n.toList) n.toList hcEngine
  | .parity => plainHold (pavFault s rkQueueParity u.pav) n.toList hcEngine
  | .hbm a => plainHold (hbmUncorrected s a true) n.toList hcEngine

/-- What a command's execution comes to: its effect, or a failed check with what has already been written. -/
inductive Eff where
  | ok (s : State)
  | fail (f : Fail) (s : State)

/-- Go on unless a word was bad. -/
def Eff.ofWrite (u : EngRef) (s : State) (r : Pavilion × Option Nat) : Eff :=
  match r.2 with
  | none => .ok (setPav s u.pav r.1)
  | some w => .fail (.sram w) (setPav s u.pav r.1)

/-- A parity error in the command queue: the reader is the oldest issued command whose entry it corrupted, or the head when no issued
command is concerned. Commands issued before the reader complete, and those issued after it are discarded (R155). -/
def queueParity (s : State) (u : EngRef) (x : Upset) : State :=
  let e := engAt s u
  match x.issued.bind (fun k => (e.inflight[k]?).map (fun f => (k, f))) with
  | some (k, f) => modEng (engFail s u f.cmd.hdr.tag .parity) u (fun e => { e with inflight := e.inflight.take k })
  | none => engFail s u (match e.queue with | q :: _ => q.cmd.hdr.tag | [] => 0) .parity

/-! ### Fetch (R133, R138, R140) -/

/-- A command that writes scalar register `n`. -/
def writesScalar (n : BitVec 5) : EngOp → Bool
  | .sli d _ => d == n
  | .salu o => o.d == n
  | _ => false

/-- The index after the ENDLOOP that closes the loop open at `pc`, `depth` loops inside it being open. -/
def skipLoop (bank : List (BitVec 128)) : Nat → Nat → Nat → Nat
  | 0, pc, _ => pc
  | fuel + 1, pc, depth =>
    match bank[pc]? with
    | none => pc
    | some w =>
      if fld w 120 8 == 1 then skipLoop bank fuel (pc + 1) (depth + 1)
      else if fld w 120 8 == 2 then (if depth = 0 then pc + 1 else skipLoop bank fuel (pc + 1) (depth - 1))
      else skipLoop bank fuel (pc + 1) depth

/-- Iteration index of the innermost open loop (R136). -/
def curIter (e : Engine) : Nat := match e.loops with | l :: _ => l.i | [] => 0

/-- What one fetch does: it stalls, it finds no well-formed command, or the engine after it. -/
inductive Fetch where
  | stall
  | bad (tag : BitVec 16)
  | got (e : Engine)

/-- Fetch one command from the active bank (R129, R133, R138, R140). Running past the last command of the stream, past index
4,095, a fifth nested LOOP and an ENDLOOP with no LOOP end the engine like a malformed command. -/
def fetchOne (s : State) (u : EngRef) : Fetch :=
  let e := engAt s u
  if !engAlive e || decide (512 ≤ e.queue.length) then .stall
  else match (activeBank e)[e.fetchPc]? with
    | none => .bad 0
    | some w =>
      match decodeCmd u.eng w with
      | none => .bad (fld w 100 16)
      | some c =>
        let put (e : Engine) : Engine := { e with queue := e.queue ++ [{ cmd := c, iter := curIter e }] }
        match c.op with
        | .loop o =>
          if e.loops.length ≥ 4 then .bad c.hdr.tag
          else if o.cs && (e.queue.any (fun q => writesScalar o.sn q.cmd.op) || e.inflight.any (fun f => writesScalar o.sn f.cmd.op)) then .stall
          else
            let n := if o.cs then scalar (pavAt s u.pav) o.sn.toNat else o.count.toNat
            if n = 0 then (let e' := put e; .got { e' with fetchPc := skipLoop (activeBank e) 4096 (e.fetchPc + 1) 0 })
            else let e' := put e; .got { e' with fetchPc := e.fetchPc + 1, loops := ⟨e.fetchPc + 1, n, 0⟩ :: e.loops }
        | .endloop =>
          match e.loops with
          | [] => .bad c.hdr.tag
          | l :: ls =>
            if l.i + 1 < l.count then (let e' := put e; .got { e' with fetchPc := l.start, loops := LoopFrame.mk l.start l.count (l.i + 1) :: ls })
            else let e' := put e; .got { e' with fetchPc := e.fetchPc + 1, loops := ls }
        | .halt => let e' := put e; .got { e' with fetchPc := 4096 }
        | _ => let e' := put e; .got { e' with fetchPc := e.fetchPc + 1 }

/-- COMMAND_FETCH: an engine fetches one command into its queue. A malformed command is not issued: it ends the engine once
every command before it has issued (R129, R155). After HALT nothing more is fetched. A frame in which the queue was empty is not one in
which a head waited throughout (R184). -/
def execCommandFetch (u : EngRef) (x : Upset) (s : State) : Host.Outcome State Fault Refusal :=
  let e := engAt s u
  if x.parity && engAlive e then done (queueParity s u x)
  else if e.queue.any (fun q => q.cmd.op == .halt) || e.inflight.any (fun f => f.cmd.op == .halt) then done s
  else match fetchOne s u with
    | .stall => done s
    | .bad tag => if e.queue.isEmpty then done (engFail s u tag .malformed) else done s
    | .got e' =>
      let s' := setEng s u e'
      done (match e.queue, engPlot s u with | [], some n => moved s' n | _, _ => s')

/-! ### Issue (R130, R131, R133, R139) -/

/-- Some FRAME of the engine has not completed (R139). -/
def framePending (e : Engine) : Bool := e.inflight.any (fun f => match f.cmd.op with | .frame _ => true | _ => false)

/-- FRAME and HALT imply ORD (R139, R140). -/
def ordered (c : EngCmd) : Bool :=
  c.hdr.ord || (match c.op with | .frame _ => true | .halt => true | _ => false)

/-- The head may issue but for its wait (R133, R181, R333). -/
def headReady (s : State) (u : EngRef) (q : QCmd) : Bool :=
  let e := engAt s u
  engAlive e && e.mode != .frozen && (match engPlot s u with | some n => plotRuns s n | none => false) &&
    !(ordered q.cmd && !e.inflight.isEmpty) && !framePending e && decide (e.inflight.length < 16) && !breakStops e q

/-- The head's wait holds (R130). -/
def headWait (s : State) (u : EngRef) (k : CmdHdr) : Bool := !k.w || waitHolds (ctrAt s u.pav k.wctr.toNat) k.wthr.toNat

/-- A satisfied wait with WDEC subtracts WTHR (R131 step 3). -/
def consumeWait (s : State) (u : EngRef) (k : CmdHdr) : State :=
  if k.w && k.wdec then
    let c := ctrAt s u.pav k.wctr.toNat
    setCtr s u.pav k.wctr.toNat { c with value := c.value - BitVec.setWidth 16 k.wthr }
  else s

/-- The head has issued: it leaves the queue and is in flight; a resume for k commands counts it (R171). -/
def headIssued (s : State) (u : EngRef) (q : QCmd) (sig : SigState) : State :=
  let s := modEng s u (fun e =>
    let e := { e with queue := e.queue.tail, inflight := e.inflight ++ [Flight.mk q.cmd sig e.nsig], mode := .running, passBreak := false }
    match e.stepsLeft with
    | none => e
    | some k => if k ≤ 1 then { e with stepsLeft := none, mode := .frozen } else { e with stepsLeft := some (k - 1) })
  match engPlot s u with
  | some n => moved s n
  | none => s

/-- What SECDED and parity find in the words that a command touches (R127): words newly found uncorrectable, and corrections
reported (log entry 9). -/
def pavUpset (s : State) (u : EngRef) (x : Upset) : State :=
  let s := dieUpset (hbmUpset s x) x
  let s := if x.corrected then pavCorrected s u.pav else s
  if x.badWords.isEmpty then s else modPav s u.pav (fun v => { v with badWords := x.badWords.foldl addNew v.badWords })

/-- The row of a command: when it is the head of the engine's queue and may issue, it takes its effect `f` and is in flight
(R133, R134); a wait that does not hold leaves it waiting at the head; one that holds is consumed before anything else (R131), and then a
failed check ends the engine (R155). In every other
case the event does not occur and nothing changes (log entry 2). -/
def issueCmd (u : EngRef) (x : Upset) (c : EngCmd) (sig : SigState) (f : Nat → State → Eff) (s : State) : State :=
  match (engAt s u).queue with
  | [] => s
  | q :: _ =>
    if q.cmd ≠ c ∨ headReady s u q = false then s
    else if x.parity then queueParity s u x
    else if headWait s u c.hdr = false then modEng s u (fun e => { e with mode := if e.mode == .gated then .gated else .waiting })
    else
      let s := pavUpset (consumeWait s u c.hdr) u x
      if x.array then engFail s u c.hdr.tag (.sram 0)
      else match f q.iter s with
        | .fail r s' => engFail s' u c.hdr.tag r
        | .ok s' => headIssued s' u q sig

/-- The meaning of a command's row from its operation and its effect. -/
def issueOp (u : EngRef) (x : Upset) (k : CmdHdr) (op : EngOp) (f : Nat → State → Eff) (s : State) : Host.Outcome State Fault Refusal :=
  done (issueCmd u x ⟨k, op⟩ .notSent f s)

/-! ### Clock gating and breakpoints -/

/-- HEAD_CLOCK_GATE: a head whose wait has not held for 16 cycles is clock-gated and 0x5000:06 shows state 3, whatever else keeps it from
issuing (R179). -/
def execHeadClockGate (u : EngRef) (s : State) : Host.Outcome State Fault Refusal :=
  match (engAt s u).queue with
  | [] => done s
  | q :: _ =>
    let e := engAt s u
    if engAlive e && e.mode != .frozen && !headWait s u q.cmd.hdr then done (modEng s u (fun e => { e with mode := .gated })) else done s

/-- BREAK_HIT: an armed condition met at the head freezes the engine (R170). -/
def execBreakHit (u : EngRef) (s : State) : Host.Outcome State Fault Refusal :=
  let e := engAt s u
  match e.queue with
  | [] => done s
  | q :: _ =>
    if engAlive e && e.mode != .frozen && breakStops e q then
      let s := modEng s u (fun e => { e with mode := .frozen })
      let s := match engPlot s u with | some n => moved s n | none => s
      done (emit s rkBreakHit (srcPav u.pav) (engPlot s u) [(4, u.eng), (16, q.cmd.hdr.tag.toNat), (64, e.retired.toNat)])
    else done s

/-! ### Completion (R132, R139, R140, R155) -/

/-- The frame of the plot's program now running: ticks since the start frame (R139). -/
def programFrame (s : State) (n : Nat) : Nat := (s.sd.ticks - (plotAt s n).startFrame).toNat

/-- The oldest command in flight may complete: a FRAME at the end of the guard band of frame pf, an MSIG once its signal has
arrived (R139, R153). -/
def flightReady (s : State) (u : EngRef) (f : Flight) : Bool :=
  match f.cmd.op with
  | .frame _ => match engPlot s u with
    | some n => decide ((engAt s u).pf ≤ programFrame s n)
    | none => true
  | .msig _ => f.sig != .onTheWay
  | _ => true

/-- COMMAND_TRACE carries TAG, status and retired count (Table 5.2). -/
def traceCmd (s : State) (u : EngRef) (c : EngCmd) (st : U16) : State :=
  if c.hdr.trc then
    emit s rkCommandTrace (srcPav u.pav) (engPlot s u) [(16, c.hdr.tag.toNat), (16, st.toNat), (64, (engAt s u).retired.toNat)]
  else s

/-- A transfer or a remote signal: a frame in which one was pending does not qualify (R184). -/
def transfers (c : EngCmd) : Bool := match c.op with | .mcopy _ => true | .msig _ => true | _ => false

/-- COMMAND_COMPLETE: the oldest command in flight completes in program order, retires and signals (R132, R133). An MSIG whose
signal was dropped ends with POISONED: its engine enters the fault state and the commands issued after it are discarded
without signalling (R155, R183). -/
def execCommandComplete (u : EngRef) (s : State) : Host.Outcome State Fault Refusal :=
  match (engAt s u).inflight with
  | [] => done s
  | f :: rest =>
    if !flightReady s u f then done s
    else
      let c := f.cmd
      let n := engPlot s u
      if f.sig == .dropped then
        let s := modEng s u (fun e => { e with inflight := [] })
        done (containedHold (traceCmd (engStop s u c.hdr.tag stPoisoned) u c stPoisoned) n.toList hcEngine)
      else
        let s := modEng s u (fun e => { e with inflight := rest, retired := e.retired + 1 })
        let s := match n with | some n => if transfers c then moved s n else s | none => s
        let (s, own) := if c.hdr.s then signalPav s u.pav c.hdr.sctr.toNat [(c.hdr.sinc.toNat, ⟨0, u.eng⟩)] else (s, .applied)
        let st := if own == .saturated || f.sig == .saturated then stCtrSaturated else stOk
        let s := traceCmd s u c st
        if c.op == .halt then done (modEng s u (fun e => { e with halted := true, mode := .idle })) else done s

end Sys2Proof.Machine
end

