-- ==== Sys2Proof/Machine/Tile.lean ====
section
/-! DEFINITION. The TILE engine (R100–R104, R141–R145): vector length, scalars, tile loads and stores, summaries and element
programs. -/

namespace Sys2Proof.Machine

def setScalar (v : Pavilion) (n x : Nat) : Pavilion := { v with scalars := tblSet v.scalars n (BitVec.ofNat 32 x) }

/-! ### VL and scalars -/

/-- SETVL: VL ← [9:0]; 513 to 1,023 are refused (Table 5.4). -/
def effSetvl (u : EngRef) (n : BitVec 10) (_ : Nat) (s : State) : Eff :=
  if 512 < n.toNat then .fail .malformed s else .ok (modPav s u.pav (fun v => { v with vl := n.toNat }))

def execSetvl (u : EngRef) (x : Upset) (k : CmdHdr) (n : BitVec 10) (s : State) : Host.Outcome State Fault Refusal :=
  issueOp u x k (.setvl n) (effSetvl u n) s

/-- SETVLS: VL ← min(S[n], 512) (R101). -/
def execSetvls (u : EngRef) (x : Upset) (k : CmdHdr) (sn : BitVec 5) (s : State) : Host.Outcome State Fault Refusal :=
  issueOp u x k (.setvls sn) (fun _ s => .ok (modPav s u.pav (fun v => { v with vl := min (scalar v sn.toNat) 512 }))) s

/-- SLI: S[d] ← imm. -/
def execSli (u : EngRef) (x : Upset) (k : CmdHdr) (d : BitVec 5) (imm : BitVec 32) (s : State) : Host.Outcome State Fault Refusal :=
  issueOp u x k (.sli d imm) (fun _ s => .ok (modPav s u.pav (fun v => setScalar v d.toNat imm.toNat))) s

/-- The scalar operations of Table 5.9, modulo 2^32. -/
def saluOp (op a b : Nat) : Option Nat :=
  match op with
  | 0x0 => some ((a + b) % 2 ^ 32)
  | 0x1 => some ((a + 2 ^ 32 - b) % 2 ^ 32)
  | 0x2 => some (and32 a b)
  | 0x3 => some (or32 a b)
  | 0x4 => some (xor32 a b)
  | 0x5 => some (shl32 a b)
  | 0x6 => some (shr32 a b)
  | 0x7 => some (min a b)
  | 0x8 => some (max a b)
  | 0x9 => some (a * b % 2 ^ 32)
  | 0xA => some (a - b)
  | _ => none

/-- SALU: S[d] ← S[a] op S[b], or S[a] op the sign-extended immediate (R145). -/
def effSalu (u : EngRef) (o : SaluOps) (_ : Nat) (s : State) : Eff :=
  let v := pavAt s u.pav
  let b := if o.i then (o.imm.signExtend 32).toNat else scalar v o.b.toNat
  match saluOp o.op.toNat (scalar v o.a.toNat) b with
  | none => .fail .malformed s
  | some r => .ok (setPav s u.pav (setScalar v o.d.toNat r))

def execSalu (u : EngRef) (x : Upset) (k : CmdHdr) (o : SaluOps) (s : State) : Host.Outcome State Fault Refusal :=
  issueOp u x k (.salu o) (effSalu u o) s

/-! ### Loads (R85, R142) -/

def tileGet (v : Pavilion) (t e : Nat) : TVal := tblGet {} v.tiles (512 * t + e)
def tileSet (v : Pavilion) (t e : Nat) (x : TVal) : Pavilion := { v with tiles := tblSet v.tiles (512 * t + e) x }

/-- A memory element as a tile element: FP32 unchanged, integers sign-extended, every other format widened exactly, NaN made
canonical (R85). Log entry 15: what the origin marks of R143 follow. -/
def widen (f scale bits : Nat) : TVal :=
  let x := decodeElem f scale bits
  if f == fFP32 then { bits := BitVec.ofNat 32 bits, fromNan := x.isNan, fromInf := x.isInf }
  else if fmtInt f then { bits := BitVec.ofNat 32 (toN 32 (signedN (fmtBits f) bits)) }
  else { bits := BitVec.ofNat 32 (rne fFP32 x.toRes), fromNan := x.isNan, fromInf := x.isInf }

/-- One row loaded. -/
def loadRow (o : TileMem) (k : CmdHdr) (iter : Nat) (v : Pavilion) (r : Nat × Nat) : Pavilion :=
  let f := o.fmt.toNat
  let bs := sramRead v (rowAddr v o k iter r.1) (fmtSize f r.2)
  let sc := if fmtMx f then (memRead v.sram (scaleAddr v o k iter r.1)).toNat else 0
  (List.range r.2).foldl (fun w e => tileSet w o.t.toNat (32 * r.1 + e) (widen f sc (elemAt f bs e))) v

/-- TLD: load the active elements; with VL 0 nothing is accessed (R101). -/
def effTld (u : EngRef) (k : CmdHdr) (o : TileMem) (iter : Nat) (s : State) : Eff :=
  let v := pavAt s u.pav
  let rs := tileRanges v o k iter v.vl
  if !fmtValid o.fmt.toNat || o.fmt.toNat == fFP64 || !strideOk o then .fail .malformed s
  else if !rs.all (fun r => sramIn r.1 r.2) then .fail .bounds s
  else match sramBads v rs with
    | some w => .fail (.sram w) s
    | none => .ok (setPav s u.pav ((activeRows v.vl).foldl (loadRow o k iter) v))

def execTld (u : EngRef) (x : Upset) (k : CmdHdr) (o : TileMem) (s : State) : Host.Outcome State Fault Refusal :=
  issueOp u x k (.tld o) (effTld u k o) s

/-! ### Stores (R85, R143) -/

/-- The origin of a tile element's result (R143). -/
def tileOrigin (t : TVal) : Origin :=
  match dec32 t.bits.toNat with
  | .nan => if t.fromNan then .nanIn else .nanGen
  | .inf _ => if t.fromInf then .infIn else .plain
  | _ => .plain

/-- The rounding generator of a store or drain for its plot (R79, R80). -/
def plotGen (s : State) (u : EngRef) (tid : Nat) (i : Nat) : Nat :=
  match engPlot s u with
  | some n => genBits (plotAt s n).seed (plotAt s n).stepLatched (BitVec.ofNat 32 tid) i
  | none => 0

/-- The step latched at the tick that began the frame (R80). -/
def plotStep (s : State) (u : EngRef) : U64 := match engPlot s u with | some n => (plotAt s n).stepLatched | none => 0

/-- One row of a store: what each element counted, and the writes. A store in FP32 keeps the format and so every bit pattern,
NaN payloads included (R58). -/
def storeRow (o : TileMem) (k : CmdHdr) (iter : Nat) (gen : Nat → Nat) (base : Nat) (v : Pavilion) (y : Summary) (r : Nat × Nat) :
    Summary × List (Nat × List Byte) :=
  let f := o.fmt.toNat
  let mode := o.rm.toNat
  let ts := (List.range r.2).map (fun e => tileGet v o.t.toNat (32 * r.1 + e))
  let a := rowAddr v o k iter r.1
  if fmtInt f then
    let ws := ts.map (fun t => writeInt f 1 0 (resOfInt false (s32 t.bits.toNat) 0))
    (ws.foldl (fun y w => countElem y .plain { w with udf := false }) y, [(a, packElems f (ws.map (·.bits)))])
  else
    let xs := (List.range r.2).zip ts |>.map (fun p =>
      ((dec32 p.2.bits.toNat).toRes, if mode == 3 then gen (base + 32 * r.1 + p.1) else 0))
    let (ws, eb, sb) := writeTensor f mode xs
    let ws := ts.zip ws |>.map (fun p => if (dec32 p.1.bits.toNat).isInf && !p.2.sat then { p.2 with ovf := true } else p.2)
    ((ts.zip ws).foldl (fun y p => countElem y (tileOrigin p.1) p.2) y,
      (a, if f == fFP32 then packElems f (ts.map (·.bits.toNat)) else eb) :: (if fmtMx f then [(scaleAddr v o k iter r.1, sb)] else []))

/-- TST: store the active elements, their counts added into summary accumulator Y; with VL 0 Y is untouched (R101, R143). -/
def effTst (u : EngRef) (k : CmdHdr) (o : TileMem) (iter : Nat) (s : State) : Eff :=
  let v := pavAt s u.pav
  let rs := tileRanges v o k iter v.vl
  if !fmtValid o.fmt.toNat || !strideOk o then .fail .malformed s
  else if !rs.all (fun r => sramIn r.1 r.2) then .fail .bounds s
  else if v.vl = 0 then .ok s
  else
    let tid := scalar v o.si.toNat
    let base := scalar v (o.si.toNat + 1) + 2 ^ 32 * scalar v (o.si.toNat + 2)
    let y0 := tblGet {} v.sums o.y.toNat
    let y1 := if y0.taken then y0 else { y0 with taken := true, tid := BitVec.ofNat 32 tid, step := plotStep s u, fmt := o.fmt }
    let (y2, ws) := (activeRows v.vl).foldl (fun (p : Summary × List (Nat × List Byte)) r =>
      let (y, w) := storeRow o k iter (plotGen s u tid) base v p.1 r
      (y, p.2 ++ w)) (y1, [])
    Eff.ofWrite u s (sramWrites { v with sums := tblSet v.sums o.y.toNat y2 } ws)

def execTst (u : EngRef) (x : Upset) (k : CmdHdr) (o : TileMem) (s : State) : Host.Outcome State Fault Refusal :=
  issueOp u x k (.tst o) (effTst u k o) s

/-- TSUM: write summary accumulator Y to a 64-byte-aligned address and clear it (R97, R143). -/
def effTsum (u : EngRef) (k : CmdHdr) (o : TileMem) (iter : Nat) (s : State) : Eff :=
  let v := pavAt s u.pav
  let a := advance k.laa (scalar v o.sa.toNat + o.off.toNat) 64 iter
  if a % 64 ≠ 0 ∨ sramIn a 64 = false then .fail .bounds s
  else Eff.ofWrite u s (sramWrite { v with sums := tblSet v.sums o.y.toNat {} } a (summaryBytes (tblGet {} v.sums o.y.toNat)))

def execTsum (u : EngRef) (x : Upset) (k : CmdHdr) (o : TileMem) (s : State) : Host.Outcome State Fault Refusal :=
  issueOp u x k (.tsum o) (effTsum u k o) s

/-! ### Element programs (R102, R103, R144) -/

/-- Operands a micro-operation takes, or none for a reserved code (Table 5.7). -/
def uopArity (op : Nat) : Option Nat :=
  if op = 0x00 ∨ op = 0x07 ∨ (0x0A ≤ op ∧ op ≤ 0x0E) ∨ op = 0x14 ∨ op = 0x15 ∨ op = 0x2C ∨ op = 0x2D then some 1
  else if (0x01 ≤ op ∧ op ≤ 0x03) ∨ op = 0x06 ∨ op = 0x08 ∨ op = 0x09 ∨ (0x10 ≤ op ∧ op ≤ 0x12) ∨ (0x18 ≤ op ∧ op ≤ 0x22) ∨ op = 0x28 ∨
    op = 0x29 ∨ op = 0x2B then some 2
  else if op = 0x04 ∨ op = 0x05 ∨ op = 0x13 ∨ op = 0x2A then some 3
  else none

/-- The result of a micro-operation on bit patterns (Table 5.7). -/
def uopEval (op a b c : Nat) : Nat :=
  match op with
  | 0x00 => a
  | 0x01 => f32Add a b
  | 0x02 => f32Sub a b
  | 0x03 => f32Mul a b
  | 0x04 => f32Fma a b c
  | 0x05 => f32Fnma a b c
  | 0x06 => f32Div a b
  | 0x07 => f32Sqrt a
  | 0x08 => f32Min a b
  | 0x09 => f32Max a b
  | 0x0A => f32Abs a
  | 0x0B => f32Neg a
  | 0x0C => f32Exp a
  | 0x0D => f32Log a
  | 0x0E => f32Rsqrt a
  | 0x10 => f32Clt a b
  | 0x11 => f32Cle a b
  | 0x12 => f32Ceq a b
  | 0x13 => if c = 0 then b else a
  | 0x14 => cvtIf a
  | 0x15 => cvtFi a
  | 0x18 => w32 (s32 a + s32 b)
  | 0x19 => w32 (s32 a - s32 b)
  | 0x1A => w32 (s32 a * s32 b)
  | 0x1B => and32 a b
  | 0x1C => or32 a b
  | 0x1D => xor32 a b
  | 0x1E => shl32 a b
  | 0x1F => shr32 a b
  | 0x20 => sar32 a b
  | 0x21 => w32 (min (s32 a) (s32 b))
  | 0x22 => w32 (max (s32 a) (s32 b))
  | 0x28 => padd a b
  | 0x29 => pmul a b
  | 0x2A => pfma a b c
  | 0x2B => pcvt a b
  | 0x2C => unp (lo16 a)
  | 0x2D => unp (hi16 a)
  | _ => 0

/-- A micro-operation word (R144). -/
structure Uop where
  op : Nat
  d : Nat
  a : Nat
  b : Nat
  c : Nat
  rsv : Nat
deriving DecidableEq, Repr

def uopOf (w : BitVec 32) : Uop :=
  { op := field w 26 6, d := field w 20 6, a := field w 14 6, b := field w 8 6, c := field w 2 6, rsv := field w 0 2 }

/-- The operand codes a micro-operation uses. -/
def Uop.uses (q : Uop) : List Nat := [q.a, q.b, q.c].take ((uopArity q.op).getD 0)

def execSels (o : ExecOps) : List BSel := [o.b0, o.b1, o.b2, o.b3]

/-- A micro-operation of the program is allowed (R144). -/
def uopOk (o : ExecOps) (q : Uop) : Bool :=
  (uopArity q.op).isSome && q.rsv == 0 && decide (q.d ≤ 39) &&
  q.uses.all (fun c => decide (c ≤ 47) && (!(decide (40 ≤ c) && decide (c ≤ 43)) || ((execSels o).getD (c - 40) default).kind != 0)) &&
  ([q.a, q.b, q.c].drop (q.uses.length)).all (fun c => c == 0)

/-- A selector is well formed: row index at most 15, a scalar's index 0 (R144, Table 5.6). -/
def selOk (b : BSel) : Bool :=
  match b.kind.toNat with
  | 1 => decide (b.idx.toNat ≤ 15)
  | 3 => b.idx == 0
  | _ => true

/-- Distinct numbers of a list. -/
def distinct (l : List Nat) : List Nat := l.foldl addNew []

/-- The program keeps the limits of R103 and R144: 1 to 64 micro-operations, at most 8 tiles read and 4 written. -/
def programOk (o : ExecOps) (p : List Uop) : Bool :=
  decide (1 ≤ o.epl.toNat) && decide (o.epl.toNat ≤ 64) && p.length == o.epl.toNat && decide (o.epa.toNat * 8 + o.epl.toNat ≤ 2048) && p.all (uopOk o) && (execSels o).all selOk &&
  decide ((distinct (p.flatMap (fun q => q.uses.filter (fun c => decide (c < 32))))).length ≤ 8) &&
  decide ((distinct ((p.map (·.d)).filter (fun c => decide (c < 32)))).length ≤ 4)

/-- A broadcast operand for element `e`, latched when the program starts (R102). -/
def broadcast (v : Pavilion) (b : BSel) (e : Nat) : TVal :=
  match b.kind.toNat with
  | 1 => tileGet v b.reg.toNat (32 * b.idx.toNat + e % 32)
  | 2 => tileGet v b.reg.toNat (32 * (e / 32) + b.idx.toNat)
  | 3 => { bits := BitVec.ofNat 32 (scalar v b.reg.toNat) }
  | _ => {}

/-- An operand by its code, after the writes of earlier micro-operations on the element (R103, R144). -/
def operand (v : Pavilion) (o : ExecOps) (e : Nat) (env : Tbl TVal) (c : Nat) : TVal :=
  if c < 32 then tblGet (tileGet v c e) env c
  else if c < 40 then tblGet {} env c
  else if c < 44 then broadcast v ((execSels o).getD (c - 40) default) e
  else match c with
    | 45 => { bits := 0x3F800000 }
    | 46 => { bits := 0x3F000000 }
    | 47 => { bits := 0xFFFFFFFF }
    | _ => {}

/-- One micro-operation on one element. The origin marks are those of the operands used, for SEL those of the element taken
(R143; log entry 15). -/
def uopStep (v : Pavilion) (o : ExecOps) (e : Nat) (env : Tbl TVal) (q : Uop) : Tbl TVal :=
  let a := operand v o e env q.a
  let b := operand v o e env q.b
  let c := operand v o e env q.c
  let used := if q.op = 0x13 then [if c.bits == 0 then b else a] else ([a, b, c].take ((uopArity q.op).getD 0))
  tblSet env q.d { bits := BitVec.ofNat 32 (uopEval q.op a.bits.toNat b.bits.toNat c.bits.toNat), fromNan := used.any (·.fromNan),
                   fromInf := used.any (·.fromInf) }

/-- The program run on one element: the values it leaves in tiles and temporaries. -/
def runElem (v : Pavilion) (o : ExecOps) (p : List Uop) (e : Nat) : Tbl TVal := p.foldl (uopStep v o e) []

/-- The program an EXEC names in a store of 2,048 words; those that the image did not give are 0 (R104; log entry 103). -/
def storeProgram (store : List (BitVec 32)) (o : ExecOps) : List Uop :=
  (List.range o.epl.toNat).map (fun k => uopOf (store.getD (o.epa.toNat * 8 + k) 0))

/-- EXEC: run an element program on every active element; no element reads another but through broadcasts (R103). -/
def effExec (u : EngRef) (o : ExecOps) (_ : Nat) (s : State) : Eff :=
  let v := pavAt s u.pav
  let p := storeProgram (activeStore (engAt s u)) o
  if !programOk o p then .fail .malformed s
  else .ok (setPav s u.pav ((List.range v.vl).foldl (fun w e =>
    ((runElem v o p e).filter (fun d => decide (d.1 < 32))).foldl (fun w d => tileSet w d.1 e d.2) w) v))

def execExecProg (u : EngRef) (x : Upset) (k : CmdHdr) (o : ExecOps) (s : State) : Host.Outcome State Fault Refusal :=
  issueOp u x k (.exec o) (effExec u o) s

end Sys2Proof.Machine
end

