-- ==== Sys2Proof/Machine/Accum.lean ====
section
/-! DEFINITION. The ACCUM engine (R105–R108, R146, R147): exact accumulation in slots and the drain that rounds them once. -/

namespace Sys2Proof.Machine

def slotAt (v : Pavilion) (j : Nat) : Slot := tblGet {} v.slots j
def setSlot (v : Pavilion) (j : Nat) (t : Slot) : Pavilion := { v with slots := tblSet v.slots j t }

/-- The slots of a range (R106). -/
def slotRange (slot n : Nat) : List Nat := (List.range n).map (slot + ·)

/-- Settings that AMODE may give (Table 3.2, R66, R68, R146). -/
def modeOk (o : AmodeOps) : Bool :=
  let f := o.fmt.toNat
  let b := o.b.toInt
  fmtValid f && !(o.sq && fmtInt f) &&
  (if o.mode then decide (-1074 ≤ b) && decide (b ≤ 417) && (f == fFP64 || (o.sq && b == -298)) else f != fFP64 && !o.sq && b == 0)

/-- AMODE: set the mode, format and SQ of N slots, and clear them; at most 32 slots are XA640w (R105, R146). -/
def effAmode (u : EngRef) (o : AmodeOps) (_ : Nat) (s : State) : Eff :=
  let v := pavAt s u.pav
  let w := (slotRange o.slot.toNat o.n.toNat).foldl (fun w j => setSlot w j (slotMode o.mode o.fmt o.sq o.b.toInt)) v
  if !modeOk o then .fail .malformed s
  else if 1024 < o.slot.toNat + o.n.toNat then .fail .bounds s
  else if 32 < (w.slots.filter (fun t => t.2.wide)).length then .fail .malformed s
  else .ok (setPav s u.pav w)

def execAmode (u : EngRef) (x : Upset) (k : CmdHdr) (o : AmodeOps) (s : State) : Host.Outcome State Fault Refusal :=
  issueOp u x k (.amode o) (effAmode u o) s

/-- ACLR: clear N slots, keeping their settings (R146). -/
def effAclr (u : EngRef) (o : AclrOps) (_ : Nat) (s : State) : Eff :=
  if 1024 < o.slot.toNat + o.n.toNat then .fail .bounds s
  else .ok (modPav s u.pav (fun v => (slotRange o.slot.toNat o.n.toNat).foldl (fun w j => setSlot w j (slotClear (slotAt w j))) v))

def execAclr (u : EngRef) (x : Upset) (k : CmdHdr) (o : AclrOps) (s : State) : Host.Outcome State Fault Refusal :=
  issueOp u x k (.aclr o) (effAclr u o) s

/-- The slot takes a contribution of this format and squares flag (R61, R146). -/
def slotTakes (t : Slot) (fmt : BitVec 4) (sq : Bool) : Bool := t.fmt == some fmt && t.sq == sq

/-- Contributions, each to its slot, in order (R26, R106), and the slots of those that the limit turned away (R64). -/
def addAll (v : Pavilion) (cs : List (Nat × Num)) : Pavilion × List Nat :=
  cs.foldl (fun w c =>
    let t := slotAt w.1 c.1
    (setSlot w.1 c.1 (slotAdd t c.2), if slotTurnsAway t 1 then w.2 ++ [c.1] else w.2)) (v, [])

/-- Each contribution that a slot's limit turned away: ACC_LIMIT with the slot, and the hold for ARITH (R64). -/
def reportLimits (s : State) (src : Src) (n : Option Nat) (js : List Nat) : State :=
  js.foldl (fun s j =>
    containedHold (emit { s with ar := { s.ar with limits := s.ar.limits + 1 } } rkAccLimit src n [(10, j)]) n.toList hcArith) s

/-- The effect of contributions that have passed their checks. -/
def contribute (u : EngRef) (s : State) (cs : List (Nat × Num)) : State :=
  let w := addAll (pavAt s u.pav) cs
  reportLimits (setPav s u.pav w.1) (srcPav u.pav) (engPlot s u) w.2

/-- ADDD: N elements into N consecutive slots (R106, Table 5.11). -/
def effAddd (u : EngRef) (k : CmdHdr) (o : AdddOps) (iter : Nat) (s : State) : Eff :=
  let v := pavAt s u.pav
  let f := o.fmt.toNat
  let n := o.n.toNat
  let size := fmtSize f n
  let a := advance k.laa o.src.toNat size iter
  let sa := advance k.laa (o.src.toNat + o.scoff.toNat) (n / 32) iter
  let ns := if fmtMx f then (n + 31) / 32 else 0
  let js := slotRange o.slot.toNat n
  if !fmtValid f || (fmtMx f && k.laa && n % 32 != 0) then .fail .malformed s
  else if 1024 < o.slot.toNat + n ∨ sramIn a size = false ∨ sramIn sa ns = false then .fail .bounds s
  else if !js.all (fun j => slotTakes (slotAt v j) o.fmt o.sq) then .fail .malformed s
  else match sramBads v [(a, size), (sa, ns)] with
    | some w => .fail (.sram w) s
    | none => .ok (contribute u s (js.zip (decodeArr f n (sramRead v a size) (sramRead v sa ns))))

def execAddd (u : EngRef) (x : Upset) (k : CmdHdr) (o : AdddOps) (s : State) : Host.Outcome State Fault Refusal :=
  issueOp u x k (.addd o) (effAddd u k o) s

/-- A slot named by an index: SLOT + index − IB × 1,024, inside 0 to 1,023 (Table 5.11). -/
def indexedSlot (slot index ib : Nat) : Option Nat :=
  let j : Int := (slot : Int) + index - ib * 1024
  if 0 ≤ j ∧ j < 1024 then some j.toNat else none

/-- ADDI: N records into indexed slots (R106, R147). -/
def effAddi (u : EngRef) (k : CmdHdr) (o : AddiOps) (iter : Nat) (s : State) : Eff :=
  let v := pavAt s u.pav
  let f := o.fmt.toNat
  let size := o.n.toNat * recordSize f false
  let a := advance k.laa o.src.toNat size iter
  if !fmtValid f || fmtMx f then .fail .malformed s
  else if !sramIn a size then .fail .bounds s
  else match sramBad v a size with
    | some w => .fail (.sram w) s
    | none =>
      let rs := readRecords v f a o.n.toNat
      let js := rs.map (fun r => indexedSlot o.slot.toNat r.index o.ib.toNat)
      if !js.all Option.isSome then .fail .bounds s
      else
        let js := js.filterMap id
        if !js.all (fun j => slotTakes (slotAt v j) o.fmt o.sq) then .fail .malformed s
        else .ok (contribute u s (js.zip (rs.map (fun r => decodeElem f 0 r.val))))

def execAddi (u : EngRef) (x : Upset) (k : CmdHdr) (o : AddiOps) (s : State) : Host.Outcome State Fault Refusal :=
  issueOp u x k (.addi o) (effAddi u k o) s

/-- Carry records, each to its slot, in order (R107), and the slots of those that the limit turned away (R64). -/
def carryAll (v : Pavilion) (cs : List (Nat × Carry)) : Pavilion × List Nat :=
  cs.foldl (fun w c =>
    let t := slotAt w.1 c.1
    (setSlot w.1 c.1 (slotCarry t c.2), if slotTurnsAway t c.2.count then w.2 ++ [c.1] else w.2)) (v, [])

/-- ACARRY: N carry records into XA320 slots of their format (R107). -/
def effAcarry (u : EngRef) (k : CmdHdr) (o : AcarryOps) (iter : Nat) (s : State) : Eff :=
  let v := pavAt s u.pav
  let size := o.n.toNat * 48
  let a := advance k.laa o.src.toNat size iter
  if !sramIn a size then .fail .bounds s
  else match sramBad v a size with
    | some w => .fail (.sram w) s
    | none =>
      let cs := (List.range o.n.toNat).map (fun i => carryOf (leNat (sramRead v (a + 48 * i) 48)))
      let js := cs.map (fun c => indexedSlot o.slot.toNat c.index o.ib.toNat)
      if !js.all Option.isSome then .fail .bounds s
      else
        let js := js.filterMap id
        if !(js.zip cs).all (fun p => slotTakes (slotAt v p.1) (BitVec.ofNat 4 p.2.fmt) false && !(slotAt v p.1).wide) then .fail .malformed s
        else
          let w := carryAll v (js.zip cs)
          .ok (reportLimits (setPav s u.pav w.1) (srcPav u.pav) (engPlot s u) w.2)

def execAcarry (u : EngRef) (x : Upset) (k : CmdHdr) (o : AcarryOps) (s : State) : Host.Outcome State Fault Refusal :=
  issueOp u x k (.acarry o) (effAcarry u k o) s

/-- The elements and the summary of a drain of slots, before rounding (R64, R67, R74). -/
def drainElems (ts : List Slot) (mean ownCount : Bool) (div : Nat) : List Elem :=
  ts.map (fun t => slotResult t (if mean then some (if ownCount then t.count else div) else none))

/-- Escapes and limits of drained slots in the summary; slot j is element base + j. -/
def drainMarks (ts : List Slot) (base : Nat) (y : Summary) : Summary :=
  ((List.range ts.length).zip ts).foldl (fun y p =>
    let y := countEscapes y (base + p.1) p.2.escapes
    if p.2.limit then { y with valid := false } else y) y

/-- ADRAIN: round N slots once each in ascending order, write them and the summary, and then clear the slots: a write that
meets an uncorrectable word ends the command before the clear (R108, R96). -/
def effAdrain (u : EngRef) (k : CmdHdr) (o : AdrainOps) (iter : Nat) (s : State) : Eff :=
  let v := pavAt s u.pav
  let f := o.ofmt.toNat
  let n := o.n.toNat
  let size := fmtSize f n
  let dst := advance k.laa o.dst.toNat size iter
  let ba := advance k.lab (o.dblk.toNat * 512) 512 iter
  let js := slotRange o.slot.toNat n
  let ts := js.map (slotAt v)
  if !fmtValid f || (fmtInt f && !ts.all (fun t => match t.fmt with | some g => fmtInt g.toNat | none => true)) then .fail .malformed s
  else if 1024 < o.slot.toNat + n ∨ sramIn ba 32 = false then .fail .bounds s
  else match sramBad v ba 32 with
    | some w => .fail (.sram w) s
    | none =>
      let b := drainBlk (sramRead v ba 32)
      let ns := if fmtMx f then (n + 31) / 32 else 0
      if b.rsvd ≠ 0 then .fail .malformed s
      else if b.suma % 64 ≠ 0 ∨ sramIn b.suma 64 = false ∨ sramIn dst size = false ∨ sramIn b.sca ns = false then .fail .bounds s
      else
        let y0 : Summary := { tid := BitVec.ofNat 32 b.tid, step := plotStep s u, fmt := o.ofmt }
        let (y, eb, sb) := writeElems f o.rm.toNat (plotGen s u b.tid) b.ebase y0 (drainElems ts o.mean o.dsrc b.div)
        let y := drainMarks ts b.ebase y
        let s' := if y.escape = 0 then s
          else emit { s with ar := { s.ar with escapes := s.ar.escapes + 1 } } rkArithEscape (srcPav u.pav) (engPlot s u) []
        match sramWrites v ([(dst, eb), (b.sca, sb), (b.suma, summaryBytes y)].filter (fun p => !p.2.isEmpty)) with
        | (v', none) => .ok (setPav s' u.pav (js.foldl (fun w j => setSlot w j (slotClear (slotAt w j))) v'))
        | r => Eff.ofWrite u s' r

def execAdrain (u : EngRef) (x : Upset) (k : CmdHdr) (o : AdrainOps) (s : State) : Host.Outcome State Fault Refusal :=
  issueOp u x k (.adrain o) (effAdrain u k o) s

end Sys2Proof.Machine
end

