-- ==== Sys2Proof/Machine/PoolOps.lean ====
section
/-! DEFINITION. Buffer handles and the places buffers lie in (R186–R191), and byte access to SRAM, port-die buffer memory and HBM as
one notion of place. -/

namespace Sys2Proof.Machine

/-! ### Handles (R188) -/

def hPool (h : U32) : Nat := field h 24 8
def hIdx (h : U32) : Nat := field h 8 16
def hGen (h : U32) : BitVec 8 := h.extractLsb' 0 8
def mkHandle (pool idx : Nat) (gen : BitVec 8) : U32 := BitVec.ofNat 8 pool ++ BitVec.ofNat 16 idx ++ gen

def bufAt (p : Pool) (i : Nat) : Buf := tblGet {} p.bufs i

/-- The pool exists, the index is below COUNT and the generation is the buffer's (R190). -/
def handleValid (p : Pool) (h : U32) : Bool := decide (hIdx h < p.count) && (bufAt p (hIdx h)).gen == hGen h

/-- Buffers held now. -/
def heldCount (p : Pool) : Nat := (p.bufs.filter (fun b => b.2.ref != 0)).length

/-- The free buffer with the lowest index, looking at `n` of them from `i`. -/
def firstFree (p : Pool) : Nat → Nat → Option Nat
  | 0, _ => none
  | n + 1, i => if (bufAt p i).ref = 0 then some i else firstFree p n (i + 1)

/-- What a request of the pool manager answers (R190). -/
structure PoolAns where
  status : U16
  handle : U32 := 0
deriving DecidableEq, Repr, Inhabited

/-- The record and count of a refused request (Table 7.6, R193). -/
def poolErr (s : State) (id : Nat) (p : Pool) (st : U16) (h : U32) : State :=
  let p := { p with lastError := BitVec.ofNat 64 (st.toNat * 2 ^ 32 + h.toNat) }
  let src := srcHub (id % 4)
  if st == stPoolEmpty then emit (setPool s id { p with nEmpty := p.nEmpty + 1 }) rkPoolEmpty src (some p.plot) []
  else if st == stDoubleFree then emit (setPool s id { p with nDouble := p.nDouble + 1 }) rkDoubleFree src (some p.plot) [(32, h.toNat)]
  else if st == stRefcountLimit then emit (setPool s id { p with nLimit := p.nLimit + 1 }) rkRefcountLimit src (some p.plot) [(32, h.toNat)]
  else emit (setPool s id { p with nInvalid := p.nInvalid + 1 }) rkHandleInvalid src (some p.plot) [(32, h.toNat)]

/-- alloc(pool) of R190. -/
def poolAlloc (s : State) (id : Nat) : State × PoolAns :=
  match poolAt? s id with
  | none => (s, { status := stHandleInvalid })
  | some p =>
    match firstFree p p.count 0 with
    | none => (poolErr s id p stPoolEmpty 0, { status := stPoolEmpty })
    | some i =>
      let b : Buf := { ref := 1, gen := (bufAt p i).gen + 1 }
      let p := { p with bufs := tblSet p.bufs i b }
      (setPool s id { p with high := max p.high (heldCount p) }, { status := stOk, handle := mkHandle id i b.gen })

/-- acquire(h) of R190. -/
def poolAcquire (s : State) (h : U32) : State × U16 :=
  match poolAt? s (hPool h) with
  | none => (emit s rkHandleInvalid (srcHub (hPool h % 4)) none [(32, h.toNat)], stHandleInvalid)
  | some p =>
    let b := bufAt p (hIdx h)
    if !handleValid p h || b.ref == 0 then (poolErr s (hPool h) p stHandleInvalid h, stHandleInvalid)
    else if b.ref = 255 then (poolErr s (hPool h) p stRefcountLimit h, stRefcountLimit)
    else (setPool s (hPool h) { p with bufs := tblSet p.bufs (hIdx h) { b with ref := b.ref + 1 } }, stOk)

/-- release(h) of R190. -/
def poolRelease (s : State) (h : U32) : State × U16 :=
  match poolAt? s (hPool h) with
  | none => (emit s rkHandleInvalid (srcHub (hPool h % 4)) none [(32, h.toNat)], stHandleInvalid)
  | some p =>
    let b := bufAt p (hIdx h)
    if !handleValid p h then (poolErr s (hPool h) p stHandleInvalid h, stHandleInvalid)
    else if b.ref == 0 then (poolErr s (hPool h) p stDoubleFree h, stDoubleFree)
    else (setPool s (hPool h) { p with bufs := tblSet p.bufs (hIdx h) { b with ref := b.ref - 1 } }, stOk)

/-! ### Places -/

/-- Where bytes lie: data SRAM of a pavilion, buffer memory of a port die, or a plot's HBM region. -/
inductive Place where
  | sram (pav a : Nat)
  | die (j a : Nat)
  | hbm (plot off : Nat)
deriving DecidableEq, Repr, Inhabited

def Place.shift : Place → Nat → Place
  | .sram p a, n => .sram p (a + n)
  | .die j a, n => .die j (a + n)
  | .hbm k o, n => .hbm k (o + n)

/-- The place of a byte of a buffer (R187, R193). -/
def bufPlace (p : Pool) (h : U32) (off : Nat) : Place :=
  let a := p.base + hIdx h * 2 ^ p.size + off
  match p.loc with
  | 0 => .sram p.unit a
  | 1 => .die p.unit a
  | _ => .hbm p.plot a

/-- The buffer memory of a port die as an SRAM: words of 256 bits with SECDED (Table 1.7). -/
def dieMem (s : State) (j : Nat) : Pavilion := { sram := (dieAt s j).mem, badWords := (dieAt s j).badWords }

/-- `n` bytes from a place, or the uncorrectable word that the read meets (R96, R280). -/
def placeRead (s : State) (pl : Place) (n : Nat) : Except Fail (List Byte) :=
  match pl with
  | .sram p a => match sramBad (pavAt s p) a n with
    | some w => .error (.remote p w)
    | none => .ok (sramRead (pavAt s p) a n)
  | .die j a => match sramBad (dieMem s j) a n with
    | some w => .error (.die j w)
    | none => .ok (sramRead (dieMem s j) a n)
  | .hbm k o =>
    let as := regAddrs (plotAt s k).region o n
    match hbmBad s.hbm as with
    | some a => .error (.hbm a)
    | none => .ok (hbmRead s.hbm as)

/-- Bytes written to a place; a shorter write that meets an uncorrectable word changes nothing of it and is answered. -/
def placeWrite (s : State) (pl : Place) (bs : List Byte) : State × Option Fail :=
  match pl with
  | .sram p a =>
    let (v, e) := sramWrite (pavAt s p) a bs
    (setPav s p v, e.map (Fail.remote p))
  | .die j a =>
    let (v, e) := sramWrite (dieMem s j) a bs
    (modDie s j (fun d => { d with mem := v.sram, badWords := v.badWords }), e.map (Fail.die j))
  | .hbm k o =>
    let (h, e) := hbmWrite s.hbm (regAddrs (plotAt s k).region o bs.length) bs
    ({ s with hbm := h }, e.map Fail.hbm)

/-- Bytes that a unit of plot `n` other than an engine writes to a place: a write that meets an uncorrectable word has the outcome of Table
4.8 or 11.3. -/
def placePut (s : State) (n : Nat) (pl : Place) (bs : List Byte) : State :=
  match placeWrite s pl bs with
  | (s', some (.hbm a)) => hbmUncorrected s' a true
  | (s', some (.remote q _)) => pavFault s' rkSramUncorrected q
  | (s', some (.die j _)) => dieFault s' j [n]
  | (s', _) => s'

/-- Bytes that such a unit reads from a place, with the outcome of Table 4.8 or 11.3 where they hold an uncorrectable word. -/
def placeGet (s : State) (n : Nat) (pl : Place) (len : Nat) : State × Option (List Byte) :=
  match placeRead s pl len with
  | .ok bs => (s, some bs)
  | .error (.hbm a) => (hbmUncorrected s a true, none)
  | .error (.remote q _) => (pavFault s rkSramUncorrected q, none)
  | .error (.die j _) => (dieFault s j [n], none)
  | .error _ => (s, none)

/-- Several writes in order; the first failure is answered. -/
def placeWrites (s : State) : List (Place × List Byte) → State × Option Fail
  | [] => (s, none)
  | (pl, bs) :: r =>
    let (s, e) := placeWrite s pl bs
    let (s, e') := placeWrites s r
    (s, e.or e')

/-- Several reads in order. -/
def placeReads (s : State) : List (Place × Nat) → Except Fail (List (List Byte))
  | [] => .ok []
  | (pl, n) :: r => do
    let b ← placeRead s pl n
    let bs ← placeReads s r
    .ok (b :: bs)

end Sys2Proof.Machine
end

