-- ==== Sys2Proof/Machine/Control.lean ====
section
/-! DEFINITION. The control commands of Table 5.3, valid on every engine. -/

namespace Sys2Proof.Machine

/-- NOP waits and signals only. -/
def execNop (u : EngRef) (x : Upset) (k : CmdHdr) (s : State) : Host.Outcome State Fault Refusal :=
  issueOp u x k .nop (fun _ s => .ok s) s

/-- LOOP: the repetition was made at fetch (R138); the command itself only retires. -/
def execLoop (u : EngRef) (x : Upset) (k : CmdHdr) (o : LoopOps) (s : State) : Host.Outcome State Fault Refusal :=
  issueOp u x k (.loop o) (fun _ s => .ok s) s

/-- ENDLOOP retires once per iteration (R138). -/
def execEndloop (u : EngRef) (x : Upset) (k : CmdHdr) (s : State) : Host.Outcome State Fault Refusal :=
  issueOp u x k .endloop (fun _ s => .ok s) s

/-- FRAME: pf advances by NF at issue (R139); completion waits for the guard band of frame pf. An overrun has been reported by the tick that
ended frame pf with the work unfinished (R51). -/
def execFrame (u : EngRef) (x : Upset) (k : CmdHdr) (nf : BitVec 16) (s : State) : Host.Outcome State Fault Refusal :=
  issueOp u x k (.frame nf) (fun _ s => .ok (modEng s u (fun e => { e with pf := e.pf + nf.toNat }))) s

/-- HALT ends the stream; the engine is idle once it has completed (R140). -/
def execHalt (u : EngRef) (x : Upset) (k : CmdHdr) (s : State) : Host.Outcome State Fault Refusal :=
  issueOp u x k .halt (fun _ s => .ok s) s

/-- MARK emits COMMAND_TRACE carrying the value (Table 5.3). -/
def execMark (u : EngRef) (x : Upset) (k : CmdHdr) (v : BitVec 32) (s : State) : Host.Outcome State Fault Refusal :=
  issueOp u x k (.mark v) (fun _ s => .ok (emit s rkCommandTrace (srcPav u.pav) (engPlot s u) [(32, v.toNat)])) s

end Sys2Proof.Machine
end

