-- ==== Sys2Proof/Machine/Crc.lean ====
section
/-! DEFINITION. The cyclic redundancy checks the manual names: CRC-32C of a flit (R288), CRC-32 of an image (R156) and CRC-64 of a
shard block (R259), over numbers so that the kernel evaluates them. -/

namespace Sys2Proof.Machine

/-- One bit of a reflected CRC; those of this file start and end with all ones. -/
def crcBit (poly c : Nat) : Nat := if c % 2 = 1 then (c / 2) ^^^ poly else c / 2

/-- One byte of a reflected CRC. -/
def crcByte (poly c b : Nat) : Nat :=
  let c := c ^^^ b
  crcBit poly (crcBit poly (crcBit poly (crcBit poly (crcBit poly (crcBit poly (crcBit poly (crcBit poly c)))))))

/-- The bytes of a message through a reflected CRC. -/
def crcGo (poly : Nat) : Nat → List Byte → Nat
  | c, [] => c
  | c, b :: bs => crcGo poly (crcByte poly c b.toNat) bs

/-- CRC-32C, polynomial 0x1EDC_6F41 reflected (R288). -/
def crc32c (bs : List Byte) : Nat := crcGo 0x82F63B78 0xFFFFFFFF bs ^^^ 0xFFFFFFFF

/-- CRC-32 of IEEE 802.3 (R156). -/
def crc32 (bs : List Byte) : Nat := crcGo 0xEDB88320 0xFFFFFFFF bs ^^^ 0xFFFFFFFF

/-- One bit of CRC-64/ECMA-182, not reflected. -/
def crc64Bit (c : Nat) : Nat := if c < 2 ^ 63 then c * 2 else (c * 2 - 2 ^ 64) ^^^ 0x42F0E1EBA9EA3693

/-- One byte of CRC-64/ECMA-182, most significant bit first. -/
def crc64Byte (c b : Nat) : Nat :=
  let c := c ^^^ (b * 2 ^ 56)
  crc64Bit (crc64Bit (crc64Bit (crc64Bit (crc64Bit (crc64Bit (crc64Bit (crc64Bit c)))))))

/-- CRC-64/ECMA-182 of `n` bytes given by `f` from `i` upwards, initial value `c` and no final XOR (R259). -/
def crc64Go (f : Nat → Byte) : Nat → Nat → Nat → Nat
  | 0, _, c => c
  | n + 1, i, c => crc64Go f n (i + 1) (crc64Byte c (f i).toNat)

/-- CRC-64/ECMA-182 of a byte string. -/
def crc64 (bs : List Byte) : Nat := bs.foldl (fun c b => crc64Byte c b.toNat) 0

end Sys2Proof.Machine
end

