-- ==== Sys2Proof/Machine/Dict.lean ====
section
/-! DEFINITION. The object dictionary (R349–R351): every object of the manual's object tables with its type and its access code for each
role. For a split port, subindexes 0x14–0x1F describe half b (R306). -/

namespace Sys2Proof.Machine

/-- The types of Table 15.2. -/
inductive ObjTy where
  | bool | u8 | u16 | u32 | u64 | i32 | i64 | f32 | bits256 | str32 | domain | handle
deriving DecidableEq, Repr

/-- The access codes of Table 15.3; `none` is no access. -/
inductive Acc where
  | none | const | ro | rw | rws | wo | cmd
deriving DecidableEq, Repr

/-- Objects of an index range and subindex range: type, and access for SO, FM, PO and OB. -/
structure ObjEntry where
  lo : Nat
  hi : Nat
  s0 : Nat
  s1 : Nat
  ty : ObjTy
  so : Acc
  fm : Acc
  po : Acc
  ob : Acc
deriving DecidableEq, Repr

/-- Objects of index 0x1000 to 0x10FF. -/
def dict10 : List ObjEntry := [
  ⟨0x1000, 0x1000, 0x00, 0x00, .u32, .const, .const, .const, .const⟩,
  ⟨0x1008, 0x1008, 0x00, 0x00, .str32, .const, .const, .const, .const⟩,
  ⟨0x1009, 0x1009, 0x00, 0x00, .u16, .const, .const, .const, .const⟩,
  ⟨0x100A, 0x100A, 0x00, 0x00, .u32, .ro, .ro, .ro, .ro⟩,
  ⟨0x1010, 0x1010, 0x00, 0x00, .str32, .const, .const, .const, .const⟩,
  ⟨0x1018, 0x1018, 0x00, 0x00, .u64, .ro, .ro, .ro, .ro⟩,
  ⟨0x1019, 0x1019, 0x00, 0x00, .u32, .ro, .ro, .ro, .ro⟩,
  ⟨0x1020, 0x1020, 0x01, 0x04, .str32, .const, .const, .const, .const⟩]

/-- Objects of index 0x1100 to 0x11FF. -/
def dict11 : List ObjEntry := [
  ⟨0x1100, 0x1100, 0x01, 0x01, .u8, .ro, .ro, .ro, .ro⟩,
  ⟨0x1100, 0x1100, 0x02, 0x02, .u8, .rw, .rw, .rw, .none⟩,
  ⟨0x1100, 0x1100, 0x03, 0x03, .u64, .ro, .ro, .ro, .none⟩,
  ⟨0x1100, 0x1100, 0x04, 0x04, .u8, .ro, .ro, .ro, .ro⟩,
  ⟨0x1100, 0x1100, 0x05, 0x05, .u8, .cmd, .cmd, .none, .none⟩,
  ⟨0x1100, 0x1100, 0x06, 0x06, .u32, .rws, .rws, .ro, .ro⟩,
  ⟨0x1100, 0x1100, 0x07, 0x07, .u64, .ro, .ro, .ro, .ro⟩,
  ⟨0x1100, 0x1100, 0x10, 0x10, .domain, .rws, .ro, .ro, .none⟩,
  ⟨0x1100, 0x1100, 0x11, 0x11, .domain, .rws, .ro, .ro, .none⟩,
  ⟨0x1100, 0x1100, 0x12, 0x12, .domain, .rws, .ro, .ro, .none⟩,
  ⟨0x1100, 0x1100, 0x13, 0x13, .domain, .rws, .ro, .ro, .none⟩,
  ⟨0x1100, 0x1100, 0x20, 0x20, .u64, .ro, .ro, .ro, .ro⟩,
  ⟨0x1100, 0x1100, 0x21, 0x21, .u8, .ro, .ro, .ro, .ro⟩,
  ⟨0x1100, 0x1100, 0x22, 0x22, .u64, .ro, .ro, .ro, .ro⟩,
  ⟨0x1100, 0x1100, 0x23, 0x23, .u8, .ro, .ro, .ro, .ro⟩,
  ⟨0x1100, 0x1100, 0x30, 0x30, .domain, .rws, .rws, .ro, .none⟩]

/-- Objects of index 0x1200 to 0x12FF. -/
def dict12 : List ObjEntry := [
  ⟨0x1200, 0x1200, 0x01, 0x01, .u8, .rws, .rws, .ro, .ro⟩,
  ⟨0x1200, 0x1200, 0x02, 0x02, .u32, .rw, .rw, .ro, .ro⟩,
  ⟨0x1200, 0x1200, 0x03, 0x03, .i32, .ro, .ro, .ro, .ro⟩,
  ⟨0x1200, 0x1200, 0x04, 0x04, .u64, .ro, .ro, .ro, .ro⟩,
  ⟨0x1200, 0x1200, 0x05, 0x05, .u8, .rw, .rw, .ro, .ro⟩,
  ⟨0x1200, 0x1200, 0x06, 0x06, .u32, .ro, .ro, .ro, .ro⟩,
  ⟨0x1200, 0x1200, 0x07, 0x07, .u64, .ro, .ro, .ro, .ro⟩,
  ⟨0x1200, 0x1200, 0x08, 0x08, .u64, .ro, .ro, .ro, .ro⟩,
  ⟨0x1200, 0x1200, 0x09, 0x09, .u64, .ro, .ro, .ro, .ro⟩,
  ⟨0x1200, 0x1200, 0x0B, 0x0B, .u8, .ro, .ro, .ro, .ro⟩]

/-- Objects of index 0x2000 to 0x20FF. -/
def dict20 : List ObjEntry := [
  ⟨0x2000, 0x2000, 0x01, 0x01, .u8, .rws, .rws, .ro, .ro⟩,
  ⟨0x2000, 0x2000, 0x02, 0x02, .i32, .rws, .rws, .ro, .ro⟩,
  ⟨0x2000, 0x2000, 0x03, 0x03, .u32, .const, .const, .const, .const⟩,
  ⟨0x2000, 0x2000, 0x04, 0x04, .u32, .const, .const, .const, .const⟩,
  ⟨0x2000, 0x2000, 0x05, 0x05, .u64, .ro, .ro, .ro, .ro⟩,
  ⟨0x2000, 0x2000, 0x06, 0x06, .u64, .ro, .ro, .ro, .ro⟩]

/-- Objects of index 0x2100 to 0x21FF. -/
def dict21 : List ObjEntry := [
  ⟨0x2100, 0x2100, 0x00, 0x00, .bits256, .const, .const, .const, .const⟩,
  ⟨0x2101, 0x2101, 0x00, 0x00, .bits256, .ro, .ro, .ro, .ro⟩]

/-- Objects of index 0x3000 to 0x30FF. -/
def dict30 : List ObjEntry := [
  ⟨0x3000, 0x303F, 0x01, 0x01, .u8, .rws, .rws, .ro, .ro⟩,
  ⟨0x3000, 0x303F, 0x02, 0x02, .u8, .cmd, .cmd, .none, .none⟩,
  ⟨0x3000, 0x303F, 0x03, 0x03, .u32, .rws, .rws, .ro, .ro⟩,
  ⟨0x3000, 0x303F, 0x04, 0x04, .u8, .ro, .ro, .ro, .ro⟩,
  ⟨0x3000, 0x303F, 0x05, 0x05, .u32, .ro, .ro, .ro, .ro⟩,
  ⟨0x3000, 0x303F, 0x06, 0x06, .u32, .ro, .ro, .ro, .ro⟩,
  ⟨0x3000, 0x303F, 0x07, 0x07, .u32, .ro, .ro, .ro, .ro⟩,
  ⟨0x3000, 0x303F, 0x08, 0x08, .u16, .ro, .ro, .ro, .ro⟩,
  ⟨0x3000, 0x303F, 0x09, 0x09, .u64, .ro, .ro, .ro, .ro⟩,
  ⟨0x3000, 0x303F, 0x0A, 0x0A, .u64, .ro, .ro, .ro, .ro⟩,
  ⟨0x3000, 0x303F, 0x0B, 0x0B, .u64, .ro, .ro, .ro, .ro⟩,
  ⟨0x3000, 0x303F, 0x0C, 0x0C, .u64, .ro, .ro, .ro, .ro⟩,
  ⟨0x3000, 0x303F, 0x0D, 0x0D, .u16, .ro, .ro, .ro, .ro⟩,
  ⟨0x3000, 0x303F, 0x0E, 0x0E, .u32, .rws, .ro, .ro, .ro⟩,
  ⟨0x3000, 0x303F, 0x0F, 0x0F, .u64, .ro, .ro, .ro, .ro⟩,
  ⟨0x3000, 0x303F, 0x10, 0x10, .u8, .ro, .ro, .ro, .ro⟩,
  ⟨0x3000, 0x303F, 0x14, 0x14, .u8, .ro, .ro, .ro, .ro⟩,
  ⟨0x3000, 0x303F, 0x15, 0x15, .u32, .ro, .ro, .ro, .ro⟩,
  ⟨0x3000, 0x303F, 0x16, 0x16, .u32, .ro, .ro, .ro, .ro⟩,
  ⟨0x3000, 0x303F, 0x17, 0x17, .u32, .ro, .ro, .ro, .ro⟩,
  ⟨0x3000, 0x303F, 0x18, 0x18, .u16, .ro, .ro, .ro, .ro⟩,
  ⟨0x3000, 0x303F, 0x19, 0x19, .u64, .ro, .ro, .ro, .ro⟩,
  ⟨0x3000, 0x303F, 0x1A, 0x1A, .u64, .ro, .ro, .ro, .ro⟩,
  ⟨0x3000, 0x303F, 0x1B, 0x1B, .u64, .ro, .ro, .ro, .ro⟩,
  ⟨0x3000, 0x303F, 0x1C, 0x1C, .u64, .ro, .ro, .ro, .ro⟩,
  ⟨0x3000, 0x303F, 0x1D, 0x1D, .u16, .ro, .ro, .ro, .ro⟩,
  ⟨0x3000, 0x303F, 0x1E, 0x1E, .u32, .rws, .ro, .ro, .ro⟩,
  ⟨0x3000, 0x303F, 0x1F, 0x1F, .u64, .ro, .ro, .ro, .ro⟩]

/-- Objects of index 0x3100 to 0x31FF. -/
def dict31 : List ObjEntry := [
  ⟨0x3100, 0x3100, 0x01, 0x08, .u16, .rws, .rws, .ro, .ro⟩]

/-- Objects of index 0x3200 to 0x32FF. -/
def dict32 : List ObjEntry := [
  ⟨0x3200, 0x3200, 0x01, 0x01, .u8, .rw, .rw, .rw, .none⟩,
  ⟨0x3200, 0x3200, 0x02, 0x02, .u8, .rws, .rws, .ro, .ro⟩,
  ⟨0x3200, 0x3200, 0x03, 0x03, .u64, .ro, .ro, .ro, .ro⟩,
  ⟨0x3200, 0x3200, 0x04, 0x04, .u64, .ro, .ro, .ro, .ro⟩]

/-- Objects of index 0x3400 to 0x34FF. -/
def dict34 : List ObjEntry := [
  ⟨0x3400, 0x3400, 0x01, 0x01, .domain, .rw, .rw, .none, .ro⟩,
  ⟨0x3400, 0x3400, 0x02, 0x02, .bits256, .rw, .rw, .ro, .ro⟩,
  ⟨0x3400, 0x3400, 0x03, 0x03, .u32, .rws, .rws, .ro, .ro⟩,
  ⟨0x3400, 0x3400, 0x04, 0x04, .u32, .ro, .ro, .ro, .ro⟩,
  ⟨0x3400, 0x3400, 0x05, 0x05, .u64, .ro, .ro, .ro, .ro⟩,
  ⟨0x3400, 0x3400, 0x06, 0x06, .u64, .ro, .ro, .ro, .ro⟩,
  ⟨0x3400, 0x3400, 0x07, 0x07, .u32, .rw, .rw, .ro, .ro⟩]

/-- Objects of index 0x3500 to 0x35FF. -/
def dict35 : List ObjEntry := [
  ⟨0x3500, 0x3500, 0x01, 0x01, .u8, .rw, .rw, .rw, .none⟩,
  ⟨0x3500, 0x3500, 0x02, 0x02, .u16, .rw, .rw, .ro, .ro⟩,
  ⟨0x3500, 0x3500, 0x03, 0x03, .u64, .rw, .rw, .rw, .ro⟩,
  ⟨0x3500, 0x3500, 0x04, 0x04, .u32, .rw, .rw, .ro, .ro⟩,
  ⟨0x3500, 0x3500, 0x05, 0x05, .u8, .rw, .rw, .rw, .rw⟩,
  ⟨0x3500, 0x3500, 0x06, 0x06, .u64, .ro, .ro, .ro, .ro⟩,
  ⟨0x3500, 0x3500, 0x07, 0x07, .u32, .ro, .ro, .ro, .ro⟩,
  ⟨0x3500, 0x3500, 0x08, 0x08, .u64, .ro, .ro, .ro, .ro⟩,
  ⟨0x3500, 0x3500, 0x09, 0x09, .u64, .ro, .ro, .ro, .ro⟩]

/-- Objects of index 0x3600 to 0x36FF. -/
def dict36 : List ObjEntry := [
  ⟨0x3600, 0x3600, 0x01, 0x01, .u8, .rw, .rw, .rw, .none⟩,
  ⟨0x3600, 0x3600, 0x02, 0x02, .u32, .ro, .ro, .ro, .ro⟩,
  ⟨0x3600, 0x3600, 0x03, 0x03, .u64, .ro, .ro, .ro, .ro⟩,
  ⟨0x3600, 0x3600, 0x04, 0x04, .u32, .ro, .ro, .ro, .ro⟩,
  ⟨0x3600, 0x3600, 0x05, 0x05, .u64, .ro, .ro, .ro, .ro⟩]

/-- Objects of index 0x4000 to 0x40FF. -/
def dict40 : List ObjEntry := [
  ⟨0x4000, 0x401F, 0x01, 0x01, .u8, .ro, .ro, .ro, .ro⟩,
  ⟨0x4000, 0x401F, 0x02, 0x02, .bits256, .rw, .rw, .ro, .ro⟩,
  ⟨0x4000, 0x401F, 0x03, 0x03, .u64, .rw, .rw, .ro, .ro⟩,
  ⟨0x4000, 0x401F, 0x04, 0x04, .u64, .rw, .rw, .ro, .ro⟩,
  ⟨0x4000, 0x401F, 0x05, 0x05, .u64, .rw, .rw, .rw, .ro⟩,
  ⟨0x4000, 0x401F, 0x06, 0x06, .domain, .wo, .wo, .wo, .none⟩,
  ⟨0x4000, 0x401F, 0x07, 0x07, .u16, .ro, .ro, .ro, .ro⟩,
  ⟨0x4000, 0x401F, 0x08, 0x08, .u32, .rw, .rw, .ro, .ro⟩,
  ⟨0x4000, 0x401F, 0x09, 0x09, .domain, .none, .wo, .wo, .none⟩,
  ⟨0x4000, 0x401F, 0x0A, 0x0A, .u8, .none, .cmd, .cmd, .none⟩,
  ⟨0x4000, 0x401F, 0x0B, 0x0B, .u64, .ro, .ro, .ro, .ro⟩,
  ⟨0x4000, 0x401F, 0x0C, 0x0C, .u8, .ro, .ro, .ro, .ro⟩,
  ⟨0x4000, 0x401F, 0x0D, 0x0D, .domain, .ro, .ro, .ro, .ro⟩,
  ⟨0x4000, 0x401F, 0x0E, 0x0E, .u64, .ro, .ro, .ro, .ro⟩,
  ⟨0x4000, 0x401F, 0x0F, 0x0F, .u64, .ro, .ro, .ro, .ro⟩,
  ⟨0x4000, 0x401F, 0x10, 0x10, .u8, .cmd, .cmd, .cmd, .none⟩]

/-- Objects of index 0x5000 to 0x50FF. -/
def dict50 : List ObjEntry := [
  ⟨0x5000, 0x5000, 0x01, 0x01, .u32, .rw, .rw, .rw, .none⟩,
  ⟨0x5000, 0x5000, 0x02, 0x02, .u8, .none, .rw, .rw, .none⟩,
  ⟨0x5000, 0x5000, 0x03, 0x03, .u64, .none, .rw, .rw, .none⟩,
  ⟨0x5000, 0x5000, 0x04, 0x04, .u32, .none, .rw, .rw, .none⟩,
  ⟨0x5000, 0x5000, 0x05, 0x05, .u16, .none, .cmd, .cmd, .none⟩,
  ⟨0x5000, 0x5000, 0x06, 0x06, .u8, .ro, .ro, .ro, .ro⟩,
  ⟨0x5000, 0x5000, 0x07, 0x07, .u64, .ro, .ro, .ro, .ro⟩,
  ⟨0x5000, 0x5000, 0x08, 0x08, .u64, .ro, .ro, .ro, .ro⟩,
  ⟨0x5000, 0x5000, 0x09, 0x09, .u16, .ro, .ro, .ro, .ro⟩,
  ⟨0x5000, 0x5000, 0x0A, 0x0A, .u8, .ro, .ro, .ro, .ro⟩,
  ⟨0x5000, 0x5000, 0x0B, 0x0B, .domain, .none, .wo, .wo, .none⟩,
  ⟨0x5000, 0x5000, 0x0C, 0x0C, .u8, .cmd, .cmd, .none, .none⟩,
  ⟨0x5000, 0x5000, 0x0D, 0x0D, .u16, .ro, .ro, .ro, .ro⟩,
  ⟨0x5000, 0x5000, 0x10, 0x10, .u8, .rw, .rw, .rw, .none⟩,
  ⟨0x5000, 0x5000, 0x11, 0x11, .u32, .ro, .ro, .ro, .ro⟩,
  ⟨0x5000, 0x5000, 0x12, 0x12, .i32, .none, .cmd, .cmd, .none⟩,
  ⟨0x5000, 0x5000, 0x13, 0x13, .u8, .none, .cmd, .cmd, .none⟩]

/-- Objects of index 0x5800 to 0x58FF. -/
def dict58 : List ObjEntry := [
  ⟨0x5800, 0x5800, 0x01, 0x01, .u16, .rw, .rw, .rw, .none⟩,
  ⟨0x5800, 0x5800, 0x02, 0x02, .u8, .ro, .ro, .ro, .ro⟩,
  ⟨0x5800, 0x5800, 0x03, 0x03, .u16, .ro, .ro, .ro, .ro⟩,
  ⟨0x5800, 0x5800, 0x04, 0x04, .u16, .ro, .ro, .ro, .ro⟩,
  ⟨0x5800, 0x5800, 0x05, 0x05, .domain, .ro, .ro, .ro, .none⟩,
  ⟨0x5800, 0x5800, 0x06, 0x06, .u32, .rw, .rw, .ro, .ro⟩,
  ⟨0x5800, 0x5800, 0x07, 0x07, .u64, .ro, .ro, .ro, .ro⟩,
  ⟨0x5800, 0x5800, 0x08, 0x08, .u64, .ro, .ro, .ro, .ro⟩,
  ⟨0x5800, 0x5800, 0x09, 0x09, .u64, .ro, .ro, .ro, .ro⟩,
  ⟨0x5800, 0x5800, 0x10, 0x10, .u64, .ro, .ro, .ro, .ro⟩,
  ⟨0x5800, 0x5800, 0x11, 0x11, .domain, .ro, .ro, .ro, .none⟩,
  ⟨0x5800, 0x5800, 0x12, 0x12, .u16, .rw, .rw, .rw, .none⟩,
  ⟨0x5800, 0x5800, 0x13, 0x13, .u32, .ro, .ro, .ro, .ro⟩,
  ⟨0x5800, 0x5800, 0x20, 0x20, .u32, .rw, .rw, .rw, .none⟩,
  ⟨0x5800, 0x5800, 0x21, 0x21, .u64, .ro, .ro, .ro, .ro⟩,
  ⟨0x5800, 0x5800, 0x22, 0x22, .u64, .ro, .ro, .ro, .ro⟩,
  ⟨0x5800, 0x5800, 0x23, 0x23, .u64, .ro, .ro, .ro, .ro⟩,
  ⟨0x5800, 0x5800, 0x24, 0x24, .u64, .ro, .ro, .ro, .ro⟩,
  ⟨0x5800, 0x5800, 0x25, 0x25, .u64, .ro, .ro, .ro, .ro⟩,
  ⟨0x5800, 0x5800, 0x26, 0x26, .u64, .ro, .ro, .ro, .ro⟩,
  ⟨0x5800, 0x5800, 0x27, 0x27, .u64, .ro, .ro, .ro, .ro⟩,
  ⟨0x5800, 0x5800, 0x28, 0x28, .u32, .ro, .ro, .ro, .ro⟩]

/-- Objects of index 0x5900 to 0x59FF. -/
def dict59 : List ObjEntry := [
  ⟨0x5900, 0x5900, 0x01, 0x01, .u32, .rws, .rws, .ro, .ro⟩,
  ⟨0x5900, 0x5900, 0x02, 0x02, .domain, .rw, .rw, .ro, .ro⟩,
  ⟨0x5900, 0x5900, 0x03, 0x03, .u16, .rws, .rws, .ro, .ro⟩,
  ⟨0x5900, 0x5900, 0x04, 0x04, .u64, .ro, .ro, .ro, .ro⟩,
  ⟨0x5900, 0x5900, 0x05, 0x05, .u64, .ro, .ro, .ro, .ro⟩]

/-- Objects of index 0x6000 to 0x60FF. -/
def dict60 : List ObjEntry := [
  ⟨0x6000, 0x6000, 0x01, 0x01, .u16, .rw, .rw, .rw, .none⟩,
  ⟨0x6000, 0x6000, 0x02, 0x02, .domain, .rw, .rw, .rw, .ro⟩,
  ⟨0x6000, 0x6000, 0x03, 0x03, .u8, .ro, .ro, .ro, .ro⟩,
  ⟨0x6000, 0x6000, 0x04, 0x04, .u8, .ro, .ro, .ro, .ro⟩,
  ⟨0x6000, 0x6000, 0x05, 0x05, .domain, .ro, .ro, .ro, .ro⟩,
  ⟨0x6000, 0x6000, 0x06, 0x06, .domain, .ro, .ro, .ro, .none⟩,
  ⟨0x6000, 0x6000, 0x07, 0x07, .domain, .ro, .ro, .ro, .none⟩,
  ⟨0x6000, 0x6000, 0x08, 0x08, .u8, .none, .cmd, .cmd, .none⟩,
  ⟨0x6000, 0x6000, 0x09, 0x09, .u64, .ro, .ro, .ro, .ro⟩,
  ⟨0x6000, 0x6000, 0x0A, 0x0A, .u64, .ro, .ro, .ro, .ro⟩,
  ⟨0x6000, 0x6000, 0x0B, 0x0B, .u64, .ro, .ro, .ro, .ro⟩,
  ⟨0x6000, 0x6000, 0x0C, 0x0C, .u64, .ro, .ro, .ro, .ro⟩,
  ⟨0x6000, 0x6000, 0x0D, 0x0D, .u32, .ro, .ro, .ro, .ro⟩,
  ⟨0x6000, 0x6000, 0x0E, 0x0E, .u16, .ro, .ro, .ro, .ro⟩,
  ⟨0x6000, 0x6000, 0x20, 0x20, .u8, .rw, .rw, .rw, .none⟩,
  ⟨0x6000, 0x6000, 0x21, 0x21, .domain, .rw, .rw, .rw, .ro⟩,
  ⟨0x6000, 0x6000, 0x22, 0x22, .u32, .ro, .ro, .ro, .ro⟩]

/-- Objects of index 0x6800 to 0x68FF. -/
def dict68 : List ObjEntry := [
  ⟨0x6800, 0x6800, 0x01, 0x01, .u8, .rw, .rw, .rw, .rw⟩,
  ⟨0x6800, 0x6800, 0x02, 0x02, .u8, .ro, .ro, .ro, .ro⟩,
  ⟨0x6800, 0x6800, 0x03, 0x03, .u64, .ro, .ro, .ro, .ro⟩,
  ⟨0x6800, 0x6800, 0x04, 0x04, .u64, .ro, .ro, .ro, .ro⟩,
  ⟨0x6800, 0x6800, 0x05, 0x05, .u64, .ro, .ro, .ro, .ro⟩,
  ⟨0x6800, 0x6800, 0x06, 0x06, .u8, .ro, .ro, .ro, .ro⟩,
  ⟨0x6800, 0x6800, 0x07, 0x07, .u16, .ro, .ro, .ro, .ro⟩,
  ⟨0x6800, 0x6800, 0x08, 0x08, .u64, .ro, .ro, .ro, .ro⟩,
  ⟨0x6800, 0x6800, 0x09, 0x09, .u64, .const, .const, .const, .const⟩]

/-- Objects of index 0x6900 to 0x69FF. -/
def dict69 : List ObjEntry := [
  ⟨0x6900, 0x6900, 0x01, 0x01, .u16, .ro, .ro, .ro, .ro⟩,
  ⟨0x6900, 0x6900, 0x02, 0x02, .u8, .rw, .rw, .rw, .none⟩,
  ⟨0x6900, 0x6900, 0x03, 0x03, .u64, .ro, .ro, .ro, .ro⟩,
  ⟨0x6900, 0x6900, 0x04, 0x04, .u64, .ro, .ro, .ro, .ro⟩,
  ⟨0x6900, 0x6900, 0x05, 0x05, .u32, .ro, .ro, .ro, .ro⟩,
  ⟨0x6900, 0x6900, 0x06, 0x06, .u32, .ro, .ro, .ro, .ro⟩,
  ⟨0x6900, 0x6900, 0x07, 0x07, .u32, .ro, .ro, .ro, .ro⟩,
  ⟨0x6900, 0x6900, 0x08, 0x08, .u32, .ro, .ro, .ro, .ro⟩,
  ⟨0x6900, 0x6900, 0x09, 0x09, .u32, .ro, .ro, .ro, .ro⟩,
  ⟨0x6900, 0x6900, 0x0A, 0x0A, .u32, .ro, .ro, .ro, .ro⟩,
  ⟨0x6900, 0x6900, 0x0B, 0x0B, .u64, .ro, .ro, .ro, .ro⟩,
  ⟨0x6900, 0x6900, 0x0C, 0x0C, .u64, .none, .cmd, .cmd, .none⟩]

/-- Objects of index 0x7000 to 0x70FF. -/
def dict70 : List ObjEntry := [
  ⟨0x7000, 0x7000, 0x01, 0x01, .u32, .ro, .ro, .ro, .ro⟩,
  ⟨0x7000, 0x7000, 0x02, 0x02, .u32, .ro, .ro, .ro, .ro⟩,
  ⟨0x7000, 0x7000, 0x10, 0x10, .domain, .rws, .ro, .ro, .ro⟩,
  ⟨0x7000, 0x7000, 0x11, 0x11, .domain, .ro, .ro, .ro, .ro⟩,
  ⟨0x7000, 0x7000, 0x20, 0x20, .u8, .cmd, .none, .none, .none⟩,
  ⟨0x7000, 0x7000, 0x21, 0x21, .u64, .ro, .ro, .ro, .ro⟩,
  ⟨0x7000, 0x7000, 0x22, 0x22, .u64, .ro, .ro, .ro, .ro⟩,
  ⟨0x7000, 0x7000, 0x30, 0x30, .domain, .wo, .wo, .wo, .none⟩,
  ⟨0x7000, 0x7000, 0x31, 0x31, .domain, .ro, .ro, .ro, .none⟩,
  ⟨0x7000, 0x7000, 0x32, 0x32, .u8, .rw, .rw, .rw, .none⟩]

/-- Objects of index 0x8000 to 0x80FF. -/
def dict80 : List ObjEntry := [
  ⟨0x8000, 0x8000, 0x01, 0x04, .domain, .ro, .ro, .ro, .ro⟩,
  ⟨0x8000, 0x8000, 0x10, 0x10, .u32, .rws, .rws, .ro, .ro⟩,
  ⟨0x8000, 0x8000, 0x11, 0x11, .u8, .rws, .rws, .ro, .ro⟩,
  ⟨0x8000, 0x8000, 0x12, 0x12, .u64, .ro, .ro, .ro, .ro⟩,
  ⟨0x8000, 0x8000, 0x14, 0x14, .u64, .ro, .ro, .ro, .ro⟩,
  ⟨0x8000, 0x8000, 0x20, 0x20, .domain, .ro, .ro, .ro, .ro⟩,
  ⟨0x8000, 0x8000, 0x21, 0x24, .u64, .ro, .ro, .ro, .ro⟩,
  ⟨0x8000, 0x8000, 0x30, 0x30, .u8, .rw, .rw, .rw, .none⟩,
  ⟨0x8000, 0x8000, 0x31, 0x31, .u64, .ro, .ro, .ro, .ro⟩,
  ⟨0x8000, 0x8000, 0x32, 0x32, .u64, .ro, .ro, .ro, .ro⟩,
  ⟨0x8000, 0x8000, 0x33, 0x33, .u64, .ro, .ro, .ro, .ro⟩,
  ⟨0x8000, 0x8000, 0x34, 0x34, .u64, .ro, .ro, .ro, .ro⟩]

/-- Objects of index 0x9000 to 0x90FF. -/
def dict90 : List ObjEntry := [
  ⟨0x9000, 0x9000, 0x01, 0x01, .domain, .ro, .ro, .ro, .ro⟩,
  ⟨0x9000, 0x9000, 0x03, 0x03, .u64, .ro, .ro, .ro, .ro⟩,
  ⟨0x9000, 0x9000, 0x04, 0x04, .u64, .ro, .ro, .ro, .ro⟩,
  ⟨0x9000, 0x9000, 0x20, 0x3F, .u32, .ro, .ro, .ro, .ro⟩]

/-- Objects of index 0x9100 to 0x91FF. -/
def dict91 : List ObjEntry := [
  ⟨0x9100, 0x9100, 0x01, 0x01, .u8, .rw, .rw, .rw, .none⟩,
  ⟨0x9100, 0x9100, 0x02, 0x02, .domain, .rw, .rw, .ro, .ro⟩,
  ⟨0x9100, 0x9100, 0x03, 0x03, .u8, .ro, .ro, .ro, .ro⟩,
  ⟨0x9100, 0x9100, 0x04, 0x04, .domain, .ro, .ro, .ro, .ro⟩,
  ⟨0x9100, 0x9100, 0x05, 0x05, .u32, .ro, .ro, .ro, .ro⟩,
  ⟨0x9100, 0x9100, 0x06, 0x06, .u32, .rws, .rws, .ro, .ro⟩,
  ⟨0x9100, 0x9100, 0x07, 0x07, .u16, .rws, .rws, .ro, .ro⟩,
  ⟨0x9100, 0x9100, 0x09, 0x09, .u32, .none, .cmd, .cmd, .none⟩,
  ⟨0x9100, 0x9100, 0x0A, 0x0A, .u8, .ro, .ro, .ro, .ro⟩,
  ⟨0x9100, 0x9100, 0x0B, 0x0B, .u64, .ro, .ro, .ro, .ro⟩,
  ⟨0x9100, 0x9100, 0x0C, 0x0C, .u64, .ro, .ro, .ro, .ro⟩,
  ⟨0x9100, 0x9100, 0x0D, 0x0D, .u64, .ro, .ro, .ro, .ro⟩]

/-- Objects of index 0xA000 to 0xA0FF. -/
def dictA0 : List ObjEntry := [
  ⟨0xA000, 0xA000, 0x01, 0x01, .u8, .ro, .ro, .ro, .ro⟩,
  ⟨0xA000, 0xA000, 0x02, 0x02, .u16, .ro, .ro, .ro, .ro⟩,
  ⟨0xA000, 0xA000, 0x03, 0x03, .domain, .ro, .ro, .ro, .ro⟩,
  ⟨0xA000, 0xA000, 0x04, 0x04, .u32, .ro, .ro, .ro, .ro⟩,
  ⟨0xA000, 0xA000, 0x05, 0x05, .u32, .ro, .ro, .ro, .ro⟩,
  ⟨0xA000, 0xA000, 0x06, 0x06, .u32, .ro, .ro, .ro, .ro⟩,
  ⟨0xA000, 0xA000, 0x07, 0x07, .i32, .ro, .ro, .ro, .ro⟩,
  ⟨0xA000, 0xA000, 0x08, 0x08, .u8, .ro, .ro, .ro, .ro⟩,
  ⟨0xA000, 0xA000, 0x09, 0x09, .i32, .ro, .ro, .ro, .ro⟩,
  ⟨0xA000, 0xA000, 0x0A, 0x0A, .u32, .ro, .ro, .ro, .ro⟩,
  ⟨0xA000, 0xA000, 0x0B, 0x0B, .u32, .ro, .ro, .ro, .ro⟩,
  ⟨0xA000, 0xA000, 0x0D, 0x0D, .u64, .ro, .ro, .ro, .ro⟩,
  ⟨0xA000, 0xA000, 0x0E, 0x0E, .u32, .ro, .ro, .ro, .ro⟩,
  ⟨0xA000, 0xA000, 0x10, 0x10, .u8, .rw, .rw, .rw, .rw⟩,
  ⟨0xA000, 0xA000, 0x11, 0x11, .i32, .ro, .ro, .ro, .ro⟩,
  ⟨0xA000, 0xA000, 0x20, 0x20, .u8, .cmd, .cmd, .cmd, .none⟩,
  ⟨0xA000, 0xA000, 0x30, 0x30, .domain, .wo, .none, .none, .none⟩,
  ⟨0xA000, 0xA000, 0x31, 0x31, .u8, .ro, .ro, .ro, .ro⟩,
  ⟨0xA000, 0xA000, 0x32, 0x32, .u8, .rws, .ro, .ro, .ro⟩,
  ⟨0xA000, 0xA000, 0x33, 0x33, .u32, .ro, .ro, .ro, .ro⟩,
  ⟨0xA000, 0xA000, 0x34, 0x34, .u32, .ro, .ro, .ro, .ro⟩,
  ⟨0xA000, 0xA000, 0x35, 0x35, .u8, .ro, .ro, .ro, .ro⟩]

/-- The dictionary, but for subindex 0 of indexes with other subindexes and the index range 0xF000 (R349). -/
def dictionary : List ObjEntry :=
  dict10 ++ dict11 ++ dict12 ++ dict20 ++ dict21 ++ dict30 ++ dict31 ++ dict32 ++ dict34 ++ dict35 ++ dict36 ++ dict40 ++ dict50 ++ dict58 ++ dict59 ++ dict60 ++ dict68 ++ dict69 ++ dict70 ++ dict80 ++ dict90 ++ dict91 ++ dictA0

/-- The entry of an index:subindex (R349). -/
def objFind (index sub : Nat) : Option ObjEntry :=
  dictionary.find? (fun e => decide (e.lo ≤ index) && decide (index ≤ e.hi) && decide (e.s0 ≤ sub) && decide (sub ≤ e.s1))

/-- The index holds objects at subindexes other than 0. -/
def indexHasSubs (index : Nat) : Bool :=
  dictionary.any (fun e => decide (e.lo ≤ index) && decide (index ≤ e.hi) && decide (0 < e.s1))

/-- The highest subindex of an index, which subindex 0 reads as a U8 (R349). -/
def highestSub (index : Nat) : Nat :=
  (dictionary.filter (fun e => decide (e.lo ≤ index) && decide (index ≤ e.hi))).foldl (fun m e => max m e.s1) 0

/-- The object exists, or lies in the vendor range (R349). -/
def objExists (index sub : Nat) : Bool :=
  (objFind index sub).isSome || (sub == 0 && indexHasSubs index) || index == 0xF000

/-- The access code for a role, and for the plot of a PO (R351): for an index 0x4000+n the PO column is that of plot n only. -/
def objAcc (index sub : Nat) (r : Role) (plot : Nat) : Acc :=
  if index = 0xF000 then .none
  else match objFind index sub with
    | some e => match r with
      | .so => e.so
      | .fm => e.fm
      | .po => if 0x4000 ≤ index ∧ index ≤ 0x401F ∧ index - 0x4000 ≠ plot then .none else e.po
      | .ob => e.ob
    | none => .const

def Acc.reads : Acc → Bool
  | .const | .ro | .rw | .rws => true
  | _ => false
def Acc.writes : Acc → Bool
  | .rw | .rws | .wo => true
  | _ => false

/-- Bytes of a type; none for DOMAIN (Table 15.2). -/
def ObjTy.size : ObjTy → Option Nat
  | .bool | .u8 => some 1
  | .u16 => some 2
  | .u32 | .i32 | .f32 | .handle => some 4
  | .u64 | .i64 => some 8
  | .bits256 | .str32 => some 32
  | .domain => none

end Sys2Proof.Machine
end

