-- ==== Sys2Proof/Machine/KioskOps.lean ====
section
/-! DEFINITION. The Kiosk as every write and command meets it: the checks of R359 in their order, responses (R358), DOMAIN segments
(R357), writes that go through the journal (R362) and the closing of sessions (R356). -/

namespace Sys2Proof.Machine

/-! ### Answers -/

/-- Hand every message queued towards the client of a session to its transport, oldest first (log entry 17). -/
def flushOut (s : State) (k : Nat) : State :=
  let q := (sessAt s k).outq
  let s := modSess s k (fun x => { x with outq := [] })
  { s with out := s.out ++ q.map (Out.kiosk k) }

/-- Queue a message towards the client of a session and hand it over; in-band messages advance MCTR (R355). -/
def sendMsg (s : State) (k : Nat) (m : KMsg) : State :=
  let s := modSess s k (fun x => { x with outq := x.outq ++ [m], mctrOut := if x.transport == .inband then x.mctrOut + 1 else x.mctrOut })
  flushOut s k

/-- A non-OK response or a discarded message counts in 0x1100:07 (R366). -/
def countRefusal (s : State) : State := { s with kiosk := { s.kiosk with refusals := s.kiosk.refusals + 1 } }

/-- The one response of a request, with its SEQ (R358). -/
def respond (s : State) (q : KReq) (st : U16) (param : BitVec 32) (body : List Byte) : State :=
  let s := if st == stOk then s else countRefusal s
  sendMsg s q.slot { notify := false, seq := q.seq, status := st, param := param, body := body }

/-- The request is answered OK. -/
def accept (s : State) (q : KReq) : State := respond s q stOk 0 []
/-- The request is refused with a status; it changes nothing else (R352). -/
def refuse (s : State) (q : KReq) (st : U16) : State := respond s q st 0 []

/-! ### The checks of R359 -/

/-- The Kiosk is ready on every transport (R400: step 11 after Kiosk ready). -/
def kioskReady (s : State) : Bool := s.power.step == 11 && !s.power.stopped

/-- The outcome of the checks that come before an object's own. -/
inductive GateRes where
  | pass
  | refuse (st : U16)
  | discard
deriving DecidableEq, Repr

/-- Checks 1 and 2: header, session and MAC (R354, R355). A request that names no open session, and an in-band one whose MAC or
MCTR fails, is discarded unanswered. Log entry 18. -/
def gateSession (s : State) (q : KReq) : GateRes :=
  let x := sessAt s q.slot
  if !q.wellFormed then .refuse stKioskMalformed
  else if !x.isOpen then .discard
  else if x.transport == .inband && !(x.authed && q.macOk && decide (x.mctrIn.toNat < q.mctr.toNat)) then .discard
  else .pass

/-- Checks 1 to 7 for a write or command of an object, `size` being its type's (R359). -/
def gateObj (s : State) (q : KReq) (index sub : Nat) (command cold : Bool) : GateRes :=
  let x := sessAt s q.slot
  match gateSession s q with
  | .pass =>
    if x.transport == .i3c then .refuse stKioskAccess
    else if !kioskReady s then .refuse stKioskNotReady
    else if !objExists index sub then .refuse stKioskNoObject
    else
      let a := objAcc index sub x.role x.plot
      if !(if command then a == .cmd else a.writes) then .refuse stKioskAccess
      else if s.gate.state == 2 && !cold then .refuse stZeroised
      else match (objFind index sub).bind (fun e => e.ty.size) with
        | some n => if q.len = n then .pass else .refuse stKioskType
        | none => .pass
  | r => r

/-- A request has been heard on its session: its MCTR is the last one received. A malformed one is not heard. -/
def heardReq (s : State) (q : KReq) : State :=
  if gateSession s q == .pass then modSess s q.slot (fun x => if x.transport == .inband then { x with mctrIn := q.mctr } else x) else s

/-- A message discarded unanswered: counted, and KIOSK_AUTH_FAIL for an in-band one (R355). -/
def discardReq (s : State) (q : KReq) : State :=
  let s := countRefusal s
  if (sessAt s q.slot).isOpen then emit s rkKioskAuthFail srcMgmt none [] else s

/-- A write or command: the checks of R359, then `act`, which answers. -/
def kioskReq (s : State) (q : KReq) (index sub : Nat) (command : Bool) (act : State → Session → State) : State :=
  match gateObj s q index sub command false with
  | .pass => act (heardReq s q) (sessAt s q.slot)
  | .refuse st => refuse (heardReq s q) q st
  | .discard => discardReq s q

/-- A write answered by the Kiosk as its object's condition says: OK with the new state, or refused with a status. -/
def answer (s : State) (q : KReq) (r : Except U16 State) : State :=
  match r with
  | .ok s' => accept s' q
  | .error st => refuse s q st

/-- A command whose own condition gives its status, and which changes the state only on OK. -/
def kioskCmd (s : State) (q : KReq) (index sub : Nat) (command : Bool) (f : State → Session → Except U16 State) : State :=
  kioskReq s q index sub command (fun s x => answer s q (f s x))

/-! ### Rights over units (R351, R173, R193) -/

/-- SO and FM act on every plot, a PO on its own (Table 14.5). -/
def ownsPlot (x : Session) (n : Nat) : Bool := x.role == .so || x.role == .fm || (x.role == .po && x.plot == n)

/-- The session may act on a pavilion: on no disabled one, which no command reaches (R18), and a PO only on those of its plot's mask
(R173). -/
def ownsPav (s : State) (x : Session) (i : Nat) : Bool := s.enableMap.getLsbD i && (x.role != .po || (plotAt s x.plot).pavMask.getLsbD i)

/-! ### DOMAIN writes (R357) -/

def changeKey (index sub : Nat) : Nat := index * 256 + sub

/-- The change count of a DOMAIN object advances (Table 15.5). -/
def bumpChange (s : State) (index sub : Nat) : State :=
  { s with kiosk := { s.kiosk with changes := tblMod 0 s.kiosk.changes (changeKey index sub) (· + 1) } }

/-- One segment of a DOMAIN write: staged, or, with LAST set, handed whole to `act`. -/
def domSegment (s : State) (q : KReq) (index sub limit : Nat) (d : DomSeg) (act : State → List Byte → State) : State :=
  let x := sessAt s q.slot
  let have_ := match x.staging with
    | some g => if g.index.toNat = index ∧ g.sub.toNat = sub then g.data else []
    | none => []
  if d.offset ≠ have_.length then refuse (modSess s q.slot (fun x => { x with staging := none })) q stDomainSeq
  else
    let all := have_ ++ d.data
    if limit < all.length then refuse s q stKioskRange
    else if d.last then act (modSess s q.slot (fun x => { x with staging := none })) all
    else accept (modSess s q.slot (fun x => { x with
      staging := some { index := BitVec.ofNat 16 index, sub := BitVec.ofNat 8 sub, data := all } })) q

/-- A DOMAIN write: the checks of R359, its segments, and the object's own condition on the whole value. -/
def kioskDom (s : State) (q : KReq) (index sub limit : Nat) (d : DomSeg) (f : State → Session → List Byte → Except U16 State) : State :=
  kioskReq s q index sub false (fun s x => domSegment s q index sub limit d (fun s all =>
    match f s x all with
    | .ok s' => accept (bumpChange s' index sub) q
    | .error st => refuse s q st))

/-! ### Writes of RWS objects (R362) -/

/-- An accepted write of an RWS object waits for its snapshot; the writer is answered after it. -/
def journalWrite (s : State) (q : KReq) (index sub sel : Nat) (value : List Byte) : State :=
  let e : JEntry := { index := BitVec.ofNat 16 index, sub := BitVec.ofNat 8 sub, value := value }
  let p : JPend := { slot := some q.slot, seq := q.seq, sel := sel, entry := some e }
  { s with journal := { s.journal with pend := s.journal.pend ++ [p] } }

/-- A write of an RWS object: the checks of R359, the object's own condition, then the journal. -/
def kioskRws (s : State) (q : KReq) (index sub sel : Nat) (value : List Byte) (f : State → Session → Option U16) : State :=
  kioskReq s q index sub false (fun s x => match f s x with
    | some st => refuse s q st
    | none => journalWrite s q index sub sel value)

/-! ### Sessions (R354, R356) -/

/-- Open sessions, counting I3C (0x1100:01). -/
def openSessions (s : State) : Nat := ((List.range 8).filter (fun k => (sessAt s k).isOpen)).length

/-- A closed session loses its selectors, subscriptions, staged writes and queued notifications; its slot is free (R356). A snapshot
that it asked for runs, and answers nobody. -/
def closeSlot (s : State) (k : Nat) : State :=
  if k = 7 then s
  else
    let s := setSess s k {}
    { s with journal := { s.journal with pend := s.journal.pend.map (fun p => if p.slot == some k then { p with slot := none } else p) } }

/-- Close every in-band session of a link that leaves ACTIVE (R356). -/
def closeLinkSessions (s : State) (l : Nat) : State :=
  (List.range 7).foldl (fun s k => let x := sessAt s k
    if x.isOpen && x.transport == .inband && x.link == l then closeSlot s k else s) s

end Sys2Proof.Machine
end

