-- ==== Sys2Proof/Machine/Net.lean ====
section
/-! DEFINITION. Packets as every port meets them: the checks of R290 in their order, the route of R314, hand-off to a link (R304,
R335), windows (R295, R296) and the loss of a link (R303). A packet is acted on once all its flits stand at ingress. Log entry 19. -/

namespace Sys2Proof.Machine

/-! ### Opcodes (Table 12.3) -/

def opSeg : BitVec 8 := 0x01
def opConfirm : BitVec 8 := 0x02
def opRetract : BitVec 8 := 0x03
def opPsmsg : BitVec 8 := 0x04
def opP2p : BitVec 8 := 0x05
def opE2eAck : BitVec 8 := 0x06
def opB2Launch : BitVec 8 := 0x07
def opB2Status : BitVec 8 := 0x08
def opLodge : BitVec 8 := 0x09
def opKiosk : BitVec 8 := 0x0A
def opTelemetry : BitVec 8 := 0x0B
def opStream : BitVec 8 := 0x0C

/-- OPC, VC, CLASS and LEN agree (Table 12.3). -/
def shapeOk (opc vc cls len : Nat) : Bool :=
  match opc with
  | 1 => (vc == 2 || vc == 3) && cls == 0 && decide (len ≤ 16)
  | 2 => vc == 1 && cls == 0 && len == 0
  | 3 => vc == 1 && cls == 0 && len == 0
  | 4 => (((vc == 2 || vc == 3) && cls == 0) || (vc == 7 && cls == 2)) && decide (len ≤ 16)
  | 5 => (vc == 4 || vc == 5) && cls == 1 && decide (len ≤ 16)
  | 6 => vc == 1 && cls == 1 && len == 0
  | 7 => vc == 4 && cls == 1 && len == 1
  | 8 => vc == 5 && cls == 1 && len == 0
  | 9 => vc == 0 && cls == 3 && decide (len ≤ 16)
  | 10 => vc == 6 && cls == 3 && decide (len ≤ 16)
  | 11 => vc == 6 && cls == 3 && decide (len ≤ 16)
  | 12 => vc == 7 && cls == 2 && decide (len ≤ 16)
  | _ => false

/-- The reserved low bits of an operation header (Tables 8.5, 10.9, 12.5 and 16.7). -/
def rsvBits (opc : Nat) : Nat :=
  match opc with
  | 1 => 110
  | 2 => 110
  | 3 => 110
  | 4 => 76
  | 5 => 108
  | 6 => 108
  | 7 => 108
  | 8 => 108
  | 9 => 135
  | 12 => 108
  | _ => 0

/-- The reserved bits of an operation header are zero: its low bits, [146:144] of a PSMSG and [102:96] of a KIOSK (Tables 8.5, 10.9, 12.5,
15.4 and 16.7). -/
def opRsvOk (p : Pkt) : Bool :=
  fieldN p.op.toNat 0 (rsvBits p.opc.toNat) == 0 && (p.opc != opPsmsg || field p.op 144 3 == 0) && (p.opc != opKiosk || field p.op 96 7 == 0)

/-- BYTES of Table 12.5. -/
def p2pBytes (p : Pkt) : Nat := field p.op 220 12
/-- SRC of Table 12.5. -/
def p2pSrc (p : Pkt) : BitVec 24 := p.op.extractLsb' 232 24
/-- INC of Table 12.5. -/
def p2pInc (p : Pkt) : Nat := field p.op 204 16

/-- Check 1 of R290, of what a packet's header says. -/
def headerOk (p : Pkt) : Bool :=
  p.dest != 0xFFFFFF && shapeOk p.opc.toNat p.vc.toNat p.cls.toNat p.len.toNat && opRsvOk p &&
  (p.ext == 0 || p.opc == opRetract || p.opc == opB2Status) &&
  decide (p.body.length ≤ 240 * p.len.toNat) &&
  (!(p.opc == opP2p || p.opc == opB2Launch || p.opc == opStream) || p.len.toNat == (p2pBytes p + 239) / 240)

/-! ### Programs' frames and reservations (R156, R319) -/

/-- The budget-table index that program frame `f` applies to (Table 6.1). -/
def budgetIndex (img : Image) (f : Nat) : Nat := if f < img.nframe then f else img.nframe - img.pcyc + (f - img.nframe) % img.pcyc

/-- The budget-table index of the present frame, when the plot has a started program. -/
def frameNow (s : State) (n : Nat) : Option Nat :=
  match (plotAt s n).image with
  | none => none
  | some img =>
    let st := (plotAt s n).state
    if (st = 2 ∨ st = 3) ∧ (plotAt s n).startFrame.toNat ≤ s.sd.ticks.toNat then some (budgetIndex img (programFrame s n)) else none

/-- The link of a reservation entry of plot-relative port `j`. -/
def rsvLink (s : State) (n j : Nat) (half : Bool) : Option Nat := (portsOfPlot s n)[j]?.map (fun p => 2 * p + bit half)

/-- The reservation entries of a plot active in the present frame, each with its link (R319). -/
def activeRsvs (s : State) (n : Nat) : List (Nat × RsvEntry) :=
  match (plotAt s n).image, frameNow s n with
  | some img, some f =>
    img.rsvs.flatMap (fun sec => sec.2.filterMap (fun e =>
      if e.f0 ≤ f ∧ f < e.f0 + e.nf then (rsvLink s n sec.1 e.half).map (fun l => (l, e)) else none))
  | _, _ => []

/-- The egress entry of its plot that reserves a packet on a link (R320). -/
def egressRsv (s : State) (l : Nat) (p : Pkt) : Option RsvEntry :=
  ((activeRsvs s p.plot.toNat).find? (fun e => e.1 == l && !e.2.ingress && e.2.vc == p.vc.toNat && e.2.tag == p.tag)).map (·.2)

/-! ### Routing (R309, R314, R315) -/

inductive RouteRes where
  | consume
  | deliver
  | noRoute
  | turn
  | out (l : Nat)
deriving DecidableEq, Repr

/-- The opcode is hashed (R315). -/
def hashed (opc : BitVec 8) : Bool :=
  opc == opP2p || opc == opB2Launch || opc == opB2Status || opc == opStream || opc == opSeg || opc == opPsmsg

/-- The index of the spray hash (R315). -/
def sprayIdx (p : Pkt) (src : Option Nat) : Nat :=
  if p.opc == opSeg || p.opc == opPsmsg then
    (src.getD 0xFF) * 2 ^ 56 + p.dest.toNat * 2 ^ 32 + (if p.opc == opSeg then p.tag.toNat else 0) * 2 ^ 16
  else (p2pSrc p).toNat * 2 ^ 40 + p.dest.toNat * 2 ^ 16 + field p.op 156 16

/-- The spray hash: bits [63:48] of the generator of R79 with the plot's spray key (R315). -/
def sprayHash (s : State) (p : Pkt) (src : Option Nat) : Nat :=
  genBits (plotAt s p.plot.toNat).sprayKey 0 (BitVec.ofNat 32 p.plot.toNat) (sprayIdx p src)

def upLink (s : State) (l : Nat) : Bool := s.route.dirEff.getLsbD l

/-- The output link of a packet, chosen once (R314). `src` is the arrival link, none for a packet the module originates. -/
def routeOf (s : State) (src : Option Nat) (p : Pkt) : RouteRes :=
  if p.dest == 0xFFFFFE then .consume
  else if s.route.self != 0x00FFFFFF && p.dest == s.route.self.extractLsb' 0 24 then .deliver
  else
    let turnCut (c : List Nat) : List Nat := match src with
      | some l => if upLink s l then c.filter (fun k => !upLink s k) else c
      | none => c
    match (activeRsvs s p.plot.toNat).find? (fun e => e.2.pin && !e.2.ingress && e.2.vc == p.vc.toNat && e.2.tag == p.tag) with
    | some e => match turnCut [e.1] with
      | l :: _ => .out l
      | [] => .turn
    | none =>
      match s.route.tableEff.find? (fun e => decide (e.lo.toNat ≤ p.dest.toNat) && decide (p.dest.toNat ≤ e.hi.toNat)) with
      | none => .noRoute
      | some e =>
        if e.links = 0 then .noRoute
        else match turnCut (bitsSet e.links 128) with
          | [] => .turn
          | l :: r =>
            let c := l :: r
            if e.spray && hashed p.opc then .out (c.getD (sprayHash s p src * c.length / 2 ^ 16) l) else .out l

/-- The SPRAY entry over whose links a packet is hashed (R314, R315). -/
def sprayEntry (s : State) (p : Pkt) : Option Nat :=
  if !hashed p.opc || (activeRsvs s p.plot.toNat).any (fun e => e.2.pin && !e.2.ingress && e.2.vc == p.vc.toNat && e.2.tag == p.tag) then none
  else (s.route.tableEff.findIdx? (fun e => decide (e.lo.toNat ≤ p.dest.toNat) && decide (p.dest.toNat ≤ e.hi.toNat))).filter
    (fun i => ((s.route.tableEff[i]?).map (·.spray)).getD false)

/-! ### Records raised at most once per link or port in a frame -/

def sayOnce (s : State) (l : Nat) (k : RecKind) (src : Src) (plot : Option Nat) (args : List (Nat × Nat)) : State :=
  if (linkAt s l).saidCodes.contains k.code then s
  else emit (modLink s l (fun x => { x with saidCodes := x.saidCodes ++ [k.code] })) k src plot args

/-- As `sayOnce`, at most once for both halves of a port (R384, Table 14.4). -/
def sayOncePort (s : State) (l : Nat) (k : RecKind) (src : Src) (plot : Option Nat) (args : List (Nat × Nat)) : State :=
  if (linkAt s (2 * linkPort l)).saidCodes.contains k.code || (linkAt s (2 * linkPort l + 1)).saidCodes.contains k.code then s
  else sayOnce s l k src plot args

/-- A packet dropped at a link, counted in 0x3000+n:0C (R290). -/
def dropAt (s : State) (l : Nat) : State := modLink s l (fun x => { x with dropped := x.dropped + 1 })

/-- The link is ACTIVE. -/
def active (s : State) (l : Nat) : Bool := (linkAt s l).state == 6

/-- A packet of this plot on this VC is encrypted on the link (R299). -/
def encrypted (x : Link) (p : Pkt) : Bool :=
  x.encMask.getLsbD p.plot.toNat && ((decide (1 ≤ p.vc.toNat) && decide (p.vc.toNat ≤ 5)) || p.vc == 7)

/-! ### Hand-off to a link (R304, R335) -/

/-- A packet of a collective that a descriptor of its plot takes part in, by plot, opcode and TAG (R184). -/
def forDescriptor (s : State) (n : Nat) (opc : BitVec 8) (tag : BitVec 16) : Bool :=
  [opSeg, opConfirm, opRetract].contains opc && s.coll.dies.any (fun e => e.2.descs.any (fun d => d.2.plot == n && d.2.img.extractLsb' 399 16 == tag))

/-- A flit of a packet is sent or received: for a descriptor, its plot's frame does not qualify (R184). -/
def movedBy (s : State) (n : Nat) (opc : BitVec 8) (tag : BitVec 16) : State := if forDescriptor s n opc tag then moved s n else s

/-- Hand a packet to a link's sender: discarded where the link is not ACTIVE, and refused at the egress port where its plot does
not own the port. VC6 packets belong to the module subscriber and pass. Log entry 20. -/
def handOff (s : State) (l source : Nat) (p : Pkt) : State :=
  if !active s l then dropAt s l
  else if p.vc != 6 && !(plotAt s p.plot.toNat).portMask.getLsbD (linkPort l) then
    let s := { s with gate := { s.gate with violations := s.gate.violations + 1 } }
    containedHold (emit s rkPlotViolation (srcLink l) (some p.plot.toNat) []) [p.plot.toNat] hcIsolation
  else
    modLink s l (fun x => { x with txq := x.txq ++ [{ pkt := p, source := source, spray := sprayEntry s p }] })

/-- Route a packet and hand it off; one addressed here is left to its caller. -/
def sendOut (s : State) (src : Option Nat) (p : Pkt) : State :=
  match routeOf s src p with
  | .out l => handOff s l (src.getD 128) p
  | .noRoute =>
    let s := { s with route := { s.route with noRoute := s.route.noRoute + 1 } }
    match src with
    | some l => sayOnce s l rkNoRoute (srcLink l) (some p.plot.toNat) []
    | none => emit s rkNoRoute srcModule (some p.plot.toNat) []
  | .turn =>
    let s := { s with route := { s.route with turns := s.route.turns + 1 } }
    match src with
    | some l => sayOnce s l rkRouteTurn (srcLink l) (some p.plot.toNat) []
    | none => s
  | _ => s

/-! ### LODGE headers (Table 16.7) -/

/-- The operation header of a LODGE packet. -/
def lodgeOp (domain : BitVec 32) (type epoch origin oidx subj part : Nat) (last : Bool) : BitVec 256 :=
  BitVec.ofNat 256 (domain.toNat * 2 ^ 224 + type * 2 ^ 220 + epoch * 2 ^ 204 + origin * 2 ^ 180 + oidx * 2 ^ 162 + subj * 2 ^ 144 +
    part * 2 ^ 136 + bit last * 2 ^ 135)

/-- A LODGE packet of plot `n`'s domain. -/
def lodgePkt (s : State) (n : Nat) (dest : BitVec 24) (type epoch origin oidx subj part : Nat) (last : Bool) (body : List Byte) : Pkt :=
  { vc := 0, cls := 3, plot := BitVec.ofNat 5 n, epoch := (plotAt s n).epoch, dest := dest, opc := opLodge,
    len := BitVec.ofNat 5 ((body.length + 239) / 240), op := lodgeOp (domAt s n).id type epoch origin oidx subj part last, body := body }

/-- This module's endpoint id. -/
def selfId (s : State) : BitVec 24 := s.route.self.extractLsb' 0 24

/-- A PULL sent on a link for a plot with a membership table (R384). -/
def sendPull (s : State) (l n : Nat) : State :=
  let d := domAt s n
  if d.state = 0 then s
  else handOff s l 128 (lodgePkt s n 0xFFFFFE 5 (plotAt s n).epoch.toNat (selfId s).toNat d.self 0x3FFFF 0 false [])

/-! ### Flits at ingress (R288–R290) -/

/-- The 128 bits of bytes 0–15 of a flit. -/
def flitHead (bs : List Byte) : Nat := numAt bs 0 16

/-- Bits [111:32] of bytes 0–15 of a packet's header flit (Table 12.1). -/
def hdrWord (p : Pkt) : Nat :=
  p.len.toNat * 2 ^ 75 + p.vc.toNat * 2 ^ 72 + p.cls.toNat * 2 ^ 70 + bit p.prov * 2 ^ 69 + p.plot.toNat * 2 ^ 64 + p.epoch.toNat * 2 ^ 48 +
    p.dest.toNat * 2 ^ 24 + p.opc.toNat * 2 ^ 16 + p.tag.toNat

/-- The oldest flits of the packet's VC, as many as the packet has. -/
def headFlits (x : Link) (p : Pkt) : List (List Byte) := (tblGet [] x.rx p.vc.toNat).take (p.len.toNat + 1)

/-- A header flit and its payload flits carry the packet (R289): in the clear, or with what encryption leaves in sight (R300). -/
def spells (enc : Bool) (p : Pkt) : List (List Byte) → Bool
  | [] => false
  | h :: r =>
    fieldN (flitHead h) 32 80 == hdrWord p && r.length == p.len.toNat && p.poison == r.any (fun f => fieldN (flitHead f) 73 1 == 1) &&
    (if enc then numAt h 239 1 == p.kgen.toNat && numAt h 235 4 == p.ctr.toNat
     else numAt h 16 32 == p.op.toNat && numAt h 48 2 == p.ext.toNat && r.flatMap (·.drop 16) == padTo (240 * p.len.toNat) p.body)

/-- Check 1 of R290, of a packet's flits: FT, FIDX 0 to LEN − 1 in order, and what is reserved or holds nothing is zero (Tables 12.1 and
12.2, R289, R300). -/
def flitsOk (enc : Bool) : List (List Byte) → Bool
  | [] => false
  | h :: r =>
    fieldN (flitHead h) 126 2 == 1 && (if enc then numAt h 224 11 == 0 else numAt h 50 206 == 0) &&
    ((List.range r.length).zip r).all (fun e => fieldN (flitHead e.2) 126 2 == 2 && fieldN (flitHead e.2) 74 4 == e.1 && fieldN (flitHead e.2) 32 41 == 0)

/-- The packet stands at the head of its VC's buffer, every flit of it confirmed, and is not held back there (R25, R289, R293). -/
def arrived (s : State) (l : Nat) (p : Pkt) : Bool :=
  let x := linkAt s l
  spells (encrypted x p) p (headFlits x p) && !x.pairWait.any (fun q => q.vc == p.vc) &&
    !(dieAt s (linkDie l)).held.any (fun h => h.link == l && h.pkt.vc == p.vc)

/-! ### Ingress (R290) -/

/-- The flits of a packet that has left ingress free their buffer, where the link layer holds them (R292). -/
def freeRx (s : State) (l : Nat) (p : Pkt) : State :=
  let q := tblGet [] (linkAt s l).rx p.vc.toNat
  let n := p.len.toNat + 1
  if q.length < n then s
  else modLink s l (fun x => { x with
    rx := tblSet x.rx p.vc.toNat (q.drop n), ret := tblMod 0 x.ret p.vc.toNat (· + BitVec.ofNat 16 n) })

/-- The key generation of an accepted packet replaces the one before it (R301). -/
def acceptGen (x : Link) (p : Pkt) : Link :=
  { x with keys := x.keys.map (fun k => if k.plot == p.plot.toNat && p.kgen == k.rxGen + 1 then { k with rxGen := p.kgen } else k) }

/-- The tag verifies and the generation is the one held or the next (R300, R301). -/
def authentic (x : Link) (p : Pkt) : Bool :=
  p.tagOk && x.keys.any (fun k => k.plot == p.plot.toNat && (p.kgen == k.rxGen || p.kgen == k.rxGen + 1))

/-- The checks of R290 on a packet that a link delivers: the state, and whether the packet passes. The flits of a dropped packet
are freed. -/
def ingress (s : State) (l : Nat) (p : Pkt) : State × Bool :=
  let n := p.plot.toNat
  if p.poison then (freeRx (dropAt s l) l p, false)
  else if !(flitsOk (encrypted (linkAt s l) p) (headFlits (linkAt s l) p) && headerOk p) then (freeRx (emit (dropAt s l) rkLinkHeader (srcLink l) (some n) []) l p, false)
  else if encrypted (linkAt s l) p && !authentic (linkAt s l) p then
    let s := modLink s l (fun x => { x with authFails := x.authFails + 1 })
    let s := emit s rkLinkAuthFail (srcLink l) (some n) []
    (freeRx (containedHold s [n] hcLink) l p, false)
  else
    let s := if encrypted (linkAt s l) p then modLink s l (fun x => acceptGen x p) else s
    let e := (plotAt s n).epoch
    if p.vc != 0 && p.vc != 6 && p.epoch != e then
      let s := modDom s n (fun d => { d with drops := d.drops + 1 })
      let s := sayOncePort s l rkEpochDrop (srcLink l) (some n) []
      let s := if e.toNat < p.epoch.toNat then sendPull s l n else s
      (freeRx s l p, false)
    else if !(plotAt s n).portMask.getLsbD (linkPort l) then
      let s := { dropAt s l with gate := { s.gate with foreign := s.gate.foreign + 1 } }
      (freeRx (sayOncePort s l rkPlotForeign (srcLink l) (some n) []) l p, false)
    else (s, true)

/-- The opcode is one of Table 12.3. -/
def opcKnown (o : BitVec 8) : Bool := decide (1 ≤ o.toNat) && decide (o.toNat ≤ 12)

/-- A packet's row: with the link ACTIVE, the packet arrived and the opcode the row's, the checks, then `act` on a packet that passes. A packet of a
reserved opcode has no row of its own; every row drops it at check 1. In any other case the event does not occur (log entry 2). -/
def onPacket (s : State) (l : Nat) (p : Pkt) (opcs : List (BitVec 8)) (act : State → State) : State :=
  if !active s l || !arrived s l p || (opcKnown p.opc && !opcs.contains p.opc) then s
  else
    let (s', ok) := ingress s l p
    if ok then act s' else s'

/-- A packet that is switched: routed on, or consumed here with nothing more to do. -/
def switchPkt (s : State) (l : Nat) (p : Pkt) : State := freeRx (sendOut s (some l) p) l p

/-- The packet ends on this module. -/
def endsHere (s : State) (l : Nat) (p : Pkt) : Bool :=
  match routeOf s (some l) p with
  | .consume => true
  | .deliver => true
  | _ => false

/-! ### Windows (R295, R296) -/

/-- The partner declared the endpoint role. -/
def partnerIsEndpoint (x : Link) : Bool := x.partner.getLsbD 24

/-- The port is split (R284). -/
def splitPort (s : State) (n : Nat) : Bool := (portAt s n).mode == 1

/-- The pairs a link can track: those of its port, or half of them on a split port (R284, R296). -/
def pairRoom (s : State) (l : Nat) : Nat := if splitPort s (linkPort l) then 512 else 1024

inductive Policed where
  | pass
  | drop
  | wait
deriving DecidableEq, Repr

/-- A P2P or B2_LAUNCH packet from an endpoint against its pair's window (R296). -/
def police (s : State) (l : Nat) (p : Pkt) : Policed :=
  let x := linkAt s l
  if !partnerIsEndpoint x then .pass
  else
    let w := (plotAt s p.plot.toNat).windowEff.toNat
    match x.pairs.find? (fun q => q.plot == p.plot.toNat && q.dest == p.dest) with
    | some q => if w < q.count + 1 then .drop else .pass
    | none => if w = 0 then .drop else if pairRoom s l ≤ x.pairs.length then .wait else .pass

/-- Count a packet of a pair. -/
def countPair (s : State) (l : Nat) (p : Pkt) : State :=
  let x := linkAt s l
  if !partnerIsEndpoint x then s
  else if x.pairs.any (fun q => q.plot == p.plot.toNat && q.dest == p.dest) then
    setLink s l { x with pairs := x.pairs.map (fun q => if q.plot == p.plot.toNat && q.dest == p.dest then { q with count := q.count + 1 } else q) }
  else setLink s l { x with pairs := x.pairs ++ [Pair.mk p.plot.toNat p.dest 1] }

/-- A packet beyond its window is dropped: counted, and reported once per pair in a frame (R296). -/
def windowDrop (s : State) (l : Nat) (p : Pkt) : State :=
  let x := linkAt s l
  let pair := (p.plot.toNat, p.dest)
  let s := { setLink s l { x with windowSaid := addNew x.windowSaid pair } with net := { s.net with windowDrops := s.net.windowDrops + 1 } }
  let s := if x.windowSaid.contains pair then s else emit s rkLinkWindow (srcLink l) (some p.plot.toNat) []
  freeRx s l p

/-- A packet for a new pair waits at ingress while the pair table is full (R296). -/
def pairStall (s : State) (l : Nat) (p : Pkt) : State :=
  let s := { s with net := { s.net with pairStalls := s.net.pairStalls + 1 } }
  modLink s l (fun x => { x with pairWait := x.pairWait ++ [p] })

/-- An E2E_ACK sent to an endpoint takes INC off the pair that names its SRC as destination; a pair at 0 leaves the table
(R296). -/
def ackPair (s : State) (l : Nat) (p : Pkt) : State :=
  modLink s l (fun x =>
    if !partnerIsEndpoint x then x
    else { x with pairs := (x.pairs.map (fun q =>
      if q.plot == p.plot.toNat && q.dest == p2pSrc p then { q with count := q.count - p2pInc p } else q)).filter (fun q => q.count != 0) })

/-- A packet accepted here is owed an E2E_ACK to its source (R295). -/
def oweAck (s : State) (l : Nat) (p : Pkt) : State :=
  modLink s l (fun x =>
    let n := p.plot.toNat
    let src := p2pSrc p
    if x.unacked.any (fun u => u.1 == n && u.2.1 == src) then
      { x with unacked := x.unacked.map (fun u => if u.1 == n && u.2.1 == src then (n, src, min 65535 (u.2.2 + 1)) else u) }
    else { x with unacked := x.unacked ++ [(n, src, 1)] })

/-- The E2E_ACK of R295 to a source, for `inc` packets. -/
def e2ePkt (s : State) (n : Nat) (src : BitVec 24) (inc : Nat) : Pkt :=
  { vc := 1, cls := 1, plot := BitVec.ofNat 5 n, epoch := (plotAt s n).epoch, dest := src, opc := opE2eAck, len := 0,
    op := BitVec.ofNat 256 ((selfId s).toNat * 2 ^ 232 + inc * 2 ^ 204) }

/-- The acknowledgements owed on a link go out (R295: at least once per frame). -/
def sendAcks (s : State) (l : Nat) : State :=
  let owed := (linkAt s l).unacked
  owed.foldl (fun s u =>
    let p := e2ePkt s u.1 u.2.1 u.2.2
    match routeOf s none p with
    | .out k => ackPair (handOff s k 128 p) k p
    | _ => sendOut s none p) (modLink s l (fun x => { x with unacked := [] }))

/-! ### Loss of a link (R303) -/

/-- An ordered set of a type, with its body from byte 16 and its CRC (R288, R297). -/
def orderedSet (type : Nat) (body : List Byte) : List Byte :=
  let rest := (natLe 16 (type * 2 ^ 120)).drop 4 ++ padTo 240 body
  natLe 4 (crc32c rest) ++ rest

def downSet (cause : BitVec 16) : List Byte := orderedSet 7 (natLe 2 cause.toNat)

/-- The ports a member table of a descriptor names lie behind the link: the plots concerned by its loss. A descriptor's member
table is read from HBM (R199). -/
def namesPort (s : State) (d : Desc) (l : Nat) : Bool :=
  let r := (plotAt s d.plot).region
  let base := field d.img 237 38
  (List.range (field d.img 381 18)).any (fun i =>
    let m := leNat (hbmRead s.hbm (regAddrs r (base + 8 * i) 8))
    match (portsOfPlot s d.plot)[fieldN m 32 6]? with
    | some p => 2 * p + bit (fieldN m 38 2 == 3) == l
    | none => false)

/-- The plots whose active image holds reservations on a link, or whose descriptors name it in a member table (R303). -/
def plotsOnLink (s : State) (l : Nat) : List Nat :=
  allPlots.filter (fun n =>
    (match (plotAt s n).image with
      | some img => img.rsvs.any (fun sec => sec.2.any (fun e => rsvLink s n sec.1 e.half == some l))
      | none => false) ||
    (List.range 16).any (fun j => (dieAt s j).descs.any (fun e => e.2.plot == n && namesPort s e.2 l)))

/-- What a link loses with its ACTIVE state: retry buffer, sequence and credit counts, packets waiting to be sent, packets cut
short at ingress. -/
def clearLink (x : Link) : Link :=
  { x with
    retry := [], replay := 0, replays := 0, seqTx := 0, seqRx := 0, rxAny := false, nakSaid := none, ackSaid := none, sent := [], retIn := [], ret := [],
    retSaid := [], rcvd := [], rx := [], txq := [], osq := [], cvc := 0, pairWait := [], retrain := none, stopped := false, stall := [],
    stallSaid := [], hbMissed := 0, hbHeard := false, lastSundial := none }

/-- The flits of a packet that a VC's buffer ends with, where not all of them have come. -/
def openFlits (q : List (List Byte)) : List (List Byte) :=
  match q.reverse.findIdx? (fun f => fieldN (flitHead f) 126 2 == 1) with
  | none => []
  | some i =>
    let fs := q.drop (q.length - 1 - i)
    match fs with
    | h :: r => if r.length < fieldN (flitHead h) 107 5 then fs else []
    | [] => []

/-- The packet of a header flit and the payload flits that have come of it, void (Table 12.1). -/
def cutPkt (h : List Byte) (r : List (List Byte)) : Pkt :=
  let v := flitHead h
  { vc := BitVec.ofNat 3 (fieldN v 104 3), cls := BitVec.ofNat 2 (fieldN v 102 2), prov := fieldN v 101 1 == 1, plot := BitVec.ofNat 5 (fieldN v 96 5),
    epoch := BitVec.ofNat 16 (fieldN v 80 16), dest := BitVec.ofNat 24 (fieldN v 56 24), opc := BitVec.ofNat 8 (fieldN v 48 8),
    tag := BitVec.ofNat 16 (fieldN v 32 16), len := BitVec.ofNat 5 (fieldN v 107 5), op := BitVec.ofNat 256 (numAt h 16 32),
    ext := BitVec.ofNat 16 (numAt h 48 2), body := r.flatMap (·.drop 16), poison := true }

/-- A packet being switched whose remaining flits can no longer arrive is completed on its way with payload flits that have PSN set (R303,
R307): the checks of R290 that its header decides have let it through. Log entry 113. -/
def completeCut (s : State) (l : Nat) (fs : List (List Byte)) : State :=
  match fs with
  | [] => s
  | h :: r =>
    let p := cutPkt h r
    let n := p.plot.toNat
    if flitsOk false fs && headerOk p && !encrypted (linkAt s l) p && (p.vc == 0 || p.vc == 6 || p.epoch == (plotAt s n).epoch) &&
        (plotAt s n).portMask.getLsbD (linkPort l) then
      match routeOf s (some l) p with
      | .out k => if k = l then s else handOff s k l p
      | _ => s
    else s

/-- The packets cut short on a link that goes down. -/
def completeCuts (s : State) (l : Nat) : State :=
  ((List.range 8).map (fun v => openFlits (tblGet [] (linkAt s l).rx v))).foldl (fun s fs => completeCut s l fs) s

/-- A link leaves ACTIVE with a cause: DOWN is sent where `tell`, the cause is kept, LINK_DOWN, and the plots concerned hold
(R303). Packets waiting for the link are discarded at it (R304). -/
def linkDown (s : State) (l : Nat) (cause : U16) (tell commanded : Bool) : State :=
  let s := completeCuts s l
  let x := linkAt s l
  let s := if tell then { s with out := s.out ++ [.wire l (downSet cause)] } else s
  let s := setLink s l { clearLink x with
    state := 0, downCause := cause, dropped := x.dropped + BitVec.ofNat 64 x.txq.length,
    attempts := if commanded then none else some 3, keyx := .idle, keys := [] }
  let s := emit s rkLinkDown (srcLink l) none [(16, cause.toNat)]
  let s := containedHold s (plotsOnLink s l) hcLink
  closeLinkSessions s l

end Sys2Proof.Machine
end

