-- ==== Sys2Proof/Machine/Keyx.lean ====
section
/-! DEFINITION. Key agreement on a link (R342, R343) and the installation of key generations (R301). The shares, signatures and MACs are
free values, and the verdicts on the partner's are operands. Log entry 7. -/

namespace Sys2Proof.Machine

/-- The Kiosk header of one segment of a KEYX message (R343, Table 15.4). -/
def keyxOp (msg total off len : Nat) (last : Bool) : BitVec 256 :=
  BitVec.ofNat 256 (0x30 * 2 ^ 248 + off * 2 ^ 120 + len * 2 ^ 104 + bit last * 2 ^ 103 + (msg + total * 2 ^ 8) * 2 ^ 64)

/-- Send a key-exchange message to the link partner: its bytes are free, cut into segments of 3,824 bytes. -/
def sendKeyx (s : State) (l msg : Nat) : State :=
  let body := (Config.keyxBody s.gate.keyxSent).take 65535
  let s := { s with gate := { s.gate with keyxSent := s.gate.keyxSent + 1 } }
  let segs := pieces 3824 body
  ((List.range segs.length).zip segs).foldl (fun s e =>
    let off := 3824 * e.1
    let n := e.2.length
    handOff s l 128 {
      vc := 6, cls := 3, dest := 0xFFFFFE, opc := opKiosk, len := BitVec.ofNat 5 ((n + 239) / 240),
      op := keyxOp msg body.length off n (e.1 + 1 == segs.length), body := e.2 }) s

/-- KEY_AGREE_FAIL: the link goes down (R342); in the exchange that follows KGEN 255 the keys stay and R301 applies. -/
def keyxFail (s : State) (l : Nat) : State :=
  let s := emit s rkKeyAgreeFail (srcLink l) none []
  if (linkAt s l).keys.isEmpty then linkDown s l stKeyAgreeFail true false else modLink s l (fun x => { x with keyx := .failed })

/-- A message that carries an ephemeral share: where the entropy source has failed none can be drawn, and the exchange fails (R340). -/
def drawKeyx (s : State) (l msg : Nat) (k : KeyxState) : State :=
  if s.gate.entropyFailed then keyxFail s l else sendKeyx (modLink s l (fun x => { x with keyx := k })) l msg

/-- This side has the lower endpoint id, and sends HELLO (R342). -/
def sendsHello (s : State) (l : Nat) : Bool := decide ((selfId s).toNat < ((linkAt s l).partner.extractLsb' 0 24).toNat)

/-- An exchange starts: the side with the lower endpoint id sends HELLO (R342). -/
def startKeyx (s : State) (l : Nat) : State :=
  if sendsHello s l then drawKeyx s l 1 .awaitResponse else modLink s l (fun x => { x with keyx := .awaitHello })

/-- The fresh exchange that follows KGEN 255: the lower side sends HELLO, and the other takes its partner's (R342; log entry 117). -/
def renewKeyx (s : State) (l : Nat) : State := if (linkAt s l).keyx == .agreed && sendsHello s l then drawKeyx s l 1 .awaitResponse else s

/-- Agreement completes: each encrypted plot has generation 0 of the new secret; after KGEN 255 it is the next one installed. -/
def keyxDone (s : State) (l : Nat) : State :=
  modLink s l (fun x => { x with
    keyx := .agreed,
    keys := if x.keys.isEmpty then (bitsSet x.encMask 32).map (fun n => { plot := n })
      else x.keys.map (fun k => if k.asked then { k with nextReady := true, stopped := false } else k) })

/-- The elements of a message have their types in order and their lengths (Table 14.10), and its length is within 65,535. -/
def keyxOk (m : KeyxMsg) (types : List Nat) : Bool :=
  let lenOk (e : Nat × Nat) : Bool :=
    match e.1 with
    | 1 => e.2 == 97
    | 2 => e.2 == 1568
    | 3 => e.2 == 1568
    | 4 => decide (e.2 ≤ 32768)
    | 5 => e.2 == 96
    | 6 => e.2 == 4627
    | _ => e.2 == 48
  m.inOrder && decide (m.total ≤ 65535) && m.elems.map (·.1) == types && m.elems.all lenOk &&
    m.total == sumN (m.elems.map (fun e => 6 + e.2)) && m.verdict

/-- A HELLO may open the exchange that follows KGEN 255 (R342). -/
def renewDue (x : Link) : Bool := x.keys.any (fun k => k.txGen == 255 || k.rxGen == 255)

/-- A message of the exchange: where one is in progress on an ACTIVE link, it is the one expected and well-formed, or the exchange
fails. -/
def keyxMsg (s : State) (l : Nat) (expect : KeyxState) (m : KeyxMsg) (types : List Nat) (act : State → State) : State :=
  let x := linkAt s l
  if !active s l || x.keyx == .idle || x.keyx == .failed then s
  else if x.keyx == .agreed then (if expect == .awaitHello && renewDue x && keyxOk m types then act s else s)
  else if x.keyx == expect && keyxOk m types then act s
  else keyxFail s l

/-- HELLO: the other side replies with RESPONSE. -/
def execHello (link : Nat) (m : KeyxMsg) (s : State) : Host.Outcome State Fault Refusal :=
  done (keyxMsg s link .awaitHello m [1, 2, 4, 5, 6] (fun s => drawKeyx s link 2 .awaitFinish))

/-- RESPONSE: the first side sends FINISH, and its exchange is complete. -/
def execResponse (link : Nat) (m : KeyxMsg) (s : State) : Host.Outcome State Fault Refusal :=
  done (keyxMsg s link .awaitResponse m [1, 3, 4, 5, 6] (fun s => keyxDone (sendKeyx s link 3) link))

/-- FINISH completes the exchange. -/
def execFinish (link : Nat) (m : KeyxMsg) (s : State) : Host.Outcome State Fault Refusal :=
  done (keyxMsg s link .awaitFinish m [7] (fun s => keyxDone s link))

/-- KEY_AGREE_TIMEOUT: agreement is not complete within 5 ms of ACTIVE. -/
def execKeyAgreeTimeout (link : Nat) (s : State) : Host.Outcome State Fault Refusal :=
  let k := (linkAt s link).keyx
  if active s link && (k == .awaitHello || k == .awaitResponse || k == .awaitFinish) then done (keyxFail s link) else done s

/-- The Gatehouse derives the next generation of this key from the link secret: it has been asked for, and is not past 255 (R301, R342). -/
def derivable (plot : Nat) (k : LinkKey) : Bool := k.plot == plot && k.asked && k.txGen != 255

/-- KEY_INSTALLED: the generation asked for is installed (R301). -/
def execKeyInstalled (link plot : Nat) (s : State) : Host.Outcome State Fault Refusal :=
  if (linkAt s link).keys.any (derivable plot) then
    done (modLink s link (fun x => { x with
      keys := x.keys.map (fun k => if derivable plot k then { k with nextReady := true, stopped := false } else k) }))
  else done s

end Sys2Proof.Machine
end

