-- ==== Sys2Proof/Machine/Links.lean ====
section
/-! DEFINITION. The Lunolum Fabric Link below the packet: flits in (R288, R292, R293, R297), acknowledgement and replay, bring-up
(R302), lane sparing (R287), and the ways out of ACTIVE (R303). -/

namespace Sys2Proof.Machine

/-! ### Flits in -/

/-- The CRC-32C of a flit of 256 bytes agrees (R288). -/
def flitCrcOk (bs : List Byte) : Bool := bs.length == 256 && numAt bs 0 4 == crc32c (bs.drop 4)

/-- LEN of the header flit that begins a VC's queue of a packet: payload flits still due, and the FIDX of the next one. -/
def openPacket (q : List (List Byte)) : Option Nat :=
  match q.reverse.findIdx? (fun f => fieldN (flitHead f) 126 2 == 1) with
  | none => none
  | some i =>
    match q.reverse[i]? with
    | none => none
    | some h => if i < fieldN (flitHead h) 107 5 then some i else none

/-- The VC of a payload flit: the lowest VC with an incomplete packet whose next FIDX is the flit's, or the lowest with an
incomplete packet. Log entry 21. -/
def payloadVc (x : Link) (fidx : Nat) : Option Nat :=
  let opened := (List.range 8).filterMap (fun v => (openPacket (tblGet [] x.rx v)).map (fun i => (v, i)))
  match opened.find? (fun e => e.2 == fidx) with
  | some e => some e.1
  | none => opened.head?.map (·.1)

/-- Flits up to ACKSEQ leave the retry buffer; progress ends a row of replays (R293). -/
def ackTo (x : Link) (ackseq : BitVec 14) : Link :=
  let oldest := x.seqTx - BitVec.ofNat 14 x.retry.length
  let n := (ackseq - oldest).toNat + 1
  if n ≤ x.retry.length then
    { x with retry := x.retry.drop n, replay := min x.replay (x.retry.length - n), replays := 0 }
  else x

/-- Core cycles of 4 µs, in which a NAK is not sent again for one value (R293). -/
def nakCycles : Nat := 7200

/-- A NAK is sent for the expected value, at most once per value in any 4 µs (R293). -/
def sendNak (s : State) (l cycle : Nat) : State :=
  let x := linkAt s l
  let now := s.sd.tickCycle + BitVec.ofNat 64 cycle
  let said := match x.nakSaid with
    | some (v, t) => v == x.seqRx && decide ((now - t).toNat < nakCycles)
    | none => false
  if said then s
  else setLink s l { x with nakSaid := some (x.seqRx, now), osq := x.osq ++ [orderedSet 2 (natLe 2 x.seqRx.toNat)] }

/-- The buffer flits a VC's allocation holds in this receiver (R291). -/
def rxRoom (x : Link) (v : Nat) : Bool := decide ((tblGet [] x.rx v).length < x.alloc.getD v 0)

/-- The partner reports RET of a VC; a count that advances ends a stall there (R292, R312). -/
def retReport (x : Link) (v : Nat) (r : BitVec 16) : Link :=
  if tblGet 0 x.retIn v == r then x
  else { x with retIn := tblSet x.retIn v r, stall := tblErase x.stall v, stallSaid := x.stallSaid.filter (· != v) }

/-- The header flit of the packet whose flit came last on a VC. -/
def lastHeader (x : Link) (v : Nat) : Option Nat :=
  ((tblGet [] x.rx v).reverse.find? (fun b => fieldN (flitHead b) 126 2 == 1)).map flitHead

/-- A confirmed flit takes its place at ingress, and its packet's frame moves; one that finds its buffer full takes the link down (R292). -/
def takeFlit (s : State) (l : Nat) (bs : List Byte) : State :=
  let x := linkAt s l
  let h := flitHead bs
  let payload := fieldN h 126 2 == 2
  let vc := if payload then payloadVc x (fieldN h 74 4) else some (fieldN h 104 3)
  let x := { x with seqRx := x.seqRx + 1, rxAny := true, nakSaid := none }
  let x := if payload then
      let x := if fieldN h 97 1 == 1 then ackTo x (BitVec.ofNat 14 (fieldN h 98 14)) else x
      retReport x (fieldN h 94 3) (BitVec.ofNat 16 (fieldN h 78 16))
    else x
  match vc with
  | none => setLink s l x
  | some v =>
    if rxRoom x v then
      let x : Link := { x with rx := tblSet x.rx v (tblGet [] x.rx v ++ [bs]), rcvd := tblMod 0 x.rcvd v (· + 1) }
      let s := setLink s l x
      match lastHeader x v with
      | some h => movedBy s (fieldN h 96 5) (BitVec.ofNat 8 (fieldN h 48 8)) (BitVec.ofNat 16 (fieldN h 32 16))
      | none => s
    else linkDown (setLink s l x) l stCreditOverrun true false

/-- FLIT_RECEIVE: a flit that fails its CRC is discarded; a data flit in sequence is confirmed, any other is discarded with a NAK;
an ordered set of a reserved type, or that fails its CRC, is discarded and reported (R293, R297). The body of a valid ordered set
takes effect in its type's own row. -/
def execFlitReceive (link : Nat) (f : FlitIn) (s : State) : Host.Outcome State Fault Refusal :=
  let bytes := f.bytes
  if !active s link || bytes.length != 256 then done s
  else
    let h := flitHead bytes
    let ft := fieldN h 126 2
    if ft == 0 then
      (if !flitCrcOk bytes || decide (7 < fieldN h 120 6) then done (emit s rkLinkOsError (srcLink link) none []) else done s)
    else if !flitCrcOk bytes || ft == 3 || fieldN h 112 14 != (linkAt s link).seqRx.toNat then done (sendNak s link f.cycle)
    else done (takeFlit s link bytes)

/-! ### Acknowledgement, credits and replay -/

/-- LINK: ACKSEQ and the RET counts of all VCs (R292). -/
def execLinkSet (link : Nat) (ackseq : BitVec 14) (ackv : Bool) (ret : List (BitVec 16)) (s : State) : Host.Outcome State Fault Refusal :=
  if !active s link then done s
  else done (modLink s link (fun x =>
    let x := if ackv then ackTo x ackseq else x
    (List.range 8).foldl (fun x v => retReport x v (ret.getD v 0)) x))

/-- ACKSEQ: the last data flit confirmed, 0 where none is (Table 12.2). -/
def ackSeq (x : Link) : Nat := if x.rxAny then (x.seqRx - 1).toNat else 0

/-- A confirmed flit has not been acknowledged through ACKSEQ (R293). -/
def ackDue (x : Link) : Bool := x.rxAny && x.ackSaid != some x.seqRx

/-- The LINK set that reports this receiver's counts (Table 12.6). -/
def linkSetBytes (x : Link) : List Byte :=
  orderedSet 1 (natLe 2 (ackSeq x + bit x.rxAny * 2 ^ 15) ++ (List.range 8).flatMap (fun v => natLe 2 (tblGet 0 x.ret v).toNat))

/-- LINK_SET_DUE: a RET change not reported is reported (R292), and a confirmed flit not acknowledged is acknowledged (R293). -/
def execLinkSetDue (link : Nat) (s : State) : Host.Outcome State Fault Refusal :=
  let x := linkAt s link
  if active s link && (ackDue x || (List.range 8).any (fun v => tblGet 0 x.ret v != tblGet 0 x.retSaid v)) then
    done (setLink s link { x with osq := x.osq ++ [linkSetBytes x], retSaid := x.ret, ackSaid := if x.rxAny then some x.seqRx else x.ackSaid })
  else done s

/-- A replay begins with `n` flits of the retry buffer to be sent again; the ninth in a row without progress takes the link down
(R293). -/
def startReplay (s : State) (l n : Nat) : State :=
  let x := linkAt s l
  if 8 ≤ x.replays then linkDown s l stLinkRetryFail true false
  else setLink s l { x with replay := n, replays := x.replays + 1 }

/-- NAK: the sender resends from the expected sequence number onwards (R293). -/
def execNak (link : Nat) (seq : BitVec 14) (s : State) : Host.Outcome State Fault Refusal :=
  let x := linkAt s link
  let i := (seq - (x.seqTx - BitVec.ofNat 14 x.retry.length)).toNat
  if active s link && decide (i < x.retry.length) then done (startReplay s link (x.retry.length - i)) else done s

/-- REPLAY_TIMEOUT: 10 µs without progress while flits are outstanding (R293). -/
def execReplayTimeout (link : Nat) (s : State) : Host.Outcome State Fault Refusal :=
  let x := linkAt s link
  if active s link && !x.retry.isEmpty then done (startReplay s link x.retry.length) else done s

/-! ### Heartbeats (R378, R384) -/

/-- The heartbeat plot of a port: the lowest-numbered with a membership table whose port mask holds it (R378). -/
def hbPlot (s : State) (port : Nat) : Option Nat :=
  allPlots.find? (fun n => (domAt s n).state != 0 && (plotAt s n).portMask.getLsbD port)

/-- HEARTBEAT: it ends a suspicion, and one of a higher epoch prompts a PULL. -/
def execHeartbeat (link : Nat) (b : HeartbeatBody) (s : State) : Host.Outcome State Fault Refusal :=
  if !active s link then done s
  else
    let s := modLink s link (fun x => { x with hbHeard := true, hbMissed := 0 })
    let s := { s with lodge := { s.lodge with suspects := s.lodge.suspects.filter (· != (linkAt s link).partner.extractLsb' 0 24) } }
    match hbPlot s (linkPort link) with
    | none => done s
    | some n => if (plotAt s n).epoch.toNat < b.epoch.toNat then done (sendPull s link n) else done s

/-! ### Bring-up (R302) -/

/-- The link exists: half b only on a split port. -/
def linkExists (s : State) (l : Nat) : Bool := linkHalf l == 0 || splitPort s (linkPort l)

/-- The encryption mask written for a link (R299, R306). -/
def maskOf (s : State) (l : Nat) : BitVec 32 := if linkHalf l = 1 then (portAt s (linkPort l)).encMaskB else (portAt s (linkPort l)).encMask

/-- The half code of a link in PARAM and member tables (Table 8.3). -/
def halfCode (s : State) (l : Nat) : Nat := if splitPort s (linkPort l) then (if linkHalf l = 1 then 3 else 2) else 0

/-- The credit allocations of a link: a half-port has half (R284, R291). -/
def allocOf (s : State) (l : Nat) : List Nat := s.net.credits.map (fun c => if splitPort s (linkPort l) then c.toNat / 2 else c.toNat)

/-- Minimum INIT of a VC (Table 12.4). -/
def initMin (v : Nat) : Nat := if v = 0 then 32 else 17

/-- Flits of a retry buffer (R293). -/
def retryDepth (s : State) (l : Nat) : Nat := if splitPort s (linkPort l) then 2048 else 4096

/-- The PARAM set of this side (Table 12.6). -/
def paramBytes (s : State) (l : Nat) : List Byte :=
  orderedSet 5 (natLe 1 1 ++ natLe 1 0 ++ natLe 1 (halfCode s l) ++ natLe 4 s.route.self.toNat ++
    (allocOf s l).flatMap (fun c => natLe 2 c) ++ natLe 4 (maskOf s l).toNat ++ natLe 2 (retryDepth s l))

/-- Flits per frame of a link at full rate (R294). -/
def fullFrame (s : State) (l : Nat) : Nat :=
  let f := match s.sd.periodEff.toNat with | 0 => 3200 | 1 => 6400 | _ => 12800
  if splitPort s (linkPort l) then f / 2 else f

/-- Frame capacity of R294: floor(F × min(1, 2,621.44 / (RTT + 260))). -/
def capacityOf (full rtt : Nat) : Nat := min full (full * 262144 / (100 * (rtt + 260)))

/-- A failed attempt: LINK_TRAIN_FAIL with its cause, and the link is back in DETECT (R302). -/
def trainFail (s : State) (l : Nat) (cause : U16) : State :=
  emit (modLink s l (fun x => { x with state := 1 })) rkLinkTrainFail (srcLink l) none [(16, cause.toNat)]

/-- Move a link on from a bring-up state. -/
def bringOn (s : State) (l old new : Nat) : State :=
  if (linkAt s l).state = old ∧ linkExists s l then modLink s l (fun x => { x with state := new }) else s

/-- LINK_SIGNAL_DETECT. A port die that is failed or under self-test does not train (R168, R345). -/
def execLinkSignalDetect (link : Nat) (s : State) : Host.Outcome State Fault Refusal :=
  let d := dieAt s (linkDie link)
  if d.failed || d.testing then done s else done (bringOn s link 1 2)

/-- TRAIN_DONE. -/
def execTrainDone (link : Nat) (s : State) : Host.Outcome State Fault Refusal := done (bringOn s link 2 3)

/-- ALIGN_DONE. -/
def execAlignDone (link : Nat) (s : State) : Host.Outcome State Fault Refusal := done (bringOn s link 3 4)

/-- Spares free on a port die (R287). -/
def freeSpares (s : State) (die : Nat) : Nat := 4 - tblGet 0 s.net.sparesUsed die

/-- A spare takes a lane's position, where one is free: LANE_SPARED (R287). -/
def spareLane (s : State) (l lane : Nat) : Option State :=
  let j := linkDie l
  if freeSpares s j = 0 then none
  else
    let s := { s with net := { s.net with sparesUsed := tblMod 0 s.net.sparesUsed j (· + 1) } }
    let s := modLink s l (fun x => { x with spared := setBit x.spared lane true })
    some (emit s rkLaneSpared (srcLink l) none [])

/-- Spares for the lanes whose SerDes failed, in ascending order, as far as they go; and whether they ran out. -/
def spareLanes (s : State) (l : Nat) : List Nat → State × Bool
  | [] => (s, false)
  | a :: r => match spareLane s l a with
    | none => (s, true)
    | some s' => spareLanes s' l r

/-- The lanes of a LANECHECK: failed SerDes are spared, and a fault of the channel or the end of the spares ends the attempt, the channel's
cause going first (DESIGN CHOICE, R287; log entry 95). -/
def laneCheck (s : State) (l : Nat) (c : LaneCheck) : State × Option U16 :=
  let r := spareLanes s l (sortNat c.serdes)
  (r.1, if !c.channel.isEmpty then some stLaneChannel else if r.2 then some stSpareNone else none)

/-- LANECHECK_DONE: sparing, and the link moves to PARAM and sends its PARAM set. -/
def execLanecheckDone (link : Nat) (c : LaneCheck) (s : State) : Host.Outcome State Fault Refusal :=
  if (linkAt s link).state ≠ 4 then done s
  else match laneCheck s link c with
    | (s', some e) => done (trainFail s' link e)
    | (s', none) => done (modLink { s' with out := s'.out ++ [.wire link (paramBytes s' link)] } link (fun x => { x with state := 5 }))

/-- PARAM's checks (R302). -/
def paramOk (s : State) (l : Nat) (b : ParamBody) : Bool :=
  let e := (portAt s (linkPort l)).expected
  b.version == 1 && b.half.toNat == halfCode s l && b.mask == maskOf s l && decide (b.partners ≤ 1) &&
  (List.range 8).all (fun v => decide (initMin v ≤ (b.init.getD v 0).toNat)) &&
  (e == 0x00FFFFFF || b.epid.extractLsb' 0 24 == e.extractLsb' 0 24)

/-- The most flits that an image reserves on a link in one frame, for a direction. -/
def imageDemand (s : State) (n l : Nat) (ingress : Bool) (img : Image) : Nat :=
  let es := img.rsvs.flatMap (fun sec => sec.2.filter (fun e => e.ingress == ingress && rsvLink s n sec.1 e.half == some l))
  (es.map (fun e => sumN ((es.filter (fun g => decide (g.f0 ≤ e.f0) && decide (e.f0 < g.f0 + g.nf))).map (·.flits)))).foldl max 0

/-- The images admitted for a plot: the active one and, while it waits for activation or is loaded, the one in the shadow banks. -/
def admitted (p : Plot) : List Image := p.image.toList ++ p.shadow.toList

/-- The flits all admitted plots reserve on a link in one frame: the sum of each plot's largest use (log entry 22). -/
def demandOn (s : State) (l : Nat) (ingress : Bool) : Nat :=
  sumN (allPlots.map (fun n => ((admitted (plotAt s n)).map (imageDemand s n l ingress)).foldl max 0))

/-- A link enters ACTIVE: partner, credits, capacity and counts anew (R292–R294, R302), LINK_UP, RESERVE_OVER (R322), ROUTE_ROLE
(R310), and key agreement where a mask is not zero (R342). -/
def linkActive (s : State) (l : Nat) (b : ParamBody) : State :=
  let x := clearLink (linkAt s l)
  let cap := capacityOf (fullFrame s l) x.rtt.toNat
  let s := setLink s l { x with
    state := 6, partner := BitVec.ofNat 32 (b.epid.toNat % 2 ^ 24 + b.role.toNat % 2 * 2 ^ 24), capacity := BitVec.ofNat 32 cap,
    alloc := allocOf s l, init := b.init.map (·.toNat), encMask := maskOf s l, attempts := none, pairs := [], windowSaid := [], keys := [],
    keyx := .idle, hbHeard := true }
  let s := emit s rkLinkUp (srcLink l) none []
  let need := max (demandOn s l false) (demandOn s l true)
  let s := if cap < need then emit s rkReserveOver (srcLink l) none [(8, l), (16, need - cap)] else s
  let s := if upLink s l && b.role == 1 then emit s rkRouteRole (srcLink l) none [] else s
  if maskOf s l = 0 then s else startKeyx s l

/-- PARAM. -/
def execParam (link : Nat) (b : ParamBody) (s : State) : Host.Outcome State Fault Refusal :=
  if (linkAt s link).state ≠ 5 then done s
  else if paramOk s link b then done (linkActive s link b)
  else done (trainFail s link stLinkPartner)

/-- LINK_STATE_TIMEOUT: the state overran its bound (Table 12.8). The states' overrun has no status of its own: 0 is carried. -/
def execLinkStateTimeout (link : Nat) (s : State) : Host.Outcome State Fault Refusal :=
  let st := (linkAt s link).state
  if 2 ≤ st ∧ st ≤ 5 then done (trainFail s link stOk) else done s

/-- LINK_REATTEMPT: one of up to three attempts after a loss, and FAILED when none is left (R303). -/
def execLinkReattempt (link : Nat) (s : State) : Host.Outcome State Fault Refusal :=
  let x := linkAt s link
  match x.attempts with
  | none => done s
  | some 0 => if x.state = 0 ∨ x.state = 1 then done (setLink s link { x with state := 7, attempts := none }) else done s
  | some (k + 1) => if x.state = 0 ∨ x.state = 1 then done (setLink s link { x with state := 1, attempts := some k }) else done s

/-! ### Lanes in ACTIVE (R287) -/

def spareSet (lane phase : Nat) : List Byte := orderedSet 6 (natLe 2 lane ++ natLe 1 phase)

/-- LANE_FAIL: a lane that fails loopback is spared and retrained, with the link stopped; a channel fault, and a die with no spare
left, take the link down. -/
def execLaneFail (link lane : Nat) (loopbackPasses : Bool) (s : State) : Host.Outcome State Fault Refusal :=
  if !active s link then done s
  else if loopbackPasses then done (linkDown s link stLaneChannel true false)
  else match spareLane s link lane with
    | none => done (linkDown s link stSpareNone true false)
    | some s' => done (modLink s' link (fun x => { x with retrain := some lane, osq := x.osq ++ [spareSet lane 0] }))

/-- LANE_RETRAIN_DONE: traffic resumes and lost flits are replayed. -/
def execLaneRetrainDone (link : Nat) (s : State) : Host.Outcome State Fault Refusal :=
  let x := linkAt s link
  match x.retrain with
  | none => done s
  | some lane =>
    if active s link then
      done (setLink s link { x with retrain := none, replay := x.retry.length, osq := x.osq ++ [spareSet lane 1] })
    else done s

/-- SPARE: the partner stops or resumes the link; resumed, what was lost is replayed. -/
def execSpare (link : Nat) (lane : BitVec 16) (phase : BitVec 8) (s : State) : Host.Outcome State Fault Refusal :=
  if !active s link || decide (15 < lane.toNat) then done s
  else if phase = 0 then done (modLink s link (fun x => { x with stopped := true }))
  else if phase = 1 then done (modLink s link (fun x => { x with stopped := false }))
  else done s

/-! ### Leaving ACTIVE (R303) -/

/-- SIGNAL_LOST. -/
def execSignalLost (link : Nat) (s : State) : Host.Outcome State Fault Refusal :=
  if active s link then done (linkDown s link stSignalLost true false) else done s

/-- DOWN: the partner's DOWN set, with its cause. -/
def execDown (link : Nat) (cause : BitVec 16) (s : State) : Host.Outcome State Fault Refusal :=
  if active s link then done (linkDown s link cause false false) else done s

/-! ### Commands and the mode (R284, R302, R303, Table 12.10) -/

/-- LINK_BRING_UP: a link that is DOWN or FAILED goes to DETECT; half b only on a split port. A port die under self-test serves nothing
(R168). -/
def execLinkBringUp (q : KReq) (n : Nat) (half : Bool) (s : State) : Host.Outcome State Fault Refusal :=
  done (kioskCmd s q (0x3000 + n) 0x02 true (fun s _ =>
    if (dieAt s (linkDie (2 * n))).testing then .error stSelftestBusy
    else if half && !splitPort s n then .error stKioskState
    else
      let l := 2 * n + bit half
      let st := (linkAt s l).state
      .ok (if st = 0 ∨ st = 7 then modLink s l (fun x => { x with state := 1, attempts := none }) else s)))

/-- LINK_TAKE_DOWN: LINK_COMMANDED, and no attempt follows. -/
def execLinkTakeDown (q : KReq) (n : Nat) (half : Bool) (s : State) : Host.Outcome State Fault Refusal :=
  done (kioskCmd s q (0x3000 + n) 0x02 true (fun s _ =>
    if half && !splitPort s n then .error stKioskState
    else
      let l := 2 * n + bit half
      .ok (if active s l then linkDown s l stLinkCommanded true true
        else modLink s l (fun x => { x with state := 0, downCause := stLinkCommanded, attempts := none }))))

/-- PORT_MODE_WRITE: only while both halves are DOWN or FAILED and the port is in no plot's mask (R284). -/
def execPortModeWrite (q : KReq) (n : Nat) (v : BitVec 8) (s : State) : Host.Outcome State Fault Refusal :=
  let down (l : Nat) : Bool := (linkAt s l).state == 0 || (linkAt s l).state == 7
  done (kioskRws s q (0x3000 + n) 0x01 0 (natLe 1 v.toNat) (fun s _ =>
    if 1 < v.toNat then some stKioskRange
    else if down (2 * n) && down (2 * n + 1) && (plotsOfPort s n).isEmpty then none
    else some stKioskState))

end Sys2Proof.Machine
end

