-- ==== Sys2Proof/Machine/Sched.lean ====
section
/-! DEFINITION. The sender of a link (R292, R320, R323–R326), the notices of chapter 13 (R312, R317, R326), and the writes of the route table
and the link direction map (R313, R318). -/

namespace Sys2Proof.Machine

/-! ### Flits out -/

/-- Bytes 4–15 of a header flit with its sequence number (Table 12.1). -/
def headBytes (p : Pkt) (seq : BitVec 14) : List Byte := (natLe 16 (1 * 2 ^ 126 + seq.toNat * 2 ^ 112 + hdrWord p * 2 ^ 32)).drop 4

/-- Bytes 16–223 of a header flit in the clear: the operation header and what Table 12.3 names after it (R289). -/
def opBytes (p : Pkt) : List Byte := natLe 32 p.op.toNat ++ padTo 176 (natLe 2 p.ext.toNat)

/-- A header flit: bytes 4–15, bytes 16–223 as they go out, and the encryption fields (R289, R300). -/
def flitOf (p : Pkt) (seq : BitVec 14) (mid crypto : List Byte) : List Byte :=
  let rest := headBytes p seq ++ mid ++ padTo 32 crypto
  natLe 4 (crc32c rest) ++ rest

/-- The header flit of a packet that is not encrypted. -/
def headerFlit (p : Pkt) (seq : BitVec 14) : List Byte := flitOf p seq (opBytes p) []

/-- Payload flit `k` of a packet (Table 12.2); of one cut short, the flits that have not come have PSN set (R303). -/
def payloadFlit (x : Link) (p : Pkt) (k : Nat) : List Byte :=
  let n := 2 * 2 ^ 126 + x.seqTx.toNat * 2 ^ 112 + ackSeq x * 2 ^ 98 + bit x.rxAny * 2 ^ 97 + x.cvc * 2 ^ 94 +
    (tblGet 0 x.ret x.cvc).toNat * 2 ^ 78 + k * 2 ^ 74 + bit (p.poison && decide (p.body.length ≤ 240 * k)) * 2 ^ 73
  let rest := (natLe 16 n).drop 4 ++ padTo 240 (sliceB p.body (240 * k) 240)
  natLe 4 (crc32c rest) ++ rest

/-- A packet of an encrypted plot as it goes out: bytes 16–223 of its header flit and its payload encrypted, and its crypto header and tag.
The data authenticated beside them are header bytes 4–15 with SEQ 0 and the crypto header (R300). -/
def sealPkt (l : Nat) (k : LinkKey) (p : Pkt) : Pkt × List Byte × List Byte :=
  let gen := k.txGen.toNat
  let plain := opBytes p ++ padTo (240 * p.len.toNat) p.body
  let crypto := natLe 16 (gen * 2 ^ 120 + k.txCtr * 2 ^ 88)
  let c := padTo plain.length (Config.gcmText l p.plot.toNat gen k.txCtr plain)
  let tag := padTo 16 (Config.gcmTag l p.plot.toNat gen k.txCtr (headBytes p 0 ++ crypto) plain)
  ({ p with body := c.drop 208, kgen := k.txGen, ctr := BitVec.ofNat 32 k.txCtr }, c.take 208, crypto ++ tag)

/-! ### What may go next (R323) -/

/-- A VC has a credit (R292). -/
def hasCredit (x : Link) (v : Nat) : Bool :=
  (BitVec.ofNat 16 (x.init.getD v 0) + tblGet 0 x.retIn v - tblGet 0 x.sent v) != 0

/-- The key has no counter left and no next generation to move to (R301). -/
def keySpent (k : LinkKey) : Bool := decide (2 ^ 32 ≤ k.txCtr) && !k.nextReady

/-- A packet of an encrypted plot may start: its keys are agreed and not exhausted (R301, R342). -/
def keyReady (x : Link) (p : Pkt) : Bool :=
  !encrypted x p || x.keys.any (fun k => k.plot == p.plot.toNat && !k.stopped && !keySpent k)

/-- The packet may send its next flit: on its VC no other packet has started, and the VC has a credit. -/
def canSend (x : Link) (t : TxPkt) : Bool :=
  let v := t.pkt.vc
  (t.sent != 0 || (keyReady x t.pkt && !x.txq.any (fun u => u.pkt.vc == v && u.sent != 0))) && hasCredit x v.toNat

/-- A started packet first, then the others in hand-off order. -/
def startedFirst (l : List TxPkt) : List TxPkt := l.filter (fun t => t.sent != 0) ++ l.filter (fun t => t.sent == 0)

/-- Subscriber and class of a packet in the hierarchy (R324). -/
def subOf (p : Pkt) : Nat := if p.vc = 6 then 32 else p.plot.toNat
def clsOf (p : Pkt) : Nat := if p.vc = 6 then 3 else p.cls.toNat

def subWeight (s : State) (n : Nat) : Nat := (tblGet (0x0100 : BitVec 16) s.route.weightsEff n).toNat
/-- The weight of a class; the module subscriber's MGMT takes none of 0x3500:03. -/
def clsWeight (s : State) (n c : Nat) : Nat :=
  if n = 32 then 0x0100
  else
    let w := tblGet (0x0000010001000100 : BitVec 64) s.route.clsWeightsEff n
    match c with
    | 0 => field w 32 16
    | 1 => field w 16 16
    | 2 => field w 0 16
    | _ => 0

/-- The packets of the hierarchy that may send, by subscriber, class and source. -/
def inTree (t : TxPkt) : Bool := decide (2 ≤ t.pkt.vc.toNat)

/-- Virtual times compare as signed 48-bit differences from v (R324). -/
def vless (v a b : BitVec 48) : Bool := (a - v).slt (b - v)

/-- Give tags to the children whose head is newly eligible, with the lengths of their heads (R324). Weight 0 takes no tags. -/
def tagChildren (g : SfqNode) (weight : Nat → Nat) : List (Nat × Nat) → SfqNode
  | [] => g
  | (c, len) :: r =>
    let w := weight c
    if w = 0 ∨ g.start.any (fun e => e.1 == c) then tagChildren g weight r
    else
      let f := tblGet 0 g.finish c
      let st := if vless g.v f g.v then g.v else f
      let inc := (len * 65536 + w - 1) / w
      tagChildren { g with start := tblSet g.start c st, finish := tblSet g.finish c (st + BitVec.ofNat 48 inc) } weight r

/-- The eligible child with the least start tag, the lowest number among equals; else round robin among those of weight 0, from the child
after the one served last (R324; log entry 23). -/
def pickChild (g : SfqNode) (weight : Nat → Nat) (cs : List Nat) : Option Nat :=
  match sortNat (cs.filter (fun c => weight c != 0)) with
  | c :: r => some (r.foldl (fun b c => if vless g.v (tblGet 0 g.start c) (tblGet 0 g.start b) then c else b) c)
  | [] =>
    match (sortNat cs).find? (fun c => decide (g.rr ≤ c)) with
    | some c => some c
    | none => (sortNat cs).head?

/-- The child is served: v takes its start tag and the tag is spent (R324). -/
def serveChild (g : SfqNode) (weight : Nat → Nat) (c : Nat) : SfqNode :=
  if weight c = 0 then { g with rr := c + 1 } else { g with v := tblGet 0 g.start c, start := tblErase g.start c }

/-- A head served by another step leaves its tags behind: the next head gets its own. -/
def spendTag (g : SfqNode) (c : Nat) : SfqNode := { g with start := tblErase g.start c }

def srcWeight (_ : Nat) : Nat := 0x1000

/-- Sources of a class with a packet that may send, each with the length of its head. -/
def srcHeads (ts : List TxPkt) (n c : Nat) : List (Nat × Nat) :=
  ((ts.filter (fun t => subOf t.pkt == n && clsOf t.pkt == c)).foldl
    (fun acc t => if acc.any (fun e => e.1 == t.source) then acc else acc ++ [(t.source, t.pkt.len.toNat + 1)]) [])

/-- The choice of the three levels, with every newly eligible head tagged on the way: the packet, and the link after it. -/
def sfqPick (s : State) (x : Link) (ts : List TxPkt) : Option TxPkt × Link :=
  let subs := (ts.map (fun t => subOf t.pkt)).foldl addNew []
  -- source level
  let x := (ts.map (fun t => 4 * subOf t.pkt + clsOf t.pkt)).foldl addNew [] |>.foldl (fun x k =>
    let g := tblGet ({} : SfqNode) x.sfqSrc k
    { x with sfqSrc := tblSet x.sfqSrc k (tagChildren g srcWeight (srcHeads ts (k / 4) (k % 4))) }) x
  let headOf (x : Link) (n c : Nat) : Option TxPkt :=
    let g := tblGet ({} : SfqNode) x.sfqSrc (4 * n + c)
    match pickChild g srcWeight ((srcHeads ts n c).map (·.1)) with
    | none => none
    | some u => ts.find? (fun t => subOf t.pkt == n && clsOf t.pkt == c && t.source == u)
  let clsOfSub (n : Nat) : List Nat := ((ts.filter (fun t => subOf t.pkt == n)).map (fun t => clsOf t.pkt)).foldl addNew []
  let lenOf (o : Option TxPkt) : Nat := match o with | some t => t.pkt.len.toNat + 1 | none => 1
  -- class level
  let x := subs.foldl (fun x n =>
    let g := tblGet ({} : SfqNode) x.sfqCls n
    let hs := (clsOfSub n).map (fun c => (c, lenOf (headOf x n c)))
    { x with sfqCls := tblSet x.sfqCls n (tagChildren g (clsWeight s n) hs) }) x
  let pickCls (x : Link) (n : Nat) : Option Nat := pickChild (tblGet ({} : SfqNode) x.sfqCls n) (clsWeight s n) (clsOfSub n)
  -- subscriber level
  let hs := subs.map (fun n => (n, match pickCls x n with | some c => lenOf (headOf x n c) | none => 1))
  let x := { x with sfq := tagChildren x.sfq (subWeight s) hs }
  match pickChild x.sfq (subWeight s) subs with
  | none => (none, x)
  | some n =>
    match pickCls x n with
    | none => (none, x)
    | some c =>
      match headOf x n c with
      | none => (none, x)
      | some t =>
        (some t, { x with
          sfq := serveChild x.sfq (subWeight s) n,
          sfqCls := tblSet x.sfqCls n (serveChild (tblGet {} x.sfqCls n) (clsWeight s n) c),
          sfqSrc := tblSet x.sfqSrc (4 * n + c) (serveChild (tblGet {} x.sfqSrc (4 * n + c)) srcWeight t.source) })

/-- Flits of a reservation sent in this frame (R320). -/
def rsvSent (x : Link) (n id : Nat) : Nat := ((x.rsvUsed.find? (fun e => e.1 == n && e.2.1 == id)).map (·.2.2)).getD 0

/-- The reserved entry under which a packet's next flit goes (R320). -/
def rsvDue (s : State) (l : Nat) (x : Link) (t : TxPkt) : Option RsvEntry :=
  match egressRsv s l t.pkt with
  | some e => if rsvSent x t.pkt.plot.toNat e.rsvid < e.flits then some e else none
  | none => none

/-- Floor credit of a service (R325). -/
def creditOf (x : Link) (n c : Nat) : Nat := ((x.services.find? (fun v => v.sub == n && v.cls == c)).map (·.credit)).getD 0

/-- The service of a packet: its subscriber and its class (R325). -/
def svcOf (t : TxPkt) : Nat := 4 * subOf t.pkt + clsOf t.pkt

/-- The head packet of every service: the first that may send a flit (log entry 23). -/
def svcHeads (ts : List TxPkt) : List TxPkt :=
  ts.foldl (fun acc t => if acc.any (fun u => svcOf u == svcOf t) then acc else acc ++ [t]) []

/-- The head packets of the floor-due services, in their order (R323 step 3). -/
def floorDue (x : Link) (ts : List TxPkt) : List TxPkt :=
  sortBy (fun a b => decide (svcOf a ≤ svcOf b))
    ((svcHeads ts).filter (fun t => decide (t.pkt.len.toNat + 1 - t.sent ≤ creditOf x (subOf t.pkt) (clsOf t.pkt))))

/-- The packets due under a reservation, by plot and RSVID (R323 step 4). -/
def rsvReady (s : State) (l : Nat) (x : Link) (ts : List TxPkt) : List TxPkt :=
  (sortBy (fun a b => decide (a.1 ≤ b.1)) (ts.filterMap (fun t =>
    (rsvDue s l x t).map (fun e => (t.pkt.plot.toNat * 65536 + e.rsvid, t))))).map (·.2)

/-- The packet whose flit goes next, and the link after the choice (R323 steps 2 to 5). A started packet of the hierarchy runs on.
Log entry 23. -/
def pickNext (s : State) (l : Nat) (x : Link) : Option TxPkt × Link :=
  let ts := startedFirst (x.txq.filter (canSend x))
  match ts.find? (fun t => t.pkt.vc == 0) with
  | some t => (some t, x)
  | none => match ts.find? (fun t => t.pkt.vc == 1) with
    | some t => (some t, x)
    | none =>
      let ts := ts.filter inTree
      let tagged (t : TxPkt) : Link := { x with
        sfq := spendTag x.sfq (subOf t.pkt),
        sfqCls := tblSet x.sfqCls (subOf t.pkt) (spendTag (tblGet {} x.sfqCls (subOf t.pkt)) (clsOf t.pkt)),
        sfqSrc := tblSet x.sfqSrc (4 * subOf t.pkt + clsOf t.pkt) (spendTag (tblGet {} x.sfqSrc (4 * subOf t.pkt + clsOf t.pkt)) t.source) }
      match floorDue x ts with
      | t :: _ => (some t, tagged t)
      | [] => match rsvReady s l x ts with
        | t :: _ => (some t, tagged t)
        | [] => match ts.find? (fun t => t.sent != 0) with
          | some t => (some t, x)
          | none => sfqPick s x ts

/-! ### The flit sent -/

/-- The key under which the next packet starts: the next generation from CTR 0 where this one has no counter left (R301). -/
def openKey (k : LinkKey) : LinkKey :=
  if 2 ^ 32 ≤ k.txCtr ∧ k.nextReady = true then { k with txGen := k.txGen + 1, txCtr := 0, nextReady := false, asked := false } else k

/-- A packet has taken its counter, and the next generation is asked for at 2^31 (R301). -/
def spendKey (k : LinkKey) : LinkKey := { k with txCtr := k.txCtr + 1, asked := k.asked || decide (2 ^ 31 ≤ k.txCtr + 1) }

/-- With this packet the sender asks for what follows generation 255: a fresh exchange (R301, R342). -/
def renews (k : LinkKey) : Bool := k.txGen == 255 && !k.asked && (spendKey k).asked

/-- A packet waits to start on a key that has no counter left: generation g + 1 is needed (R301). -/
def keyNeeded (x : Link) (k : LinkKey) : Bool :=
  keySpent k && !k.stopped && x.txq.any (fun t => t.sent == 0 && encrypted x t.pkt && t.pkt.plot.toNat == k.plot)

/-- LINK_KEY_EXHAUSTED where generation g + 1 is needed and not installed: the plot sends no more on this link, and holds (R301). -/
def exhaustKeys (s : State) (l : Nat) : State :=
  let x := linkAt s l
  let gone := (x.keys.filter (keyNeeded x)).map (·.plot)
  if gone.isEmpty then s
  else gone.foldl (fun s n => containedHold (emit s rkLinkKeyExhausted (srcLink l) (some n) [(16, stKeyExhausted.toNat)]) [n] hcLink)
    (setLink s l { x with keys := x.keys.map (fun k => if keyNeeded x k then { k with stopped := true } else k) })

/-- Count a flit of a service and of a subscriber (R325, R329). -/
def countServed (x : Link) (p : Pkt) : Link :=
  if p.vc.toNat < 2 then x
  else { x with
    served := tblMod 0 x.served (subOf p) (· + 1),
    services := x.services.map (fun v => if v.sub == subOf p && v.cls == clsOf p then { v with credit := v.credit - 1, dry := 0, said := false } else v) }

/-- Count a sprayed flit of an entry and a plot (R317). -/
def countSpray (x : Link) (t : TxPkt) : Link :=
  match t.spray with
  | none => x
  | some e =>
    let n := t.pkt.plot.toNat
    if x.sprayed.any (fun u => u.1 == e && u.2.1 == n) then
      { x with sprayed := x.sprayed.map (fun u => if u.1 == e && u.2.1 == n then (e, n, u.2.2 + 1) else u) }
    else { x with sprayed := x.sprayed ++ [(e, n, 1)] }

/-- Count a flit under the reservation it went under. -/
def countRsv (s : State) (l : Nat) (x : Link) (t : TxPkt) : Link :=
  match rsvDue s l x t with
  | none => x
  | some e =>
    let n := t.pkt.plot.toNat
    if x.rsvUsed.any (fun u => u.1 == n && u.2.1 == e.rsvid) then
      { x with rsvUsed := x.rsvUsed.map (fun u => if u.1 == n && u.2.1 == e.rsvid then (n, e.rsvid, u.2.2 + 1) else u) }
    else { x with rsvUsed := x.rsvUsed ++ [(n, e.rsvid, 1)] }

/-- Put a data flit on the link: sequence number, credit, retry buffer (R292, R293). -/
def putFlit (s : State) (l : Nat) (x : Link) (t : TxPkt) (bytes : List Byte) : State :=
  let v := t.pkt.vc.toNat
  let s := setLink s l { x with
    seqTx := x.seqTx + 1, sent := tblMod 0 x.sent v (· + 1), retry := x.retry ++ [TxFlit.mk bytes t.source t.pkt.plot.toNat t.pkt.opc t.pkt.tag] }
  let s := { s with out := s.out ++ [.wire l bytes] }
  movedBy s t.pkt.plot.toNat t.pkt.opc t.pkt.tag

/-- The queue with a packet replaced by what is left of it. -/
def replaceTx (q : List TxPkt) (t : TxPkt) (t' : Option TxPkt) : List TxPkt :=
  match q with
  | [] => []
  | u :: r => if u == t then t'.toList ++ r else u :: replaceTx r t t'

/-- Send the next flit of a chosen packet. -/
def sendFlit (s : State) (l : Nat) (x : Link) (t : TxPkt) : State :=
  let x : Link := countSpray (countServed (countRsv s l x t) t.pkt) t
  if t.sent = 0 then
    let n := t.pkt.plot.toNat
    let key : Option LinkKey := if encrypted x t.pkt then (x.keys.find? (fun k => k.plot == n)).map openKey else none
    let left (p : Pkt) : Option TxPkt := if p.len.toNat == 0 then none else some { t with pkt := p, sent := 1 }
    match key with
    | none => putFlit s l { x with txq := replaceTx x.txq t (left t.pkt) } t (headerFlit t.pkt x.seqTx)
    | some k =>
      let (p, mid, crypto) := sealPkt l k t.pkt
      let keys := x.keys.map (fun e => if e.plot == n then spendKey (openKey e) else e)
      let s := putFlit s l { x with keys := keys, txq := replaceTx x.txq t (left p) } t (flitOf p x.seqTx mid crypto)
      if renews k then renewKeyx s l else s
  else
    let bytes := payloadFlit x t.pkt (t.sent - 1)
    let last := decide (t.pkt.len.toNat < t.sent + 1)
    let left : Option TxPkt := if last then none else some { t with sent := t.sent + 1 }
    let x := { x with
      txq := replaceTx x.txq t left
      retSaid := tblSet x.retSaid x.cvc (tblGet 0 x.ret x.cvc)
      ackSaid := if x.rxAny then some x.seqRx else x.ackSaid
      cvc := (x.cvc + 1) % 8 }
    putFlit s l x t bytes

/-- LINK_SEND_SLOT: at a free flit boundary the sender takes an ordered set that is due, then a flit to be replayed with unchanged
bytes, then the packet that R323 chooses. -/
def execLinkSendSlot (link : Nat) (s : State) : Host.Outcome State Fault Refusal :=
  let x := linkAt s link
  if !active s link then done s
  else match x.osq with
    | o :: r => done (setLink { s with out := s.out ++ [.wire link o] } link { x with osq := r })
    | [] =>
      if x.stopped || x.retrain.isSome then done s
      else if 0 < x.replay then
        match x.retry[x.retry.length - x.replay]? with
        | none => done (setLink s link { x with replay := 0 })
        | some f =>
          let s := movedBy (setLink s link { x with replay := x.replay - 1, retried := x.retried + 1 }) f.plot f.opc f.tag
          done { s with out := s.out ++ [.wire link f.bytes], sd := { s.sd with retried := s.sd.retried + 1 } }
      else if retryDepth s link ≤ x.retry.length then done s
      else
        let s := exhaustKeys s link
        match pickNext s link (linkAt s link) with
        | (none, x') => done (setLink s link x')
        | (some t, x') => done (sendFlit s link x' t)

/-! ### Notices (R312, R317, R326) -/

/-- ROUTE_STALL: a VC without credit progress for 0x3400:07 ticks, once per episode. -/
def execRouteStall (link vc : Nat) (s : State) : Host.Outcome State Fault Refusal :=
  let x := linkAt s link
  if s.route.stallLimit.toNat ≤ tblGet 0 x.stall vc ∧ x.stallSaid.contains vc = false then
    done (emit (setLink s link { x with stallSaid := x.stallSaid ++ [vc] }) rkRouteStall (srcLink link) none [(8, link), (3, vc)])
  else done s

/-- SPRAY_PRESSURE: 4,096 consecutive qualifying frames above 2.0, once until 4,096 have passed at or below it. -/
def execSprayPressure (entry : Nat) (s : State) : Host.Outcome State Fault Refusal :=
  let p := tblGet {} s.route.sprays entry
  if 4096 ≤ p.above ∧ p.armed then
    let s := { s with route := { s.route with sprays := tblSet s.route.sprays entry { p with armed := false } } }
    done (emit s rkSprayPressure srcModule (some p.plot) [(16, entry), (16, p.ratio)])
  else done s

/-- SCHED_STARVED: a service backlogged and unserved for 0x3500:04 ticks, once per episode. -/
def execSchedStarved (link sub cls : Nat) (s : State) : Host.Outcome State Fault Refusal :=
  let x := linkAt s link
  match x.services.find? (fun v => v.sub == sub && v.cls == cls) with
  | none => done s
  | some v =>
    if s.route.starveLimit.toNat ≤ v.dry ∧ v.said = false then
      let s := setLink s link { x with services := x.services.map (fun w => if w.sub == sub && w.cls == cls then { w with said := true } else w) }
      let s := { s with route := { s.route with notices := s.route.notices + 1 } }
      done (emit s rkSchedStarved (srcLink link) (if sub < 32 then some sub else none) [(8, link), (8, sub), (2, cls), (32, v.dry)])
    else done s

/-! ### Route table and direction map (R313, R318) -/

/-- An entry of Table 13.1. -/
def routeEntry (v : Nat) : RouteEntry :=
  { lo := BitVec.ofNat 24 (fieldN v 232 24), hi := BitVec.ofNat 24 (fieldN v 208 24), spray := fieldN v 207 1 == 1, links := BitVec.ofNat 128 (fieldN v 0 128) }

/-- The entries are sorted by LO and do not overlap. -/
def routeSorted : List RouteEntry → Bool
  | a :: b :: r => decide (a.hi.toNat < b.lo.toNat) && routeSorted (b :: r)
  | _ => true

/-- An entry covers the module's own endpoint id (R313). -/
def routeOwn (s : State) (e : RouteEntry) : Bool := decide (e.lo.toNat ≤ s.route.self.toNat) && decide (s.route.self.toNat ≤ e.hi.toNat)

/-- A LINKS bit names half b of a port in whole mode (R313). -/
def routeHalfB (s : State) (e : RouteEntry) : Bool := (bitsSet e.links 128).any (fun l => linkHalf l == 1 && !splitPort s (linkPort l))

/-- The checks of R313 on a whole table: those that the value alone shows, then those that the module's state decides (R352). -/
def routeTable? (s : State) (all : List Byte) : Except U16 (List RouteEntry) :=
  let h := numAt all 0 16
  let n := fieldN h 112 16
  let body := all.drop 16
  if all.length < 16 ∨ fieldN h 0 112 ≠ 0 ∨ 4096 < n ∨ body.length ≠ 32 * n then .error stKioskRange
  else
    let raw := (pieces 32 body).map leNat
    let es := raw.map routeEntry
    if !(routeSorted es && raw.all (fun v => fieldN v 128 79 == 0) &&
        es.all (fun e => decide (e.lo.toNat ≤ e.hi.toNat) && decide (e.hi.toNat < 0xFFFFFE))) then .error stKioskRange
    else if es.any (fun e => routeOwn s e || routeHalfB s e) then .error stKioskState
    else .ok es

/-- ROUTE_TABLE_WRITE: a checked table takes effect at the next step 5 (R318). -/
def execRouteTableWrite (q : KReq) (d : DomSeg) (s : State) : Host.Outcome State Fault Refusal :=
  done (kioskDom s q 0x3400 0x01 131088 d (fun s _ all => (routeTable? s all).map (fun es =>
    { s with route := { s.route with table := es, written := true, dirty := true } })))

/-- DIRECTION_MAP_WRITE: bits 128–255 are reserved; the map takes effect at step 5. -/
def execDirectionMapWrite (q : KReq) (v : BitVec 256) (s : State) : Host.Outcome State Fault Refusal :=
  done (kioskCmd s q 0x3400 0x02 false (fun s _ =>
    if v.toNat < 2 ^ 128 then .ok { s with route := { s.route with dir := v, dirty := true } } else .error stKioskRange))

end Sys2Proof.Machine
end

