-- ==== Sys2Proof/Machine/CollOps.lean ====
section
/-! DEFINITION. Collectives: descriptor, table and segment fields (R199, R202, R227), the sending of segments (R195, R196), the edge
combiner's elements (R198) and the staging of segments (R204, R207). -/

namespace Sys2Proof.Machine

/-! ### Descriptor (Table 8.2) -/

def dDop (d : Desc) : Nat := field d.img 504 8
def dRop (d : Desc) : Nat := field d.img 500 4
def dIfmt (d : Desc) : Nat := field d.img 496 4
def dOfmt (d : Desc) : Nat := field d.img 492 4
def dRm (d : Desc) : Nat := field d.img 490 2
def dFto (d : Desc) : Bool := bitAt d.img 489
def dEcm (d : Desc) : Nat := field d.img 486 2
def dLead (d : Desc) : Bool := bitAt d.img 488
def dDeliv (d : Desc) : Nat := field d.img 484 2
def dWb (d : Desc) : Int := signedN 12 (field d.img 472 12)
def dTctr (d : Desc) : Nat := field d.img 462 10
def dTthr (d : Desc) : Nat := field d.img 450 12
def dTdec (d : Desc) : Bool := bitAt d.img 449
def dCe (d : Desc) : Bool := bitAt d.img 448
def dCctr (d : Desc) : Nat := field d.img 438 10
def dCinc (d : Desc) : Nat := field d.img 434 4
def dPe (d : Desc) : Bool := bitAt d.img 433
def dPpav (d : Desc) : Nat := field d.img 425 8
def dPctr (d : Desc) : Nat := field d.img 419 6
def dPinc (d : Desc) : Nat := field d.img 415 4
def dTag (d : Desc) : BitVec 16 := d.img.extractLsb' 399 16
def dNmem (d : Desc) : Nat := field d.img 381 18
def dPool (d : Desc) : Nat := field d.img 373 8
def dNelem (d : Desc) : Nat := field d.img 333 40
def dRsvid (d : Desc) : Nat := field d.img 317 16
def dRctr (d : Desc) : Nat := field d.img 307 10
def dTid (d : Desc) : BitVec 32 := d.img.extractLsb' 275 32
def dMtab (d : Desc) : Nat := field d.img 237 38
def dHmap (d : Desc) : Nat := field d.img 199 38
def dXblk (d : Desc) : Nat := field d.img 161 38
def dCrec (d : Desc) : Nat := field d.img 123 38
def dEbase (d : Desc) : Nat := field d.img 59 64

/-- NELEM 0, NMEM 0 or a CHAIN (R206). -/
def emptyColl (d : Desc) : Bool := dNelem d == 0 || dNmem d == 0 || dDop d == 0

/-! ### Segment header (Table 8.5) -/

def sEoff (p : Pkt) : Nat := field p.op 192 64
def sRank (p : Pkt) : Nat := field p.op 174 18
def sNel (p : Pkt) : Nat := field p.op 161 13
def sRun (p : Pkt) : BitVec 16 := p.op.extractLsb' 145 16
def sKind (p : Pkt) : Nat := field p.op 142 3
def sDest (p : Pkt) : Nat := field p.op 126 16
def sSlot (p : Pkt) : Nat := field p.op 110 16

def segOp (eoff rank nel run kind dest slot : Nat) : BitVec 256 :=
  BitVec.ofNat 256 (eoff * 2 ^ 192 + rank * 2 ^ 174 + nel * 2 ^ 161 + run * 2 ^ 145 + kind * 2 ^ 142 + dest * 2 ^ 126 + slot * 2 ^ 110)

def segKey (p : Pkt) : SegKey := { kind := sKind p, rank := sRank p, eoff := sEoff p, dest := sDest p, slot := sSlot p }

/-! ### Tables in HBM (Tables 8.3, 8.4, 9.1, 9.4) -/

/-- Bytes of a plot's region. -/
def regRead (s : State) (n off len : Nat) : List Byte := hbmRead s.hbm (regAddrs (plotAt s n).region off len)

/-- Bytes written to a plot's region; a shorter write that meets an uncorrectable word leaves it and has the outcome of Table 11.3. -/
def regWrite (s : State) (n off : Nat) (bs : List Byte) : State :=
  let r := hbmWrite s.hbm (regAddrs (plotAt s n).region off bs.length) bs
  match r.2 with
  | none => { s with hbm := r.1 }
  | some a => hbmUncorrected { s with hbm := r.1 } a true

/-- The uncorrectable word, if any, that a read of a plot's region meets (R279). -/
def regBad (s : State) (n off len : Nat) : Option Nat :=
  if s.hbm.badWords.isEmpty then none else hbmBad s.hbm (regAddrs (plotAt s n).region off len)

/-- Elements that fill 3,840 bytes (R222). -/
def b2Seg (f : Nat) : Nat := 3840 * 8 / fmtBits f

/-- The extension block: 64 bytes at XBLK; of a B2 collective, what R222 lays down. -/
def xBlock (s : State) (d : Desc) : Nat :=
  match d.b2 with
  | none => leNat (regRead s d.plot (dXblk d) 64)
  | some b => b2Seg b.fmt * 2 ^ 496 + b2Seg b.fmt * 2 ^ 480 + b.root * 2 ^ 462

def xSegel (x : Nat) : Nat := fieldN x 496 16
def xChunk (x : Nat) : Nat := fieldN x 480 16
def xRoot (x : Nat) : Nat := fieldN x 462 18
def xNexp (x : Nat) : Nat := fieldN x 446 16
def xCap (x : Nat) : Nat := fieldN x 430 16
def xKch (x : Nat) : Nat := fieldN x 426 4
def xNtok (x : Nat) : Nat := fieldN x 402 24
def xRowb (x : Nat) : Nat := fieldN x 385 17
def xFill (x : Nat) : Nat := fieldN x 353 32
def xEtab (x : Nat) : Nat := fieldN x 315 38
def xCombine (x : Nat) : Bool := fieldN x 314 1 == 1
def xSuma (x : Nat) : Nat := fieldN x 276 38
-- Table 9.1
def yK (x : Nat) : Nat := fieldN x 448 32
def yDivs (x : Nat) : Nat := fieldN x 446 2
def ySuma (x : Nat) : Nat := fieldN x 273 38
-- Table 9.4
def gLayer (x : Nat) : Nat := fieldN x 480 12
def gNtok (x : Nat) : Nat := fieldN x 456 24
def gRowb (x : Nat) : Nat := fieldN x 439 17
def gNrow (x : Nat) : Nat := fieldN x 407 32
def gRlo (x : Nat) : Nat := fieldN x 375 32
def gRhi (x : Nat) : Nat := fieldN x 343 32
def gMaxr (x : Nat) : Nat := fieldN x 311 32
def gWbase (x : Nat) : Nat := fieldN x 273 38
def gRstr (x : Nat) : Nat := fieldN x 241 32

/-- A group of 0x5900:02: member count and home endpoint id, 4 bytes each, then its member table entries. Log entry 24. -/
def b2GroupsGo : Nat → List Byte → List (BitVec 24 × List Nat)
  | 0, _ => []
  | fuel + 1, bs =>
    if bs.length < 8 then []
    else
      let n := numAt bs 0 4
      (BitVec.ofNat 24 (numAt bs 4 4), (pieces 8 (sliceB bs 8 (8 * n))).map leNat) :: b2GroupsGo fuel (bs.drop (8 + 8 * n))
def b2Groups (bs : List Byte) : List (BitVec 24 × List Nat) := b2GroupsGo bs.length bs

/-- The member table entry of a rank. -/
def memberEntry (s : State) (d : Desc) (r : Nat) : Nat :=
  match d.b2 with
  | none => leNat (regRead s d.plot (dMtab d + 8 * r) 8)
  | some b => match (b2Groups s.coll.b2Groups)[b.group]? with
    | some g => g.2.getD r 0
    | none => 0

/-- The link through which this module reaches a member (Table 8.3). -/
def memberLink (s : State) (d : Desc) (r : Nat) : Option Nat :=
  let e := memberEntry s d r
  (portsOfPlot s d.plot)[fieldN e 32 6]?.map (fun p => 2 * p + bit (fieldN e 38 2 == 3))

def memberEpid (s : State) (d : Desc) (r : Nat) : BitVec 24 := BitVec.ofNat 24 (fieldN (memberEntry s d r) 40 24)

/-- A home-map entry (Table 8.3). -/
structure Home where
  home : BitVec 24
  hpav : Nat
  slot : Nat
  daddr : Nat
  owner : Nat
  raddr : Nat
  hctr : Nat
deriving DecidableEq, Repr

def homeEntry (s : State) (d : Desc) (c : Nat) : Home :=
  match d.b2 with
  | some b => { home := b.home, hpav := 0xFF, slot := 0, daddr := 0, owner := c % (max 1 (dNmem d)), raddr := 0, hctr := 0 }
  | none =>
    let v := leNat (regRead s d.plot (dHmap d + 16 * c) 16)
    { home := BitVec.ofNat 24 (fieldN v 104 24), hpav := fieldN v 96 8, slot := fieldN v 86 10, daddr := fieldN v 64 22,
      owner := fieldN v 46 18, raddr := fieldN v 24 22, hctr := fieldN v 18 6 }

/-- The home is on this module. -/
def homeHere (s : State) (h : Home) : Bool := h.home == selfId s

/-- Chunks of a collective: DOPs 0x07–0x09 read entry 0 only (R237). -/
def nChunks (d : Desc) (x : Nat) : Nat :=
  if dDop d = 7 ∨ dDop d = 8 ∨ dDop d = 9 then 1
  else if xChunk x = 0 then 0
  else (dNelem d + xChunk x - 1) / xChunk x

/-- Elements of chunk `c`. -/
def chunkLen (d : Desc) (x c : Nat) : Nat := min (xChunk x) (dNelem d - c * xChunk x)

/-- Chunks homed on this module. -/
def homeChunks (s : State) (d : Desc) (x : Nat) : List Nat := (List.range (nChunks d x)).filter (fun c => homeHere s (homeEntry s d c))

/-! ### The descriptors of a collective on this module (R197) -/

def descAt? (s : State) (j i : Nat) : Option Desc := ((dieAt s j).descs.find? (fun e => e.1 == i)).map (·.2)
def setDesc (s : State) (j i : Nat) (d : Desc) : State := modDie s j (fun x => { x with descs := tblSet x.descs i d })
def modRun (s : State) (j i : Nat) (f : Run → Run) : State :=
  match descAt? s j i with
  | some d => setDesc s j i { d with prog := f d.prog }
  | none => s

/-- The descriptor has left its slot and stays only as the note of a B2 mismatch (R223). -/
def isNote (d : Desc) : Bool := match d.b2 with | some b => b.mismatch | none => false

/-- The descriptor of a plot and TAG on a port die. -/
def findDesc (s : State) (j n : Nat) (tag : BitVec 16) : Option (Nat × Desc) :=
  (dieAt s j).descs.find? (fun e => e.2.plot == n && dTag e.2 == tag && !isNote e.2)

/-- Every descriptor of a collective on this module: port die, index and descriptor. -/
def collDescs (s : State) (n : Nat) (tag : BitVec 16) : List (Nat × Nat × Desc) :=
  (List.range 16).filterMap (fun j => (findDesc s j n tag).map (fun e => (j, e.1, e.2)))

/-- The lead descriptor. -/
def leadDesc (s : State) (n : Nat) (tag : BitVec 16) : Option (Nat × Nat × Desc) := (collDescs s n tag).find? (fun e => dLead e.2.2)

/-- The ranks reached through the links of a port die. -/
def ranksOn (s : State) (d : Desc) (j : Nat) : List Nat :=
  (List.range (dNmem d)).filter (fun r => match memberLink s d r with | some l => linkDie l == j | none => false)

/-! ### Sending -/

/-- A segment of a collective from this module. -/
def segPkt (s : State) (d : Desc) (vc : BitVec 3) (dest : BitVec 24) (op : BitVec 256) (body : List Byte) : Pkt :=
  { vc := vc, cls := 0, plot := BitVec.ofNat 5 d.plot, epoch := (plotAt s d.plot).epoch, dest := dest, opc := opSeg, tag := dTag d,
    len := BitVec.ofNat 5 ((body.length + 239) / 240), op := op, body := body }

/-- The links on which a result goes: each link of a receiving member once, but for the one it arrived on (R196). -/
def resultLinks (s : State) (d : Desc) (recv : Nat → Bool) (but : Option Nat) : List Nat :=
  (((List.range (dNmem d)).filter recv).filterMap (memberLink s d)).foldl addNew [] |>.filter (fun l => some l != but)

/-- Send one segment down on every link due, addressed to the link partner (log entry 25). -/
def sendOn (s : State) (d : Desc) (recv : Nat → Bool) (but : Option Nat) (op : BitVec 256) (body : List Byte) : State :=
  (resultLinks s d recv but).foldl (fun s l => handOff s l 128 (segPkt s d 3 0xFFFFFE op body)) s

/-- Send one segment down, and note that it has been sent. -/
def sendDown (s : State) (j i : Nat) (d : Desc) (recv : Nat → Bool) (but : Option Nat) (op : BitVec 256) (body : List Byte)
    (key : Nat × Nat) : State :=
  modRun (sendOn s d recv but op body) j i (fun r => { r with sentRes := addNew r.sentRes key })

/-- Bytes of a row of `rowb` bytes: the row counts as sent, or received, once all of them have been. -/
def noteRow (r : Run) (key : Nat × Nat) (len rowb : Nat) : Run :=
  let k := key.1 * 2 ^ 32 + key.2
  let n := tblGet 0 r.rowSent k + len
  { r with rowSent := tblSet r.rowSent k n, sentRes := if rowb ≤ n then addNew r.sentRes key else r.sentRes }

/-- Send a segment of a row down. -/
def sendRowSeg (s : State) (j i : Nat) (d : Desc) (recv : Nat → Bool) (but : Option Nat) (op : BitVec 256) (body : List Byte)
    (key : Nat × Nat) (rowb : Nat) : State :=
  modRun (sendOn s d recv but op body) j i (fun r => noteRow r key body.length rowb)

/-- A result has gone out on every die of its collective in this run. -/
def sentIn (s : State) (d : Desc) (key : Nat × Nat) : Bool :=
  (collDescs s d.plot (dTag d)).any (fun e => (e.2.2.run == d.run && e.2.2.prog.sentRes.contains key) || e.2.2.run == d.run + 1)

/-- Forward a contribution on VC2 towards a home module (R195). -/
def forwardTo (s : State) (link : Nat) (d : Desc) (home : BitVec 24) (p : Pkt) : State :=
  sendOut s (some link) { p with vc := 2, dest := home, epoch := (plotAt s d.plot).epoch }

/-- The arrival partner is an endpoint: its stream is this module's to distribute. -/
def fromMember (s : State) (link : Nat) : Bool := partnerIsEndpoint (linkAt s link)

/-! ### Staging (R204, R207) -/

/-- The module pool of a plot-relative pool. -/
def poolOf (s : State) (n rel : Nat) : Option Nat := (s.pools.find? (fun e => e.2.plot == n && e.2.rel == rel)).map (·.1)

/-- A buffer from the descriptor's POOL, or none (R207). -/
def stageBuf (s : State) (d : Desc) : State × Option U32 :=
  match poolOf s d.plot (dPool d) with
  | none => (s, none)
  | some id =>
    let (s, a) := poolAlloc s id
    (s, if a.status == stOk then some a.handle else none)

/-- Staging buffers released. -/
def freeBufs (s : State) (hs : List U32) : State := hs.foldl (fun s h => if h = 0 then s else (poolRelease s h).1) s

/-- Write bytes to a buffer; a write that meets an uncorrectable word has the outcome of Table 4.8 or 11.3. -/
def fillBuf (s : State) (h : U32) (bs : List Byte) : State :=
  match poolAt? s (hPool h) with
  | none => s
  | some p => placePut s p.plot (bufPlace p h 0) bs

/-- The staging buffers of a descriptor (R204, R207, R208, R216). -/
def descBufs (d : Desc) : List U32 :=
  d.early.map (·.buf) ++ d.prog.staged.map (·.handle) ++ d.prog.bufs.map (·.2.2) ++ d.provIn.map (·.buf)

/-! ### Provisional segments sent (R215) -/

/-- The RANK that a result names: that of its data in an all-gather, and 0 otherwise (Table 8.5). -/
def namedRank (d : Desc) (r : Nat) : Nat := if dDop d = 3 then r else 0

/-- A relayed segment as it was sent: a contribution passed through goes down as a result. -/
def relayedKey (d : Desc) (g : SegKey) : SegKey := if g.kind == 0 then { g with kind := 1, rank := namedRank d g.rank } else g

/-- CONFIRM and RETRACT carry TAG, RUN, RANK, EOFF and KIND of the relayed segment `g` (R215). -/
def provPkt (s : State) (d : Desc) (g : SegKey) (run : Nat) (retract : Bool) : Pkt :=
  { vc := 1, cls := 0, plot := BitVec.ofNat 5 d.plot, epoch := (plotAt s d.plot).epoch, dest := 0xFFFFFE,
    opc := if retract then opRetract else opConfirm, tag := dTag d, len := 0, op := segOp g.eoff g.rank 0 run g.kind 0 0,
    ext := if retract then stRetracted else 0 }

/-- RETRACT for segments relayed provisionally on a die: counted, and COLL_RETRACT (R215). -/
def retractAll (s : State) (j : Nat) (d : Desc) (vs : List ProvSeg) : State :=
  vs.foldl (fun s v =>
    let s := v.outLinks.foldl (fun s l => handOff s l 128 (provPkt s d (relayedKey d v.key) v.run true)) s
    let s := { s with coll := { s.coll with retractions := s.coll.retractions + 1 } }
    emit s rkCollRetract (srcDie j) (some d.plot) []) s

/-- A descriptor leaves its slot: its buffers are released, and what it relayed provisionally is retracted. -/
def dropDesc (s : State) (j i : Nat) (d : Desc) : State :=
  let s := retractAll (freeBufs s (descBufs d)) j d d.provOut
  modDie s j (fun x => { x with descs := tblErase x.descs i })

/-! ### The end of a B2 collective (R222) -/

/-- The status packet of a B2 collective (R222). -/
def b2StatusPkt (s : State) (n : Nat) (tag : BitVec 16) (dest : BitVec 24) (st : U16) : Pkt :=
  { vc := 5, cls := 1, plot := BitVec.ofNat 5 n, epoch := (plotAt s n).epoch, dest := dest, opc := opB2Status, tag := tag, len := 0,
    op := BitVec.ofNat 256 ((selfId s).toNat * 2 ^ 232), ext := st }

/-- The built descriptors of a collective leave their slots on this module, and its home sends every member its B2_STATUS (R222). -/
def b2Leave (s : State) (d : Desc) (b : B2Info) (st : U16) : State :=
  let ds := (collDescs s d.plot (dTag d)).filter (fun e => e.2.2.b2.isSome)
  let s := ds.foldl (fun s e => dropDesc s e.1 e.2.1 e.2.2) s
  if b.home == selfId s then b.launchers.foldl (fun s e => sendOut s none (b2StatusPkt s d.plot (dTag d) e st)) s else s

/-! ### Faults and drops (R197, R203, R208, R210) -/

/-- A segment is dropped, counted in 0x5800:08 and reported (R203). -/
def dropSeg (s : State) (j : Nat) (k : RecKind) (st : U16) (p : Pkt) : State :=
  let s := { s with coll := { s.coll with dropped := s.coll.dropped + 1 } }
  emit s k (srcDie j) (some p.plot.toNat)
    ((16, st.toNat) :: if k == rkCollStale then [] else [(16, p.tag.toNat), (18, sRank p), (64, sEoff p)])

/-- The completion record of Table 8.7. -/
def completionBytes (d : Desc) (st : U16) (now : U64) : List Byte :=
  let r := d.prog
  natLe 32 (now.toNat % 2 ^ 32 * 2 ^ 32 + r.startTick.toNat % 2 ^ 32 * 2 ^ 64 + sat32 r.nOffsched * 2 ^ 96 + sat32 r.nRetracts * 2 ^ 128 +
    sat32 r.nBad * 2 ^ 160 + sat32 r.nDrops * 2 ^ 192 + d.run.toNat * 2 ^ 224 + st.toNat * 2 ^ 240)

/-- The completion record goes to CREC; a B2 collective keeps it in its reserve slot. -/
def writeRecord (s : State) (d : Desc) (st : U16) : State :=
  if d.b2.isSome then s else regWrite s d.plot (dCrec d) (completionBytes d st s.sd.ticks)

/-- A run ends with a fault status: its record, no signal, COLL_FAULT and the hold (R210); a B2 collective leaves its slots (R222). -/
def runFault (s : State) (j i : Nat) (st : U16) : State :=
  match descAt? s j i with
  | none => s
  | some d =>
    let s := writeRecord s d st
    let s := setDesc s j i { d with triggered := false, prog := { d.prog with status := st } }
    let s := emit s rkCollFault (srcDie j) (some d.plot) [(16, st.toNat)]
    let s := containedHold s [d.plot] hcCollective
    match d.b2 with
    | some b => b2Leave s d b st
    | none => s

/-! ### Signals of a Dovecote (R176, R204) -/

/-- Add 1 to HCTR of a home pavilion of this module. -/
def signalHome (s : State) (j : Nat) (n hpav hctr : Nat) : State :=
  match pavOfRel s n hpav with
  | some p => (signalPav s p hctr [(1, ⟨2, j⟩)]).1
  | none => s

/-! ### The edge combiner (R198) -/

/-- A slot of the combiner for the collective's reduction (R62, R66, R68). -/
def combSlot (d : Desc) : Slot :=
  let sq := dRop d == 2
  let wide := dIfmt d == fFP64 || sq
  slotMode wide (BitVec.ofNat 4 (dIfmt d)) sq (if !wide then 0 else if dIfmt d == fFP64 then dWb d else -298)

/-- The bits kept of a contribution for the order-based operations: FP64 bits of a MX element, else its own. -/
def keepBits (f : Nat) (v : Num) (bits : Nat) : BitVec 64 :=
  if fmtMx f then BitVec.ofNat 64 (writeFloat fFP64 0 0 v.toRes).bits else BitVec.ofNat 64 bits

/-- The format of kept bits. -/
def keepFmt (f : Nat) : Nat := if fmtMx f then fFP64 else f

/-- Two partial combinations of one element joined exactly, as a carry record joins a slot (R107, R122, R234). -/
def slotJoin (t u : Slot) : Slot :=
  if slotTurnsAway t u.count then { t with limit := true }
  else { t with
    value := if t.wide then t.value + u.value else slotSum (t.value + u.value), count := t.count + u.count, nan := t.nan || u.nan,
    posInf := t.posInf || u.posInf, negInf := t.negInf || u.negInf, allNegZero := t.allNegZero && u.allNegZero,
    escapes := t.escapes + u.escapes, limit := t.limit || u.limit }
def combJoin (a b : CombElem) : CombElem := { a with slot := slotJoin a.slot b.slot, tree := a.tree ++ b.tree }

/-- One contribution, of a rank at a stream position, enters the element of an offset (R194, R198). -/
def combAdd (d : Desc) (t : Tbl CombElem) (off rank pos : Nat) (v : Num) (bits : Nat) : Tbl CombElem :=
  let e := tblGet (CombElem.mk (combSlot d) [] none false) t off
  let kept := keepBits (dIfmt d) v bits
  let rop := dRop d
  tblSet t off (
    if dFto d || rop == 3 || rop == 4 then { e with tree := e.tree ++ [(rank, pos, kept)], slot := { e.slot with count := e.slot.count + 1 } }
    else if 5 ≤ rop then
      let b := match e.best with
        | none => kept
        | some a => if rop = 5 then a &&& kept else if rop = 6 then a ||| kept else a ^^^ kept
      { e with best := some b, slot := { e.slot with count := e.slot.count + 1 } }
    else { e with slot := slotAdd e.slot v })

/-- The result of an element before its one rounding. -/
def combResult (d : Desc) (e : CombElem) (div : Nat) : Elem :=
  let f := keepFmt (dIfmt d)
  let sorted := sortBy (fun a b => decide (a.1 < b.1) || (a.1 == b.1 && decide (a.2.1 ≤ b.2.1))) e.tree
  let nums := sorted.map (fun c => decodeElem f 0 c.2.2.toNat)
  if dFto d then
    let origin : Origin := if nums.any Num.isNan then .nanIn else if nums.any Num.isInf then .infIn else .plain
    let r := decodeElem fFP64 0 (treeSum (sorted.map (fun c => c.2.2.toNat)))
    let o : Origin := if r.isNan && origin != .nanIn then .nanGen else if nums.isEmpty then .empty else origin
    match r.toRes, dRop d with
    | .fin n num den x, 1 => if div = 0 then ⟨.nan, .empty⟩ else ⟨.fin n num (den * div) x, o⟩
    | x, _ => ⟨x, o⟩
  else if dRop d = 3 then extremum false nums
  else if dRop d = 4 then extremum true nums
  else slotResult e.slot (if dRop d = 1 then some div else none)

/-- Write the results of consecutive offsets in the output format: summary, element bytes and scale bytes. Bitwise results are
written as they are (R76); R83 names no summary for them, and theirs counts no element (log entry 101). -/
def combWrite (s : State) (d : Desc) (base : Nat) (y : Summary) (es : List (CombElem × Nat)) : Summary × List Byte × List Byte :=
  if 5 ≤ dRop d then
    let zero := if dRop d = 5 then BitVec.allOnes 64 else 0
    let vs := es.map (fun e => (e.1.best.getD zero).toNat % 2 ^ fmtBits (dIfmt d))
    (y, packElems (dIfmt d) vs, [])
  else
    let p := plotAt s d.plot
    let at_ := dEbase d + base
    -- a mean in fixed-tree order has one further rounding, to nearest even (R69)
    let rm := if dFto d && dRop d == 1 then 0 else dRm d
    let (y, eb, sb) := writeElems (dOfmt d) rm (genBits p.seed d.prog.step (dTid d)) at_ y (es.map (fun e => combResult d e.1 e.2))
    (drainMarks (es.map (·.1.slot)) at_ y, eb, sb)

/-- The summary a combined result starts from (R83), with the step value latched when the run began (R80). -/
def combSummary0 (d : Desc) : Summary :=
  { tid := dTid d, step := d.prog.step, fmt := BitVec.ofNat 4 (dOfmt d), fto := dFto d }

end Sys2Proof.Machine
end

