-- ==== Sys2Proof/Machine/CollDense.lean ====
section
/-! DEFINITION. Dense collectives (DOPs 0x01–0x04): delivery to SRAM, to ACCUM by the feed, to the edge combiner, and pass-through (R195,
R196, R198, R203–R206). MX scale bytes lie after all elements, in segments, in delivery areas and in results. Log entry 26. -/

namespace Sys2Proof.Machine

/-- Bytes of `n` elements with their MX scales. -/
def dataBytes (f n : Nat) : Nat := fmtSize f n + (if fmtMx f then (n + 31) / 32 else 0)

/-- The part of a segment that lies in one chunk. -/
structure Piece where
  chunk : Nat
  n : Nat
  elems : List Byte
  scales : List Byte
deriving DecidableEq, Repr

/-- The pieces of a segment of `nel` elements at `eoff`, by chunk. -/
def segPieces (f chunk eoff nel : Nat) (body : List Byte) : List Piece :=
  if chunk = 0 then []
  else
    let c0 := eoff / chunk
    let k := (nel + chunk - 1) / chunk
    (List.range k).map (fun i =>
      let n := min chunk (nel - i * chunk)
      { chunk := c0 + i, n := n, elems := sliceB body (fmtSize f (i * chunk)) (fmtSize f n),
        scales := if fmtMx f then sliceB body (fmtSize f nel + i * chunk / 32) ((n + 31) / 32) else [] })

/-! ### The segments of a result chunk -/

/-- Elements of a full result segment: as many of a chunk as 3,840 bytes hold, in whole MX blocks. Log entry 27. -/
def resEl (d : Desc) (x : Nat) : Nat :=
  let f := dOfmt d
  min (xChunk x) (if fmtMx f then 3840 / (fmtSize f 32 + 1) * 32 else 3840 * 8 / fmtBits f)

/-- Offsets of the result segments of chunk `c`. -/
def resOffs (d : Desc) (x c : Nat) : List Nat :=
  let e := resEl d x
  if e = 0 then [] else (List.range ((chunkLen d x c + e - 1) / e)).map (fun k => c * xChunk x + k * e)

/-- Every result segment of a chunk has gone out. -/
def chunkSent (s : State) (d : Desc) (x c : Nat) : Bool := (resOffs d x c).all (fun o => sentIn s d (o, 0))

/-! ### Faults of a dense segment (R203) -/

/-- NEL is SEGEL, or the remainder in the last segment. -/
def nelDue (x nelem eoff : Nat) : Nat := min (xSegel x) (nelem - eoff)

/-- A rank contributes: only the root does to a broadcast. -/
def contributes (d : Desc) (x r : Nat) : Bool := dDop d != 4 || r == xRoot x

/-- The static faults of a segment of DOPs 0x01–0x04. -/
def denseFault (s : State) (d : Desc) (x link : Nat) (p : Pkt) : Bool :=
  if sKind p = 0 then
    emptyColl d || decide (dNmem d ≤ sRank p) || memberLink s d (sRank p) != some link || xSegel x == 0 || !contributes d x (sRank p) ||
    sEoff p % xSegel x != 0 || decide (dNelem d ≤ sEoff p) || sNel p != nelDue x (dNelem d) (sEoff p) ||
    decide (p.body.length < dataBytes (dIfmt d) (sNel p))
  else if sKind p = 1 then
    emptyColl d || decide (dNmem d ≤ sRank p) || xSegel x == 0 || decide (dNelem d < sEoff p + sNel p) ||
    (if dDop d ≤ 2 then xChunk x == 0 || !(resOffs d x (sEoff p / max 1 (xChunk x))).contains (sEoff p) else sEoff p % xSegel x != 0) ||
    decide (p.body.length < dataBytes (dOfmt d) (sNel p))
  else true

/-! ### HCTR (R204) -/

/-- The Dovecote signals HCTR of a chunk's home once every member reached through its own ports has had that chunk written or
added. -/
def chunkSignal (s : State) (j i c : Nat) : State :=
  match descAt? s j i with
  | none => s
  | some d =>
    let ranks := ranksOn s d j
    if d.prog.signalled.contains c || ranks.isEmpty || !ranks.all (fun r => d.prog.delivered.contains (c, r)) then s
    else
      let h := homeEntry s d c
      signalHome (modRun s j i (fun r => { r with signalled := r.signalled ++ [c] })) j d.plot h.hpav h.hctr

/-- A chunk of a rank has been written or added. -/
def chunkDone (s : State) (j i c rank : Nat) : State :=
  chunkSignal (modRun s j i (fun r => { r with delivered := addNew r.delivered (c, rank) })) j i c

/-! ### DELIV 0 -/

/-- Where a chunk of a rank is written in home SRAM (Table 8.3). -/
def deliverWrites (d : Desc) (x : Nat) (h : Home) (rank : Nat) (q : Piece) : List (Nat × List Byte) :=
  let f := dIfmt d
  [(h.daddr + rank * fmtSize f (xChunk x), q.elems)] ++
    (if fmtMx f then [(h.daddr + dNmem d * fmtSize f (xChunk x) + rank * (xChunk x / 32), q.scales)] else [])

/-- Write pieces to the SRAM of a home pavilion; an uncorrectable word marks it failed (R96, R127). -/
def writeHome (s : State) (n hpav : Nat) (ws : List (Nat × List Byte)) : State :=
  match pavOfRel s n hpav with
  | none => s
  | some p =>
    let (v, e) := sramWrites (pavAt s p) ws
    let s := setPav s p v
    match e with
    | some _ => pavFault s rkSramUncorrected p
    | none => s

/-! ### DELIV 3 (R205) -/

/-- Send a combined or home-formed chunk down from the lead, in one segment or in several where its bytes fill more than one (R196, R205,
log entry 27). -/
def sendChunk (s : State) (j i c : Nat) (elems scales : List Byte) : State :=
  match descAt? s j i with
  | none => s
  | some d =>
    let x := xBlock s d
    let f := dOfmt d
    let b := c * xChunk x
    let owner := (homeEntry s d c).owner
    (resOffs d x c).foldl (fun s o =>
      let n := min (resEl d x) (b + chunkLen d x c - o)
      let body := sliceB elems (fmtSize f (o - b)) (fmtSize f n) ++ (if fmtMx f then sliceB scales ((o - b) / 32) ((n + 31) / 32) else [])
      sendDown s j i d (fun r => dDop d != 2 || r == owner) none (segOp o 0 n d.run.toNat 1 0 0) body (o, 0))
      (modRun s j i (fun r => { r with released := r.released ++ [c] }))

/-- The last contribution of a chunk is in: the edge combiner rounds each element once and releases the chunk; a mean divides by the
declared member count (R74). -/
def combineChunk (s : State) (j i c : Nat) : State :=
  match descAt? s j i with
  | none => s
  | some d =>
    let x := xBlock s d
    let n := chunkLen d x c
    let b := c * xChunk x
    let es := (List.range n).map (fun k => (tblGet (CombElem.mk (combSlot d) [] none false) d.prog.comb (b + k), dNmem d))
    let y0 := if d.prog.summary.elems = 0 ∧ d.prog.released.isEmpty then combSummary0 d else d.prog.summary
    let (y, eb, sb) := combWrite s d b y0 es
    let s := modRun s j i (fun r => { r with summary := y, comb := r.comb.filter (fun e => !(decide (b ≤ e.1) && decide (e.1 < b + n))) })
    sendChunk s j i c eb sb

/-- A piece of a rank's contribution enters the edge combiner of the lead; with the last one the chunk is released. -/
def combinePiece (s : State) (n : Nat) (tag : BitVec 16) (rank : Nat) (q : Piece) : State :=
  match leadDesc s n tag with
  | none => s
  | some (j, i, d) =>
    let x := xBlock s d
    let vals := decodeArr (dIfmt d) q.n q.elems q.scales
    let comb := ((List.range q.n).zip vals).foldl (fun t e =>
      combAdd d t (q.chunk * xChunk x + e.1) rank 0 e.2 (elemAt (dIfmt d) q.elems e.1)) d.prog.comb
    let ended := addNew d.prog.subEnded (q.chunk, rank)
    let s := modRun s j i (fun r => { r with comb := comb, subEnded := ended })
    if (List.range (dNmem d)).all (fun r => ended.contains (q.chunk, r)) then combineChunk s j i q.chunk else s

/-! ### DELIV 1: staging and the feed (R204) -/

/-- A buffer for each piece, or none of them: what a refused allocation counts stays (R207). -/
def stagePieces (s : State) (j i rank : Nat) (d : Desc) : List Piece → List (Piece × U32) → State × Option (List (Piece × U32))
  | [], acc => (s, some acc)
  | q :: r, acc =>
    match stageBuf s d with
    | (s', none) => (freeBufs s' (acc.map (·.2)), none)
    | (s', some h) => stagePieces (fillBuf s' h (q.elems ++ q.scales)) j i rank d r (acc ++ [(q, h)])

def stagedOf (rank : Nat) (q : Piece × U32) : StagedChunk :=
  { chunk := q.1.chunk, rank := rank, handle := q.2, carry := false, data := q.1.elems, scales := q.1.scales, last := true }

/-- The elements and scales of a staged chunk as its buffer holds them; none where they meet an uncorrectable word (Tables 4.8, 11.3). -/
def stagedBytes (s : State) (n : Nat) (g : StagedChunk) : State × Option (List Byte) :=
  match poolAt? s (hPool g.handle) with
  | some p => placeGet s n (bufPlace p g.handle 0) (g.data.length + g.scales.length)
  | none => (s, some (g.data ++ g.scales))

/-- The slots agree with the contribution: mode, format and square flag (R204, R61). -/
def feedOk (d : Desc) (t : Slot) : Bool :=
  let sq := dRop d == 2
  t.fmt == some (BitVec.ofNat 4 (dIfmt d)) && t.sq == sq && t.wide == (dIfmt d == fFP64 || sq)

/-- Feed one staged chunk into the home's ACCUM, release its buffer and signal HCTR where due. A chunk that cannot be read leaves the run
incomplete. -/
def feedChunk (s : State) (j i : Nat) (d : Desc) (g : StagedChunk) : State :=
  let h := homeEntry s d g.chunk
  let f := dIfmt d
  let n := g.data.length * 8 / fmtBits f
  match stagedBytes s d.plot g with
  | (s, none) => modRun s j i (fun r => { r with stuck := true })
  | (s, some bs) =>
  let s := freeBufs (modRun s j i (fun r => { r with staged := r.staged.erase g })) [g.handle]
  match pavOfRel s d.plot h.hpav with
  | none => s
  | some p =>
    let js := slotRange h.slot n
    if !js.all (fun k => feedOk d (slotAt (pavAt s p) k)) then runFault s j i stVerifyFail
    else
      let vals := decodeArr f n (bs.take g.data.length) (bs.drop g.data.length)
      chunkDone (contribute ⟨p, 1⟩ s (js.zip vals)) j i g.chunk g.rank

/-! ### A dense segment of the current run -/

inductive SegRes where
  | ok (s : State)
  | stall (s : State)

/-- Deliver the pieces homed here. -/
def deliverPieces (s : State) (j i : Nat) (d : Desc) (x rank : Nat) (qs : List Piece) : SegRes :=
  let mine := qs.filter (fun q => homeHere s (homeEntry s d q.chunk))
  match dDeliv d with
  | 0 => .ok (mine.foldl (fun s q =>
      let h := homeEntry s d q.chunk
      chunkDone (writeHome s d.plot h.hpav (deliverWrites d x h rank q)) j i q.chunk rank) s)
  | 1 =>
    match stagePieces s j i rank d mine [] with
    | (s', none) => .stall s'
    | (s', some qs) => .ok (modRun s' j i (fun r => { r with staged := r.staged ++ qs.map (stagedOf rank) }))
  | _ => .ok (mine.foldl (fun s q => combinePiece s d.plot (dTag d) rank q) s)

/-- The home modules, other than this one, of the pieces of a segment. -/
def otherHomes (s : State) (d : Desc) (qs : List Piece) : List (BitVec 24) :=
  ((qs.map (fun q => (homeEntry s d q.chunk).home)).filter (fun e => e != selfId s)).foldl addNew []

/-- A contribution of DOPs 0x01 and 0x02: to the homes here, and forwarded to the others when it comes from a member. -/
def denseContribution (s : State) (j i link : Nat) (d : Desc) (x : Nat) (p : Pkt) : SegRes :=
  let qs := segPieces (dIfmt d) (xChunk x) (sEoff p) (sNel p) p.body
  match deliverPieces s j i d x (sRank p) qs with
  | .stall s => .stall s
  | .ok s => .ok (if fromMember s link then (otherHomes s d qs).foldl (fun s e => forwardTo s link d e p) s else s)

/-- The rank whose data a pass-through segment carries: the root's in a broadcast. -/
def dataRank (s : State) (d : Desc) (p : Pkt) : Nat := if dDop d = 4 then xRoot (xBlock s d) else sRank p

/-- The members that receive a segment of DOPs 0x03 and 0x04: all of them of an all-gather, every one but the root of a broadcast
(Table 8.1). -/
def passesTo (s : State) (d : Desc) (p : Pkt) (m : Nat) : Bool := dDop d == 3 || m != dataRank s d p

/-- Pass-through of DOPs 0x03 and 0x04: a contribution goes down as a result of its rank on every port of a receiving member. Log
entry 28. -/
def passThrough (s : State) (j i : Nat) (d : Desc) (p : Pkt) (but : Option Nat) : State :=
  sendDown s j i d (passesTo s d p) but
    (segOp (sEoff p) (namedRank d (sRank p)) (sNel p) d.run.toNat 1 0 0) p.body (sEoff p, dataRank s d p)

/-- A result segment that arrived on VC3 goes on to the receiving members behind the other ports (R196). -/
def relayResult (s : State) (j i link : Nat) (d : Desc) (x : Nat) (p : Pkt) : State :=
  if dDop d ≤ 2 then
    let owner := (homeEntry s d (sEoff p / xChunk x)).owner
    sendDown s j i d (fun r => dDop d != 2 || r == owner) (some link) p.op p.body (sEoff p, 0)
  else passThrough s j i d p (some link)

/-- A segment of the current run of DOPs 0x01–0x04. -/
def denseSeg (s : State) (j i link : Nat) (d : Desc) (p : Pkt) : SegRes :=
  let x := xBlock s d
  if sKind p = 1 then .ok (relayResult s j i link d x p)
  else if dDop d ≤ 2 then denseContribution s j i link d x p
  else .ok (passThrough s j i d p none)

/-! ### Result release under DELIV 0 and 1 (R205) -/

/-- Bytes that a Dovecote reads from a home pavilion; an uncorrectable word is not read (R127). -/
def homeRead (s : State) (pav a n : Nat) : State × Option (List Byte) :=
  match sramBad (pavAt s pav) a n with
  | some _ => (pavFault s rkSramUncorrected pav, none)
  | none => (s, some (sramRead (pavAt s pav) a n))

/-- Release chunk `c`, homed at pavilion `pav`: read at RADDR and sent down. -/
def releaseDense (s : State) (j i : Nat) (d : Desc) (c pav : Nat) : State :=
  let x := xBlock s d
  let n := chunkLen d x c
  match homeRead s pav (homeEntry s d c).raddr (dataBytes (dOfmt d) n) with
  | (s', none) => s'
  | (s', some bs) => sendChunk s' j i c (bs.take (fmtSize (dOfmt d) n)) (bs.drop (fmtSize (dOfmt d) n))

end Sys2Proof.Machine
end

