-- ==== Sys2Proof/Machine/CollSparse.lean ====
section
/-! DEFINITION. Record streams: sparse all-reduce, sort, top-k and filter (R227–R238). The edge combiner's modes change no result (R122). -/

namespace Sys2Proof.Machine

/-! ### Records and streams (R228, R229) -/

/-- Bytes of a record of the collective's input. -/
def recBytesOf (d : Desc) : Nat := recordSize (dIfmt d) false

/-- The records of a segment. -/
def segRecs (d : Desc) (p : Pkt) : List MRec :=
  (List.range (sNel p)).map (fun k => readRecord (dIfmt d) (sliceB p.body (k * recBytesOf d) (recBytesOf d)))

/-- The value extension bits of a segment's records are zero (R147). -/
def extZero (d : Desc) (p : Pkt) : Bool :=
  dIfmt d == fFP64 || (List.range (sNel p)).all (fun k => numAt p.body (k * 8 + 4) 4 / 2 ^ fmtBits (dIfmt d) == 0)

/-! Streams of a run are told apart by number and rank: 0 a member's stream, 2 a used-row report, 8 + 2c the sub-stream of chunk c
from another module, 9 + 2c the result stream of chunk c and 3 a row list on their way down, both with rank 0. -/

def subStream (c : Nat) : Nat := 8 + 2 * c
def resStream (c : Nat) : Nat := 9 + 2 * c

/-- Where the positions of a stream's records are kept, those of sub-streams after those of member streams. -/
def posBase (stream : Nat) : Nat := stream * 2 ^ 64

/-- The stream and position of a segment (Table 9.2). -/
def streamOf (d : Desc) (g : SegKey) : Nat × Nat :=
  let c := g.eoff / 2 ^ 32
  let pos := g.eoff % 2 ^ 32
  match g.kind with
  | 0 => if dDop d == 6 && g.dest == 1 then (subStream c, pos) else (0, g.eoff)
  | 1 => if dDop d == 6 then (resStream c, pos) else (resStream 0, g.eoff)
  | k => (k, g.eoff)

/-- The rank of a segment's stream: results and row lists have one stream for all. -/
def streamRank (g : SegKey) : Nat := if g.kind == 1 || g.kind == 3 then 0 else g.rank

/-- The length of a stream that has ended. -/
def endedAt (r : Run) (stream rank : Nat) : Option Nat := (r.ended.find? (fun e => e.1 == stream && e.2.1 == rank)).map (·.2.2)

def recvKey (stream rank : Nat) : Nat := stream * 2 ^ 18 + rank

/-- The stream of a rank is whole: it has ended and every position before its end has arrived. -/
def streamWhole (r : Run) (stream rank : Nat) : Bool :=
  match endedAt r stream rank with
  | none => false
  | some n => decide (n ≤ tblGet 0 r.recv (recvKey stream rank))

/-- Entries of a stream received so far are counted. -/
def countRecv (r : Run) (stream rank n : Nat) (ends : Bool) (pos : Nat) : Run :=
  let r := { r with recv := tblMod 0 r.recv (recvKey stream rank) (· + n) }
  if ends then { r with ended := r.ended ++ [(stream, rank, pos + n)] } else r

/-- Indices do not fall (DOP 0x06). -/
def notFalling : List Nat → Bool
  | a :: b :: r => decide (a ≤ b) && notFalling (b :: r)
  | _ => true

/-- Entries rise strictly (row lists and reports). -/
def rising : List Nat → Bool
  | a :: b :: r => decide (a < b) && rising (b :: r)
  | _ => true

/-- The records kept of a stream, in the order of their positions. -/
def streamRecs (r : Run) (stream rank : Nat) : List (Nat × Nat × BitVec 32 × BitVec 64) :=
  sortBy (fun a b => decide (a.2.1 ≤ b.2.1)) (r.recs.filter (fun e => e.1 == rank && e.2.1 / 2 ^ 64 == stream))

/-- The index of the record kept at a position of a stream. -/
def recAt (r : Run) (stream rank pos : Nat) : Option Nat :=
  (r.recs.find? (fun e => e.1 == rank && e.2.1 == posBase stream + pos)).map (fun e => e.2.2.1.toNat)

/-- Two neighbouring entries are in order: rising strictly, or not falling. -/
def inOrder (strict : Bool) (a b : Nat) : Bool := if strict then decide (a < b) else decide (a ≤ b)

/-- The boundary with the segment before, where that has arrived, is in order (R229). -/
def joins (r : Run) (strict : Bool) (stream rank pos : Nat) (idxs : List Nat) : Bool :=
  match (if pos = 0 then none else recAt r stream rank (pos - 1)), idxs.head? with
  | some b, some a => inOrder strict b a
  | _, _ => true

/-- The boundary with the segment after, where that has arrived, breaks the order (R229). -/
def breaksAfter (r : Run) (strict : Bool) (stream rank pos : Nat) (idxs : List Nat) : Bool :=
  match idxs.getLast?, recAt r stream rank (pos + idxs.length) with
  | some a, some b => !inOrder strict a b
  | _, _ => false

/-- The segment is positioned after the one that ended its stream (R229). -/
def afterEnd (r : Run) (stream rank pos : Nat) : Bool :=
  match endedAt r stream rank with
  | some n => decide (n ≤ pos)
  | none => false

/-- What a segment that leaves its stream takes back: its records, its count and its end. -/
def takeBack (segel : Nat) (d : Desc) (r : Run) (g : SegKey) : Run :=
  let (stream, pos) := streamOf d g
  let rank := streamRank g
  let endsIt (e : Nat × Nat × Nat) : Bool := e.1 == stream && e.2.1 == rank && decide (pos ≤ e.2.2) && decide (e.2.2 < pos + segel)
  let n := match r.ended.find? endsIt with
    | some e => e.2.2 - pos
    | none => segel
  let lo := posBase stream + pos
  { r with
    got := r.got.erase g
    recs := r.recs.filter (fun e => !(e.1 == rank && decide (lo ≤ e.2.1) && decide (e.2.1 < lo + segel)))
    recv := tblMod 0 r.recv (recvKey stream rank) (· - n)
    ended := r.ended.filter (fun e => !endsIt e)
    bufs := r.bufs.filter (fun b => b.1 != g) }

/-- Segments that the arrival of `p` shows to be out of place are dropped now: those after the segment that ends their stream, and the next
one where its boundary breaks the order (R229). -/
def dropLater (s : State) (j i : Nat) (p : Pkt) (segel : Nat) (ends breaks : Bool) : State :=
  match descAt? s j i with
  | none => s
  | some d =>
    let k := segKey p
    let (stream, pos) := streamOf d k
    let late := d.prog.got.filter (fun g =>
      g.kind == k.kind && streamRank g == streamRank k && (streamOf d g).1 == stream &&
        ((ends && decide (pos < (streamOf d g).2)) || (breaks && (streamOf d g).2 == pos + segel)))
    late.foldl (fun s g =>
      let s := freeBufs s ((d.prog.bufs.filter (fun b => b.1 == g)).map (·.2.2))
      dropSeg (modRun s j i (fun r => takeBack segel d r g)) j rkCollSegInvalid stSegInvalid
        { p with op := segOp g.eoff g.rank 0 (sRun p).toNat g.kind g.dest g.slot }) s

/-- Static faults of a record stream segment of DOPs 0x06–0x09. -/
def streamFault (s : State) (d : Desc) (x link : Nat) (r : Run) (p : Pkt) : Bool :=
  let nel := sNel p
  let (stream, pos) := streamOf d (segKey p)
  if sKind p = 0 then
    let idxs := (segRecs d p).map (·.index)
    emptyColl d || decide (dNmem d ≤ sRank p) || memberLink s d (sRank p) != some link || xSegel x == 0 || pos % xSegel x != 0 ||
    decide (xSegel x < nel) || decide (p.body.length < nel * recBytesOf d) || !extZero d p ||
    (dDop d == 6 && (!notFalling idxs || idxs.any (fun k => decide (dNelem d ≤ k)) || !joins r false stream (sRank p) pos idxs)) ||
    (dDop d != 6 && decide (xChunk x < pos + nel)) || afterEnd r stream (sRank p) pos ||
    (dDop d == 6 && sDest p == 1 && decide (nChunks d x ≤ sEoff p / 2 ^ 32))
  else if sKind p = 1 then
    emptyColl d || decide (dNmem d ≤ sRank p) || xSegel x == 0 || pos % xSegel x != 0 || decide (xSegel x < nel) || afterEnd r stream 0 pos
  else true

/-! ### Results as record streams (R228, R235) -/

/-- Segments of a stream of records from position 0, ended by one shorter than SEGEL. -/
def streamSegs (segel bytes : Nat) (recs : List Byte) : List (Nat × Nat × List Byte) :=
  let n := if bytes = 0 then 0 else recs.length / bytes
  let k := if segel = 0 then 1 else n / segel + 1
  (List.range k).map (fun t => (t * segel, min segel (n - t * segel), sliceB recs (t * segel * bytes) (min segel (n - t * segel) * bytes)))

/-- Send a result stream to every member; the EOFF of its segments starts at `base`. -/
def sendStream (s : State) (j i : Nat) (d : Desc) (x kind base bytes : Nat) (recs : List Byte) (key : Nat × Nat) : State :=
  (streamSegs (xSegel x) bytes recs).foldl (fun s g =>
    sendDown s j i d (fun _ => true) none (segOp (base + g.1) 0 g.2.1 d.run.toNat kind 0 0) g.2.2 key) s

/-- A result or row-list segment on its way down goes on to the members behind the other ports, and its stream counts as sent once it is
whole (R196, R209, R228). -/
def relayStream (s : State) (j i link : Nat) (d : Desc) (p : Pkt) (segel : Nat) (key : Nat × Nat) : State :=
  let ends := decide (sNel p < segel)
  let (stream, pos) := streamOf d (segKey p)
  let s := sendOn s d (fun _ => true) (some link) p.op p.body
  let s := modRun s j i (fun r => countRecv r stream 0 (sNel p) ends pos)
  let s := dropLater s j i p segel ends false
  modRun s j i (fun r => if streamWhole r stream 0 then { r with sentRes := addNew r.sentRes key } else r)

/-! ### The edge combiner on carry records (R121, R122) -/

/-- The combine mode acts: a sum, and values that are not FP64; any other stream is forwarded compact-only, which changes no record
(R121). -/
def combines (d : Desc) : Bool := dEcm d == 2 && dRop d == 0 && dIfmt d != fFP64

/-- A carry record holds at most this many contributions (Table 4.3). -/
def carryMax : Nat := 2 ^ 24 - 1

/-- The carry records of one index: its values added exactly, cut where a record's COUNT is full (R63, R121). -/
def carriesOf (d : Desc) (index : Nat) (vals : List Nat) : List Carry :=
  (pieces carryMax vals).map (fun vs =>
    let t := vs.foldl (fun t v => slotAdd t (decodeElem (dIfmt d) 0 v)) (slotMode false (BitVec.ofNat 4 (dIfmt d)) false 0)
    { index := index, count := t.count, nan := t.nan, posInf := t.posInf, negInf := t.negInf, allNegZero := t.allNegZero, fmt := dIfmt d,
      value := t.value })

/-- The carry records of a group of streams of one chunk, by ascending index. -/
def groupCarries (d : Desc) (rs : List (Nat × Nat × BitVec 32 × BitVec 64)) : List Carry :=
  (sortNat (rs.map (fun e => e.2.2.1.toNat)).eraseDups).flatMap (fun k =>
    carriesOf d k ((rs.filter (fun e => e.2.2.1.toNat == k)).map (fun e => e.2.2.2.toNat)))

/-- A carry record as a partial combination of its element. -/
def carryElem (d : Desc) (c : Carry) : CombElem := { slot := slotCarry (combSlot d) c, tree := [], best := none, nanSeen := false }

/-! ### Sparse all-reduce (R230–R235) -/

/-- Streams of partial combinations merged index by index (R109–R111, R234). -/
def mergeElems (ss : List (Tbl CombElem)) : Tbl CombElem :=
  ss.flatten.foldl (fun t e =>
    if t.any (fun u => u.1 == e.1) then tblSet t e.1 (combJoin (tblGet e.2 t e.1) e.2) else tblSet t e.1 e.2) []

/-- Passes over groups of 8 streams, in order, until one is left (R234). -/
def mergePasses : Nat → List (Tbl CombElem) → Tbl CombElem
  | 0, ss => mergeElems ss
  | fuel + 1, ss => if ss.length ≤ 8 then mergeElems ss else mergePasses fuel ((pieces 8 ss).map mergeElems)

/-- The streams of a chunk at the lead: each rank's records in ascending rank, and each group's carry records. -/
def chunkStreams (d : Desc) (c : Nat) (r : Run) : List (Tbl CombElem) :=
  let rs := (r.merged.filter (fun e => e.1 == c)).map (·.2)
  let cs := (r.carries.filter (fun e => e.1 == c)).map (·.2)
  ((sortNat (rs.map (·.1)).eraseDups).map (fun rank => (rs.filter (fun e => e.1 == rank)).foldl (fun t e =>
    combAdd d t e.2.2.1.toNat rank e.2.1 (decodeElem (dIfmt d) 0 e.2.2.2.toNat) e.2.2.2.toNat) [])) ++
  ((sortNat (cs.map (·.1)).eraseDups).map (fun g => mergeElems ((cs.filter (fun e => e.1 == g)).map (fun e =>
    let k := carryOf e.2.toNat
    [(k.index, carryElem d k)]))))

/-- The lead is done with a chunk: its records and carry records go, and the staging buffers of every die that held them. -/
def releaseChunkBufs (s : State) (d : Desc) (c : Nat) : State :=
  (collDescs s d.plot (dTag d)).foldl (fun s e =>
    let s := freeBufs s ((e.2.2.prog.bufs.filter (fun b => b.2.1 == c)).map (·.2.2))
    modRun s e.1 e.2.1 (fun r => { r with
      bufs := r.bufs.filter (fun b => b.2.1 != c), merged := r.merged.filter (fun m => m.1 != c), carries := r.carries.filter (fun m => m.1 != c) })) s

/-- The lead's combiner merges the sub-streams of a chunk, rounds each index once and releases the chunk at once; contributions that a slot
turned away are reported (R64, R234). -/
def sparseCombine (s : State) (j i c : Nat) (d : Desc) (x : Nat) : State :=
  let streams := chunkStreams d c d.prog
  let comb := mergePasses streams.length streams
  let y0 := if d.prog.summary.elems = 0 ∧ d.prog.released.isEmpty then combSummary0 d else d.prog.summary
  -- consecutive offsets are written one by one, so that each takes its own element index
  let (y, out) := comb.foldl (fun (acc : Summary × List Byte) e =>
    let div := if yDivs x = 1 then dNmem d else e.2.slot.count
    let (y, eb, _) := combWrite s d e.1 acc.1 [(e.2, div)]
    let v := leNat eb
    (y, acc.2 ++ recordBytes (dOfmt d) false { index := e.1, val := v })) (y0, [])
  let s := reportLimits s (srcDie j) (some d.plot) ((comb.filter (fun e => e.2.slot.limit)).map (fun e => e.1 % 1024))
  let s := releaseChunkBufs (modRun s j i (fun r => { r with summary := y, released := r.released ++ [c] })) d c
  sendStream s j i d x 1 (c * 2 ^ 32) (recordSize (dOfmt d) false) out (c, 0)

/-- All NMEM sub-streams of a chunk homed here have ended at the lead: combined, or ready for the feed (R232). -/
def chunkEnded (s : State) (j i c : Nat) : State :=
  match descAt? s j i with
  | none => s
  | some d =>
    let x := xBlock s d
    if !(List.range (dNmem d)).all (fun r => d.prog.subEnded.contains (c, r)) then s
    else if dDeliv d = 3 then sparseCombine s j i c d x
    else modRun s j i (fun r => { r with staged := r.staged ++ [StagedChunk.mk c 0 0 true [] [] true] })

/-- Whole sub-streams of a chunk reach the lead of its home, as records or as carry records of a group (R231, R232). -/
def toLead (s : State) (n : Nat) (tag : BitVec 16) (c : Nat) (ranks : List Nat) (rs : List (Nat × Nat × BitVec 32 × BitVec 64))
    (cs : List (Nat × Carry)) : State :=
  match leadDesc s n tag with
  | none => s
  | some (j, i, _) =>
    let s := modRun s j i (fun r => { r with
      merged := r.merged ++ rs.map (fun e => (c, e)), carries := r.carries ++ cs.map (fun e => (c, e.1, BitVec.ofNat 384 (carryNat e.2)))
      subEnded := ranks.foldl (fun l k => addNew l (c, k)) r.subEnded })
    chunkEnded s j i c

/-- Forward a whole sub-stream of a member to a home on another module (R231). -/
def forwardSub (s : State) (link : Nat) (d : Desc) (x c rank : Nat) (home : BitVec 24) (rs : List MRec) : State :=
  let bytes := rs.flatMap (recordBytes (dIfmt d) false)
  (streamSegs (xSegel x) (recBytesOf d) bytes).foldl (fun s g =>
    forwardTo s link d home (segPkt s d 2 home (segOp (c * 2 ^ 32 + g.1) rank g.2.1 d.run.toNat 0 1 0) g.2.2)) s

/-- The chunks homed here. -/
def chunksHere (s : State) (d : Desc) (x : Nat) : List Nat := (List.range (nChunks d x)).filter (fun c => homeHere s (homeEntry s d c))

/-- The members of a die whose streams its edge combiner combines: those attached to the die's own ports. -/
def ownMembers (s : State) (d : Desc) (j : Nat) : List Nat :=
  (ranksOn s d j).filter (fun r => match memberLink s d r with | some l => fromMember s l | none => false)

/-- The edge combiner of a die, with the streams of all its members in, combines them in groups of 8 into carry records for the chunks homed
here (R121, R231). -/
def combineDie (s : State) (j i : Nat) (d : Desc) (x : Nat) : State :=
  match descAt? s j i with
  | none => s
  | some d' =>
    let members := ownMembers s d j
    if !members.all (fun r => d'.prog.delivered.contains (0, r)) then s
    else
      let groups := pieces 8 members
      let s := modRun s j i (fun r => { r with recs := r.recs.filter (fun e => !(members.contains e.1 && e.2.1 / 2 ^ 64 == 0)) })
      ((List.range groups.length).zip groups).foldl (fun s g => (chunksHere s d x).foldl (fun s c =>
        let rs := (g.2.flatMap (streamRecs d'.prog 0)).filter (fun e => e.2.2.1.toNat / xChunk x == c)
        toLead s d.plot (dTag d) c g.2 [] ((groupCarries d rs).map (fun k => (16384 * j + g.1, k)))) s) s

/-- A member's stream is whole: it is split into one sub-stream for every chunk; those for other modules leave uncombined (R231). -/
def splitStream (s : State) (j i link : Nat) (d : Desc) (x rank : Nat) : State :=
  match descAt? s j i with
  | none => s
  | some d' =>
    let all := streamRecs d'.prog 0 rank
    let sub (c : Nat) := all.filter (fun e => e.2.2.1.toNat / xChunk x == c)
    let s := ((List.range (nChunks d x)).filter (fun c => !homeHere s (homeEntry s d c))).foldl (fun s c =>
      forwardSub s link d x c rank (homeEntry s d c).home ((sub c).map (fun e => { index := e.2.2.1.toNat, val := e.2.2.2.toNat }))) s
    let s := modRun s j i (fun r => { r with delivered := addNew r.delivered (0, rank) })
    if combines d then combineDie s j i d x
    else
      let s := modRun s j i (fun r => { r with recs := r.recs.filter (fun e => !(e.1 == rank && e.2.1 / 2 ^ 64 == 0)) })
      (chunksHere s d x).foldl (fun s c => toLead s d.plot (dTag d) c [rank] (sub c) []) s

/-- A buffer for the records of each chunk homed here, or none of them (R204, R207, R234). -/
def stageRecs (s : State) (d : Desc) (p : Pkt) (x : Nat) : List Nat → List (SegKey × Nat × U32) → State × Option (List (SegKey × Nat × U32))
  | [], acc => (s, some acc)
  | c :: r, acc =>
    match stageBuf s d with
    | (s', none) => (freeBufs s' (acc.map (·.2.2)), none)
    | (s', some h) =>
      let bs := ((segRecs d p).filter (fun e => e.index / max 1 (xChunk x) == c)).flatMap (recordBytes (dIfmt d) false)
      stageRecs (fillBuf s' h bs) d p x r (acc ++ [(segKey p, c, h)])

/-- A contribution segment of DOP 0x06: of a member's stream, or of a chunk sub-stream from another module. Its records for chunks homed here
are staged in POOL. -/
def sparseSeg (s : State) (j i link : Nat) (d : Desc) (p : Pkt) : SegRes :=
  let x := xBlock s d
  let rank := sRank p
  let ends := decide (sNel p < xSegel x)
  let (stream, pos) := streamOf d (segKey p)
  if sKind p = 1 then .ok (relayStream s j i link d p (xSegel x) (sEoff p / 2 ^ 32, 0))
  else
    let idxs := (segRecs d p).map (·.index)
    let mine := ((idxs.map (· / max 1 (xChunk x))).eraseDups).filter (fun c => homeHere s (homeEntry s d c))
    match stageRecs s d p x mine [] with
    | (s', none) => .stall s'
    | (s', some hs) =>
      let recs := ((List.range (sNel p)).zip (segRecs d p)).map (fun e =>
        (rank, posBase stream + pos + e.1, BitVec.ofNat 32 e.2.index, BitVec.ofNat 64 e.2.val))
      let breaks := breaksAfter d.prog false stream rank pos idxs
      let s := modRun s' j i (fun r => { countRecv r stream rank (sNel p) ends pos with recs := r.recs ++ recs, bufs := r.bufs ++ hs })
      let s := dropLater s j i p (xSegel x) ends breaks
      match descAt? s j i with
      | none => .ok s
      | some d' =>
        if !streamWhole d'.prog stream rank then .ok s
        else if stream = 0 then .ok (splitStream s j i link d x rank)
        else
          let c := sEoff p / 2 ^ 32
          let rs := streamRecs d'.prog stream rank
          let s := modRun s j i (fun r => { r with recs := r.recs.filter (fun e => !(e.1 == rank && e.2.1 / 2 ^ 64 == stream)) })
          .ok (toLead s d.plot (dTag d) c [rank] rs [])

/-- Feed a chunk of a sparse all-reduce at the lead: each record, and each carry record, into slot SLOT + index − c × CHUNK, its occupancy bit
set, and HCTR signalled once by the lead (R107, R232, R233). -/
def feedSparse (s : State) (j i : Nat) (d : Desc) (g : StagedChunk) : State :=
  let x := xBlock s d
  let h := homeEntry s d g.chunk
  let rs := (d.prog.merged.filter (fun e => e.1 == g.chunk)).map (·.2)
  let cs := (d.prog.carries.filter (fun e => e.1 == g.chunk)).map (fun e => carryOf e.2.2.toNat)
  let s := releaseChunkBufs (modRun s j i (fun r => { r with staged := r.staged.erase g })) d g.chunk
  match pavOfRel s d.plot h.hpav with
  | none => s
  | some p =>
    let slot (k : Nat) : Nat := h.slot + (k - g.chunk * xChunk x)
    let js := rs.map (fun e => slot e.2.2.1.toNat)
    let ks := cs.map (fun c => slot c.index)
    if !(js ++ ks).all (fun k => feedOk d (slotAt (pavAt s p) k)) then runFault s j i stVerifyFail
    else
      let s := contribute ⟨p, 1⟩ s (js.zip (rs.map (fun e => decodeElem (dIfmt d) 0 e.2.2.2.toNat)))
      let w := carryAll (pavAt s p) (ks.zip cs)
      let s := reportLimits (setPav s p w.1) (srcPav p) (engPlot s ⟨p, 1⟩) w.2
      let s := modRun s j i (fun r => { r with
        occ := (rs.map (fun e => e.2.2.1.toNat) ++ cs.map (·.index)).foldl addNew r.occ, signalled := r.signalled ++ [g.chunk] })
      signalHome s j d.plot h.hpav h.hctr

/-- Release a sparse chunk: the positions of RADDR whose occupancy bit is set, as a result sub-stream (R233, R235). -/
def releaseSparse (s : State) (j i : Nat) (d : Desc) (c pav : Nat) : State :=
  let x := xBlock s d
  let n := chunkLen d x c
  let f := dOfmt d
  match homeRead s pav (homeEntry s d c).raddr (fmtSize f n) with
  | (s', none) => s'
  | (s', some bs) =>
    let idxs := sortNat (d.prog.occ.filter (fun k => k / xChunk x == c))
    let recs := idxs.flatMap (fun k => recordBytes f false { index := k, val := elemAt f bs (k - c * xChunk x) })
    let s := modRun s' j i (fun r => { r with
      released := r.released ++ [c], occ := r.occ.filter (fun k => k / xChunk x != c) })
    sendStream s j i d x 1 (c * 2 ^ 32) (recordSize f false) recs (c, 0)

/-! ### Sort, top-k and filter (R237, R238) -/

/-- Where a rank's records start in home SRAM (R237). -/
def selArea (d : Desc) (x : Nat) (h : Home) (rank : Nat) : Nat :=
  h.daddr + 64 * ((dNmem d + 15) / 16) + rank * xChunk x * recBytesOf d

/-- A member stream segment of DOPs 0x07–0x09: written at the home's SRAM; with the stream whole, its count. -/
def selectSeg (s : State) (j i link : Nat) (d : Desc) (p : Pkt) : SegRes :=
  let x := xBlock s d
  let rank := sRank p
  if sKind p = 1 then .ok (relayStream s j i link d p (xSegel x) (0, 0))
  else
    let h := homeEntry s d 0
    let ends := decide (sNel p < xSegel x)
    let s := if homeHere s h then
        writeHome s d.plot h.hpav [(selArea d x h rank + sEoff p * recBytesOf d, p.body.take (sNel p * recBytesOf d))]
      else if fromMember s link then forwardTo s link d h.home p else s
    let s := modRun s j i (fun r => countRecv r 0 rank (sNel p) ends (sEoff p))
    let s := dropLater s j i p (xSegel x) ends false
    match descAt? s j i with
    | none => .ok s
    | some d' =>
      if streamWhole d'.prog 0 rank then
        let n := (endedAt d'.prog 0 rank).getD 0
        let s := if homeHere s h then writeHome s d.plot h.hpav [(h.daddr + 4 * rank, natLe 4 n)] else s
        .ok (if homeHere s h then chunkDone s j i 0 rank else modRun s j i (fun r => { r with delivered := addNew r.delivered (0, rank) }))
      else .ok s

/-- Bytes of a record of the result: COUNT output has 16 (R147, R228). -/
def resBytesOf (d : Desc) (x : Nat) : Nat := recordSize (dOfmt d) (fieldN x 441 2 == 2)

/-- Release the one result of DOPs 0x07–0x09: the count at RADDR and the records from RADDR + 64; a count past the end of SRAM ends
the run (R237, R238). -/
def releaseSelect (s : State) (j i : Nat) (d : Desc) (pav : Nat) : State :=
  let x := xBlock s d
  let a := (homeEntry s d 0).raddr
  let b := resBytesOf d x
  match homeRead s pav a 4 with
  | (s', none) => s'
  | (s', some cb) =>
    let n := leNat cb
    if 2 ^ 22 < a + 64 + n * b then runFault s' j i stVerifyFail
    else match homeRead s' pav (a + 64) (n * b) with
      | (s', none) => s'
      | (s', some bs) => sendStream (modRun s' j i (fun r => { r with released := r.released ++ [0] })) j i d x 1 0 b bs (0, 0)

end Sys2Proof.Machine
end

