-- ==== Sys2Proof/Machine/CollGather.lean ====
section
/-! DEFINITION. Predicted-row gather (R239–R247) and the fixed-capacity all-to-all (R217–R220). -/

namespace Sys2Proof.Machine

/-! ### Row gather (DOP 0x0A) -/

/-- Bytes of a token's sketch: 256 elements of the input format. -/
def sketchBytes (d : Desc) : Nat := 256 * fmtBits (dIfmt d) / 8

/-- Home-map entries from `h` up to the first with HOME 0. -/
def homesFrom (s : State) (d : Desc) : Nat → Nat → List Home
  | 0, _ => []
  | fuel + 1, h => let e := homeEntry s d h; if e.home = 0 then [] else e :: homesFrom s d fuel (h + 1)

/-- The home-map entries of a row gather, one per holding module (R240). The manual gives no field for their number: the map ends
at the first entry with HOME 0. Log entry 30. -/
def gatherHomes (s : State) (d : Desc) : List Home := if d.b2.isSome then [] else homesFrom s d 65536 0

/-- The predictor pavilion of this module: the first home-map entry that names it. -/
def gatherHome (s : State) (d : Desc) : Option Home := (gatherHomes s d).find? (homeHere s)

/-- One row list at most comes down here: a row-list segment names no home, so the lists of several are not told apart (log entry 30). -/
def oneList (s : State) (d : Desc) : Bool := decide (((gatherHomes s d).filter (fun h => !homeHere s h)).length ≤ 1)

/-- U32 entries of a row list or report segment. -/
def u32s (p : Pkt) : List Nat := (List.range (sNel p)).map (fun k => numAt p.body (4 * k) 4)

/-- Static faults of a row-gather segment. -/
def gatherFault (s : State) (d : Desc) (x link : Nat) (r : Run) (p : Pkt) : Bool :=
  let bad := emptyColl d || decide (dNmem d ≤ sRank p) || xSegel x == 0
  let fromRank := memberLink s d (sRank p) == some link
  let es := u32s p
  let listBad (stream rank : Nat) (told : Bool) : Bool :=
    decide (p.body.length < 4 * sNel p) || decide (xSegel x < sNel p) || sEoff p % xSegel x != 0 || !rising es ||
      es.any (fun e => decide (gNrow x ≤ e)) || (told && (!joins r true stream rank (sEoff p) es || afterEnd r stream rank (sEoff p)))
  match sKind p with
  | 0 =>
    bad || !fromRank || sEoff p % xSegel x != 0 || decide (gNtok x ≤ sEoff p) || sNel p != 256 * min (xSegel x) (gNtok x - sEoff p) ||
      decide (p.body.length < sNel p * fmtBits (dIfmt d) / 8)
  | 1 => bad || decide (gNrow x ≤ sEoff p / 2 ^ 24) || decide (gRowb x < sEoff p % 2 ^ 24 + sNel p)
  | 2 => bad || !fromRank || listBad 2 (sRank p) true
  | 3 => bad || listBad 3 0 (oneList s d)
  | _ => true

/-- Sketches and reports go to every home (R240). -/
def toHomes (s : State) (link : Nat) (d : Desc) (p : Pkt) : State :=
  if fromMember s link then
    ((gatherHomes s d).map (·.home)).foldl addNew [] |>.filter (· != selfId s) |>.foldl (fun s e => forwardTo s link d e p) s
  else s

/-- Sketches of a rank, written to the home's SRAM; the Dovecote signals HCTR once every member through its ports has sent its NTOK
tokens (R240, R204). -/
def sketchSeg (s : State) (j i link : Nat) (d : Desc) (x : Nat) (p : Pkt) : State :=
  let rank := sRank p
  let s := match gatherHome s d with
    | some h => writeHome s d.plot h.hpav [(h.daddr + (rank * gNtok x + sEoff p) * sketchBytes d, p.body.take (sNel p * fmtBits (dIfmt d) / 8))]
    | none => s
  let s := modRun s j i (fun r => countRecv r 0 rank (sNel p / 256) false 0)
  let s := match descAt? s j i with
    | none => s
    | some d' =>
      if gNtok x ≤ tblGet 0 d'.prog.recv (recvKey 0 rank) then
        let s := modRun s j i (fun r => { r with delivered := addNew r.delivered (0, rank) })
        match gatherHome s d with
        | none => s
        | some h =>
          let ranks := ranksOn s d j
          match descAt? s j i with
          | none => s
          | some d' =>
            if !d'.prog.signalled.contains 0 && ranks.all (fun r => d'.prog.delivered.contains (0, r)) then
              signalHome (modRun s j i (fun r => { r with signalled := r.signalled ++ [0] })) j d.plot h.hpav h.hctr
            else s
      else s
  toHomes s link d p

/-- The entries of a row list or report segment, kept as records of their stream. -/
def keepRows (s : State) (j i : Nat) (p : Pkt) (x : Nat) (stream rank : Nat) : State :=
  let es := u32s p
  let ends := decide (sNel p < xSegel x)
  let recs := ((List.range es.length).zip es).map (fun e => (rank, posBase stream + sEoff p + e.1, BitVec.ofNat 32 e.2, (0 : BitVec 64)))
  let breaks := match descAt? s j i with | some d => breaksAfter d.prog true stream rank (sEoff p) es | none => false
  let s := modRun s j i (fun r => { countRecv r stream rank es.length ends (sEoff p) with recs := r.recs ++ recs })
  dropLater s j i p (xSegel x) ends breaks

/-- A used-row report of a rank: once whole, its rows are at the home's lead for the comparison (R244). -/
def reportSeg (s : State) (j i link : Nat) (d : Desc) (x : Nat) (p : Pkt) : State :=
  let rank := sRank p
  let s := keepRows s j i p x 2 rank
  let s := match descAt? s j i, leadDesc s d.plot (dTag d) with
    | some d', some (lj, li, _) =>
      if streamWhole d'.prog 2 rank then
        modRun s lj li (fun r => { r with
          used := r.used ++ (streamRecs d'.prog 2 rank).map (fun e => (rank, e.2.2.1.toNat)), delivered := addNew r.delivered (2, rank) })
      else s
    | _, _ => s
  toHomes s link d p

/-- A row-list segment on its way down (R240). -/
def listSeg (s : State) (j i link : Nat) (d : Desc) (x : Nat) (p : Pkt) : State :=
  let s := sendOn s d (fun _ => true) (some link) p.op p.body
  let s := if oneList s d then keepRows s j i p x 3 0 else s
  modRun s j i (fun r => if streamWhole r 3 0 then { r with sentRes := addNew r.sentRes (0, 5) } else r)

/-- A row-gather segment of the current run: sketches and reports from members, row lists and rows on their way down (R240). -/
def gatherSeg (s : State) (j i link : Nat) (d : Desc) (p : Pkt) : SegRes :=
  let x := xBlock s d
  match sKind p with
  | 0 => .ok (sketchSeg s j i link d x p)
  | 2 => .ok (reportSeg s j i link d x p)
  | 3 => .ok (listSeg s j i link d x p)
  | _ => .ok (sendRowSeg s j i d (fun _ => true) (some link) p.op p.body (sEoff p / 2 ^ 24, 7) (gRowb x))

/-- Send one row as segments of consecutive byte offsets (R243). A row that meets an uncorrectable word is not sent, and the run is left
incomplete (Table 11.3). -/
def sendRow (s : State) (j i : Nat) (d : Desc) (x row : Nat) : State :=
  let off := gWbase x + (row - gRlo x) * gRstr x
  match regBad s d.plot off (gRowb x) with
  | some a => modRun (hbmUncorrected s a true) j i (fun r => { r with stuck := true })
  | none =>
    let segs := pieces 3840 (regRead s d.plot off (gRowb x))
    ((List.range segs.length).zip segs).foldl (fun s g =>
      sendDown s j i d (fun _ => true) none (segOp (row * 2 ^ 24 + 3840 * g.1) 0 g.2.length d.run.toNat 1 0 0) g.2 (row, 7)) s

/-- Statistics of a plot and layer (Table 9.7). -/
def modStats (s : State) (n layer : Nat) (f : RowStats → RowStats) : State :=
  let l := s.coll.rowStats
  let l := if l.any (fun e => e.plot == n && e.layer == layer) then l.map (fun e => if e.plot == n && e.layer == layer then f e else e)
    else l ++ [f { plot := n, layer := layer }]
  { s with coll := { s.coll with rowStats := l } }

/-- Release the row list: checked, restricted, cut, sent as KIND 3, and then the kept rows (R242, R243, R245). -/
def releaseGather (s : State) (j i : Nat) (d : Desc) (pav : Nat) (h : Home) : State :=
  let x := xBlock s d
  match homeRead s pav h.raddr 4 with
  | (s', none) => s'
  | (s', some cb) =>
    let n := leNat cb
    if 2 ^ 22 < h.raddr + 64 + 4 * n then runFault s' j i stVerifyFail
    else match homeRead s' pav (h.raddr + 64) (4 * n) with
      | (s', none) => s'
      | (s', some bs) =>
        let rows := (List.range n).map (fun k => numAt bs (4 * k) 4)
        if !rising rows || rows.any (fun e => decide (gNrow x ≤ e)) then runFault s' j i stVerifyFail
        else
          let mine := rows.filter (fun e => decide (gRlo x ≤ e) && decide (e < gRhi x))
          let kept := mine.take (gMaxr x)
          let s := modRun s' j i (fun r => { r with
            rowList := kept, nDrops := r.nDrops + (mine.length - kept.length), rowsSent := kept, listSent := true, released := r.released ++ [0] })
          let s := sendStream s j i d x 3 0 4 (kept.flatMap (natLe 4)) (0, 0)
          kept.foldl (fun s row => sendRow s j i d x row) s

/-- The comparison of every member's report with the rows sent, at the home's run completion (R244). -/
def gatherStats (s : State) (j : Nat) (d : Desc) : State :=
  let x := xBlock s d
  let inRange (e : Nat) : Bool := decide (gRlo x ≤ e) && decide (e < gRhi x)
  let used := d.prog.used.filter (fun e => inRange e.2)
  let sent := d.prog.rowsSent
  let hits := (used.filter (fun e => sent.contains e.2)).length
  let missed := (used.filter (fun e => !sent.contains e.2)).map (·.2)
  let unused := (sent.filter (fun row => !used.any (fun e => e.2 == row))).length
  let s := modStats s d.plot (gLayer x) (fun t => { t with
    runs := t.runs + 1, sent := t.sent + BitVec.ofNat 64 sent.length, cut := t.cut + BitVec.ofNat 64 d.prog.nDrops,
    used := t.used + BitVec.ofNat 64 used.length, hits := t.hits + BitVec.ofNat 64 hits, misses := t.misses + BitVec.ofNat 64 missed.length,
    unused := t.unused + BitVec.ofNat 64 unused,
    recallVal := if used.isEmpty then 0xFFFFFFFF else BitVec.ofNat 32 (hits * 65536 / used.length) })
  match minNat? missed with
  | none => s
  | some low => emit s rkRowMiss (srcDie j) (some d.plot) [(64, hits), (64, missed.length), (64, unused), (32, low)]

/-! ### All-to-all (DOP 0x05) -/

/-- The destination rank of an expert (ETAB). -/
def expertRank (s : State) (d : Desc) (x e : Nat) : Nat := leNat (regRead s d.plot (xEtab x + 4 * e) 4) % 2 ^ 18

/-- The byte offset due next in the token rows of a source, which come row by row and in byte order; none once all are in (R217). Log entry
29. -/
def tokenNext (r : Run) (ntok rowb rank : Nat) : Option Nat :=
  let mine := r.rows.filter (fun e => e.1 == rank)
  match mine.find? (fun e => decide (e.2.2.length < rowb)) with
  | some e => some e.2.2.length
  | none => if mine.length < ntok then some 0 else none

/-- Static faults of an all-to-all segment. A KIND 4 segment on VC2 comes from its source, in dispatch, or from the expert of its
DEST, in combine. Log entry 29. -/
def a2aFault (s : State) (d : Desc) (x link : Nat) (p : Pkt) : Bool :=
  let bad := emptyColl d || decide (dNmem d ≤ sRank p)
  let entries := xNtok x * xKch x
  match sKind p with
  | 1 => bad
  | 2 => bad
  | 3 =>
    bad || memberLink s d (sRank p) != some link || xSegel x == 0 || sEoff p % xSegel x != 0 || decide (entries < sEoff p + sNel p) ||
      sNel p != min (xSegel x) (entries - sEoff p) || decide (p.body.length < 2 * sNel p)
  | 4 =>
    bad || decide (xRowb x < sEoff p + sNel p) || decide (p.body.length < sNel p) ||
      (p.vc == 2 && (if xCombine x then
          decide (xNexp x ≤ sDest p) || decide (xCap x ≤ sSlot p) || memberLink s d (expertRank s d x (sDest p)) != some link
        else memberLink s d (sRank p) != some link))
  | _ => true

/-- The capacity slots of R217, in order of the choices: (choice, expert, slot), with the counts of used slots, drops and bad
indices. -/
def assignSlots (nexp cap : Nat) (route : List Nat) : List (Nat × Nat × Nat) × List Nat × Nat × Nat :=
  let step (a : List (Nat × Nat × Nat) × List Nat × Nat × Nat) (c : Nat × Nat) : List (Nat × Nat × Nat) × List Nat × Nat × Nat :=
    let (given, dropped, nd, nb) := a
    let used := (given.filter (fun g => g.2.1 == c.2)).length
    if nexp ≤ c.2 then (given, dropped ++ [c.1], nd, nb + 1)
    else if used = cap then (given, dropped ++ [c.1], nd + 1, nb)
    else (given ++ [(c.1, c.2, used)], dropped, nd, nb)
  ((List.range route.length).zip route).foldl step ([], [], 0, 0)

/-- The drop mask, low bit first. -/
def maskBytes (n : Nat) (dropped : List Nat) : List Byte :=
  natLe ((n + 7) / 8) (dropped.foldl (fun a k => a + 2 ^ k) 0)

/-- A row as segments of at most 3,840 bytes. -/
def rowSegs (row : List Byte) : List (Nat × List Byte) :=
  let segs := pieces 3840 row
  ((List.range segs.length).map (3840 * ·)).zip segs

/-- FILL repeated over a row. -/
def fillRow (x : Nat) : List Byte := (List.range (xRowb x)).map (fun k => BitVec.ofNat 8 (xFill x / 2 ^ (8 * (k % 4))))

/-- The bytes of a rank's source row, gathered from its arrivals. -/
def rowOf (r : Run) (rank t : Nat) : Option (List Byte) := (r.rows.find? (fun e => e.1 == rank && e.2.1 == t)).map (·.2.2)

/-- Bits of the drop mask that a segment carries at most: NEL is 0 to 7,680 (Table 8.5). -/
def maskBits : Nat := 7680

/-- The drop mask goes back to its source as KIND 2 segments of at most 7,680 bits each, EOFF naming the first (R218). An empty mask is one
segment of NEL 0 (R220). -/
def sendMask (s : State) (j i : Nat) (d : Desc) (x rank : Nat) (dropped : List Nat) : State :=
  let n := xNtok x * xKch x
  (List.range (max 1 ((n + maskBits - 1) / maskBits))).foldl (fun s k =>
    let bits := min maskBits (n - k * maskBits)
    let b := sliceB (maskBytes n dropped) (k * maskBits / 8) ((bits + 7) / 8)
    sendDown s j i d (fun r => r == rank) none (segOp (k * maskBits) rank bits d.run.toNat 2 0 0) b (rank, 2)) s

/-- Dispatch, with the whole route list and every token row of a source in: CAP rows go to each expert, FILL where a slot is unused
(R218, R220). -/
def dispatchRows (s : State) (j i : Nat) (d : Desc) (x rank : Nat) : State :=
  match descAt? s j i with
  | none => s
  | some d' =>
    let r := d'.prog
    (List.range (xNexp x)).foldl (fun s e => (List.range (xCap x)).foldl (fun s sl =>
      let tok := (r.slots.find? (fun g => g.1 == rank && g.2.2.1 == e && g.2.2.2 == sl)).map (fun g => g.2.1 / max 1 (xKch x))
      let row := match tok with | some t => (rowOf r rank t).getD (fillRow x) | none => fillRow x
      let dst := expertRank s d x e
      (rowSegs row).foldl (fun s g =>
        sendDown s j i d (fun k => k == dst) none (segOp g.1 rank g.2.length d.run.toNat 4 e sl) g.2 (e * 65536 + sl, rank + 16)) s) s) s

/-- Rows of the source complete and slots assigned: its dispatch may go. -/
def dispatchReady (d : Desc) (x rank : Nat) : Bool :=
  d.prog.assigned.contains rank && (List.range (xNtok x)).all (fun t => match rowOf d.prog rank t with | some b => decide (xRowb x ≤ b.length) | none => false)

/-- The route list of a source is whole: slots are assigned and the mask formed (R217). -/
def assignRank (s : State) (j i : Nat) (d : Desc) (x rank : Nat) : State :=
  match descAt? s j i with
  | none => s
  | some d' =>
    let route := (List.range (xNtok x * xKch x)).map (fun k => ((d'.prog.routes.find? (fun e => e.1 == rank && e.2.1 == k)).map (·.2.2)).getD 0)
    let (given, dropped, nd, nb) := assignSlots (xNexp x) (xCap x) route
    let s := modRun s j i (fun r => { r with
      slots := r.slots ++ given.map (fun g => (rank, g.1, g.2.1, g.2.2)), drops := r.drops ++ dropped.map (fun k => (rank, k)),
      assigned := addNew r.assigned rank, nDrops := r.nDrops + nd, nBad := r.nBad + nb })
    if xCombine x then
      -- positions whose mask bit is set hold FILL (R219)
      dropped.foldl (fun s k => (rowSegs (fillRow x)).foldl (fun s g =>
        sendDown s j i d (fun q => q == rank) none (segOp (k * xRowb x + g.1) 0 g.2.length d.run.toNat 1 0 0) g.2 (k, rank + 16)) s) s
    else sendMask s j i d x rank dropped

/-- After an arrival of a source, its rows go where they may. -/
def tryDispatch (s : State) (j i : Nat) (d : Desc) (x rank : Nat) : State :=
  match descAt? s j i with
  | none => s
  | some d' =>
    if !xCombine x && dispatchReady d' x rank && !d'.prog.delivered.contains (0, rank) then
      modRun (dispatchRows s j i d x rank) j i (fun r => { r with delivered := addNew r.delivered (0, rank) })
    else s

/-- A route-list segment (KIND 3). -/
def routeSeg (s : State) (j i : Nat) (d : Desc) (x : Nat) (p : Pkt) : State :=
  let rank := sRank p
  let s := modRun s j i (fun r => { r with
    routes := r.routes ++ (List.range (sNel p)).map (fun k => (rank, sEoff p + k, numAt p.body (2 * k) 2)) })
  match descAt? s j i with
  | none => s
  | some d' =>
    if (d'.prog.routes.filter (fun e => e.1 == rank)).length = xNtok x * xKch x && !d'.prog.assigned.contains rank then
      tryDispatch (assignRank s j i d x rank) j i d x rank
    else s

/-- A token row segment of a source in dispatch: rows come in token order, and each in byte order (log entry 29). -/
def tokenSeg (s : State) (j i : Nat) (d : Desc) (x : Nat) (p : Pkt) : State :=
  let rank := sRank p
  let b := p.body.take (sNel p)
  let s := modRun s j i (fun r =>
    match r.rows.find? (fun e => e.1 == rank && decide (e.2.2.length < xRowb x)) with
    | some e => { r with rows := r.rows.map (fun g => if g == e then (e.1, e.2.1, e.2.2 ++ b) else g) }
    | none => { r with rows := r.rows ++ [(rank, (r.rows.filter (fun e => e.1 == rank)).length, b)] })
  tryDispatch s j i d x rank

/-- The source of an all-to-all is attached to this module: its link leads to an endpoint. -/
def attachedHere (s : State) (d : Desc) (rank : Nat) : Bool :=
  match memberLink s d rank with | some l => fromMember s l | none => false

/-- The key under which a row that an expert returned counts as received here. -/
def backKey (e sl rank : Nat) : Nat × Nat := (e * 65536 + sl, rank + 2 ^ 20)

/-- A row returned by an expert in combine goes to the source's combine buffer, at the position of its slot; at a module to which the source
is not attached it goes on towards the source (R196, R219). -/
def combineRow (s : State) (j i link : Nat) (d : Desc) (x : Nat) (p : Pkt) : State :=
  let rank := sRank p
  let s := modRun s j i (fun r => noteRow r (backKey (sDest p) (sSlot p) rank) (sNel p) (xRowb x))
  if !attachedHere s d rank then sendOn s d (fun q => q == rank) (some link) p.op p.body
  else
    -- the slots of the source are assigned at the Dovecote of the source's port
    match (collDescs s d.plot (dTag d)).find? (fun e => e.2.2.prog.assigned.contains rank) with
    | none => s
    | some (j', i', d') =>
      match d'.prog.slots.find? (fun g => g.1 == rank && g.2.2.1 == sDest p && g.2.2.2 == sSlot p) with
      | none => s
      | some g =>
        sendRowSeg s j' i' d' (fun q => q == rank) none (segOp (g.2.1 * xRowb x + sEoff p) 0 (sNel p) d.run.toNat 1 0 0) (p.body.take (sNel p))
          (g.2.1, rank + 16) (xRowb x)

/-- An all-to-all segment of the current run (R217–R219). -/
def a2aSeg (s : State) (j i link : Nat) (d : Desc) (p : Pkt) : SegRes :=
  let x := xBlock s d
  let rank := sRank p
  match sKind p with
  | 3 => .ok (routeSeg s j i d x p)
  | 4 =>
    if xCombine x then .ok (combineRow s j i link d x p)
    else if p.vc == 3 then
      let dst := expertRank s d x (sDest p)
      .ok (sendRowSeg s j i d (fun k => k == dst) (some link) p.op p.body (sDest p * 65536 + sSlot p, rank + 16) (xRowb x))
    else .ok (tokenSeg s j i d x p)
  | 2 => .ok (sendDown s j i d (fun q => q == rank) (some link) p.op p.body (rank, 2))
  | _ => .ok (sendRowSeg s j i d (fun q => q == rank) (some link) p.op p.body (sEoff p / max 1 (xRowb x), rank + 16) (xRowb x))

end Sys2Proof.Machine
end

