-- ==== Sys2Proof/Machine/DescRules.lean ====
section
/-! DEFINITION. The rules of R201, R227 and R239 on a descriptor and its tables, as check 10 of the verifier and the Dovecote at
triggering both apply them (R412), and the extents of R412. -/

namespace Sys2Proof.Machine

/-! ### Formats and pairings (Tables 8.1, 3.2) -/

/-- The DOP, ROP and DELIV pairing is one of Table 8.1. -/
def pairingOk (d : Desc) : Bool :=
  let r := dRop d
  let v := dDeliv d
  (match dDop d with
    | 0 => r == 0 && v == 2
    | 1 => decide (r ≤ 7) && v != 2
    | 2 => decide (r ≤ 7) && v != 2
    | 3 => r == 0 && v == 2
    | 4 => r == 0 && v == 2
    | 5 => r == 0 && v == 2
    | 6 => (r == 0 || r == 1 || r == 3 || r == 4) && (v == 1 || v == 3)
    | 7 => r == 0 && v == 0
    | 8 => r == 0 && v == 0
    | 9 => r == 0 && v == 0
    | 10 => r == 0 && v == 2
    | _ => false) &&
  (v != 1 || decide (r ≤ 2))

/-- The formats that Table 3.2, R147 and R198 admit for the operation. -/
def formatsOk (d : Desc) : Bool :=
  let i := dIfmt d
  let o := dOfmt d
  let r := dRop d
  let dop := dDop d
  let out := decide (dRm d ≤ 3) && (!fmtInt o || fmtInt i)
  fmtValid i && fmtValid o &&
  (dop != 10 || i == fBF16 || i == fFP32 || i == fE4M3) &&
  (if dDeliv d == 2 then o == i
    else if dop == 6 then fmtKey i && out && (r != 3 && r != 4 || !fmtMx i)
    else if 7 ≤ dop then fmtKey i
    else match r with
      | 2 => !fmtInt i && out
      | 5 => !fmtMx i && o == i
      | 6 => !fmtMx i && o == i
      | 7 => !fmtMx i && o == i
      | _ => out) &&
  (i != fFP64 || r < 3 || dDeliv d == 3) &&
  (!dFto d || (i == fFP64 && r < 2 && dDeliv d == 3)) &&
  (dWb d == 0 || (dDeliv d == 3 && i == fFP64)) && decide (-1074 ≤ dWb d) && decide (dWb d ≤ 417)

/-! ### Extension blocks (Tables 8.4, 9.1, 9.4) -/

/-- Bytes of a record of a selection or sparse stream (R228). -/
def streamRec (d : Desc) : Nat := recordSize (dIfmt d) false

/-- Table 9.1 and the fields each operation leaves at 0 (R227). A full segment fits its packet in the input's records and in the result's. -/
def selBlockOk (d : Desc) (x : Nat) : Bool :=
  let dop := dDop d
  let seg := xSegel x
  let comb := dDeliv d == 3
  fieldN x 0 273 == 0 && decide (1 ≤ seg) && decide (seg * max (streamRec d) (resBytesOf d x) ≤ 3840) && decide (1 ≤ xChunk x) &&
  (dop == 8 || yK x == 0) && (dop == 6 && comb && dRop d == 1 || yDivs x == 0) && decide (yDivs x ≤ 1) &&
  (comb || ySuma x == 0) &&
  (dop == 9 || (fieldN x 443 3 == 0 && fieldN x 375 64 == 0 && fieldN x 343 32 == 0 && fieldN x 311 32 == 0)) &&
  fieldN x 443 3 != 7 && fieldN x 441 2 != 3 && (dop == 7 || dop == 8 || fieldN x 441 2 == 0) &&
  (dop != 6 || fieldN x 440 1 == 0) && (dop == 7 || dop == 8 || fieldN x 439 1 == 0) &&
  (dop != 6 || (decide (xChunk x ≤ 7680) && (dDeliv d != 1 || decide (xChunk x ≤ (if dIfmt d == fFP64 then 32 else 1024))) &&
    decide (dNelem d ≤ 2 ^ 32)))

/-- Table 9.4 and R239, for a region of `room` bytes. -/
def gatherBlockOk (d : Desc) (x room : Nat) : Bool :=
  fieldN x 0 181 == 0 && fieldN x 492 4 == 0 &&
  decide (1 ≤ xSegel x) && decide (xSegel x * sketchBytes d ≤ 3840) && decide (gRlo x < gRhi x) && decide (gRhi x ≤ gNrow x) &&
  decide (1 ≤ gRowb x) && decide (gRowb x ≤ 65536) && decide (gRowb x ≤ gRstr x) &&
  decide (gWbase x + (gRhi x - gRlo x - 1) * gRstr x + gRowb x ≤ room) &&
  decide (fieldN x 181 22 ≤ 2097152) && decide (fieldN x 203 38 + fieldN x 181 22 ≤ room)

/-- SEGEL and CHUNK of Table 8.4: a full segment is whole chunks, MX chunks are whole blocks, and `bytes` of it fit a packet (R201). -/
def segelOk (d : Desc) (x bytes : Nat) : Bool :=
  decide (1 ≤ xSegel x) && decide (bytes ≤ 3840) && decide (1 ≤ xChunk x) && decide (xChunk x ≤ 7680) && xSegel x % xChunk x == 0 &&
    !(fmtMx (dIfmt d) && xChunk x % 32 != 0)

/-- The extension block of a descriptor keeps its rules. The elements of an all-to-all segment are the 2-byte entries of a route list
(R217). -/
def blockOk (d : Desc) (x room : Nat) : Bool :=
  let seg := segelOk d x (dataBytes (dIfmt d) (xSegel x))
  match dDop d with
  | 0 => true
  | 3 => fieldN x 0 276 == 0 && seg
  | 4 => fieldN x 0 276 == 0 && seg && decide (xRoot x < dNmem d)
  | 5 =>
    fieldN x 0 276 == 0 && segelOk d x (2 * xSegel x) && xNexp x != 0 && decide (1 ≤ xKch x) && decide (xKch x ≤ 8) && decide (1 ≤ xRowb x) &&
      decide (xRowb x ≤ 65536)
  | 10 => gatherBlockOk d x room
  | 1 | 2 => fieldN x 0 276 == 0 && seg && (dDeliv d != 1 || decide (xChunk x ≤ 1024))
  | _ => selBlockOk d x

/-! ### Member table and home map (Table 8.3) -/

/-- A member-table entry: reserved bits, HALF, and PORT in the plot's mask. -/
def memberOk (nport e : Nat) : Bool := fieldN e 0 32 == 0 && fieldN e 38 2 != 1 && decide (fieldN e 32 6 < nport)

/-- The operation reads the home map. -/
def usesHomes (d : Desc) : Bool := dDeliv d != 2 || dDop d == 10

/-- Home-map entries that the descriptor and its block fix. -/
def homeCount (d : Desc) (x : Nat) : Nat :=
  if !usesHomes d then 0
  else if 7 ≤ dDop d then 1
  else if xChunk x = 0 then 1 else (dNelem d + xChunk x - 1) / xChunk x

/-- A home-map entry: reserved bits, HPAV, and the SLOT, DADDR and RADDR ranges of its delivery mode. -/
def homeOk (d : Desc) (x npav e : Nat) : Bool :=
  let hpav := fieldN e 96 8
  let slot := fieldN e 86 10
  let daddr := fieldN e 64 22
  let raddr := fieldN e 24 22
  let top := 2 ^ 22
  let ch := xChunk x
  fieldN e 0 18 == 0 && (if hpav = 0xFF then dDeliv d == 3 else decide (hpav < npav)) &&
  (if dDeliv d == 3 then true
    else if dDop d == 10 then decide (daddr + dNmem d * gNtok x * sketchBytes d ≤ top) && decide (raddr + 64 ≤ top)
    else if 7 ≤ dDop d then decide (daddr + 64 * ((dNmem d + 15) / 16) + dNmem d * ch * streamRec d ≤ top) && decide (raddr + 64 ≤ top)
    else
      (dDeliv d != 1 || decide (slot + ch ≤ 1024)) && (dDeliv d != 0 || decide (daddr + dNmem d * dataBytes (dIfmt d) ch ≤ top)) &&
        decide (raddr + dataBytes (dOfmt d) ch ≤ top))

/-- What of a descriptor's tables is at hand: extension block, member table, home map and expert table. -/
structure DescTabs where
  x : Option Nat
  members : Option (List Nat)
  homes : Option (List Nat)
  experts : Option (List Nat)
deriving DecidableEq, Repr

/-- The rules of R201 on what lies in the tables, as far as they are at hand. -/
def tabsOk (d : Desc) (t : DescTabs) (npav nport room : Nat) : Bool :=
  dDop d == 0 ||
  ((match t.x with | some x => blockOk d x room | none => true) &&
   (match t.members with | some ms => ms.all (memberOk nport) | none => true) &&
   (match t.homes, t.x with | some hs, some x => hs.all (homeOk d x npav) | _, _ => true) &&
   (match t.experts with | some es => es.all (fun r => decide (r < dNmem d)) | none => true))

/-! ### Extents (R412) -/

/-- The HBM ranges of a descriptor: with its block at hand the whole home map and the expert table, else one home-map entry; a table it does not use is not
checked (R201). -/
def descExtents (d : Desc) (x : Option Nat) : List (Nat × Nat) :=
  (dCrec d, 32) ::
    (if dDop d == 0 then []
     else [(dXblk d, 64), (dMtab d, 8 * dNmem d)] ++
       (if usesHomes d then [(dHmap d, 16 * max 1 (match x with | some v => homeCount d v | none => 1))] else []) ++
       (match x with | some v => if dDop d == 5 then [(xEtab v, 4 * xNexp v)] else [] | none => []))

end Sys2Proof.Machine
end

