-- ==== Sys2Proof/Machine/Packets.lean ====
section
/-! DEFINITION. The packets that the ports switch or police: P2P, E2E_ACK, STREAM, TELEMETRY and KIOSK (R289, R295, R296,
R304, R314). -/

namespace Sys2Proof.Machine

/-- A policed packet from a link: dropped beyond its window, held for want of a pair entry, or counted and passed to `act`
(R296). -/
def policed (s : State) (l : Nat) (p : Pkt) (act : State → State) : State :=
  match police s l p with
  | .drop => windowDrop s l p
  | .wait => pairStall s l p
  | .pass => act (countPair s l p)

/-- A P2P packet within its window: switched, or accepted here with an acknowledgement owed (R295). -/
def p2pPass (s : State) (l : Nat) (p : Pkt) : State :=
  if endsHere s l p then freeRx (oweAck s l p) l p else switchPkt s l p

/-- P2P. -/
def execP2p (link : Nat) (p : Pkt) (s : State) : Host.Outcome State Fault Refusal :=
  done (onPacket s link p [opP2p] (fun s => policed s link p (fun s => p2pPass s link p)))

/-- E2E_ACK: forwarded, and where it goes out to an endpoint the policed count falls by INC (R296). -/
def execE2eAck (link : Nat) (p : Pkt) (s : State) : Host.Outcome State Fault Refusal :=
  done (onPacket s link p [opE2eAck] (fun s =>
    match routeOf s (some link) p with
    | .out k => freeRx (ackPair (handOff s k link p) k p) link p
    | _ => switchPkt s link p))

/-- STREAM: switched under credits alone; one addressed here ends here. -/
def execStream (link : Nat) (p : Pkt) (s : State) : Host.Outcome State Fault Refusal :=
  done (onPacket s link p [opStream] (fun s => switchPkt s link p))

/-- TELEMETRY: switched on VC6. -/
def execTelemetry (link : Nat) (p : Pkt) (s : State) : Host.Outcome State Fault Refusal :=
  done (onPacket s link p [opTelemetry] (fun s => switchPkt s link p))

/-- KIOSK: a packet that is not addressed to this module is routed like other traffic (R314); one that is leaves ingress here, and
what it asks is the row of its operation. -/
def execKiosk (link : Nat) (p : Pkt) (s : State) : Host.Outcome State Fault Refusal :=
  done (onPacket s link p [opKiosk] (fun s => if endsHere s link p then freeRx s link p else switchPkt s link p))

end Sys2Proof.Machine
end

