-- ==== Sys2Proof/Machine/CollRun.lean ====
section
/-! DEFINITION. The rows of the Dovecote: segments (R197, R203, R208, R212), their staging (R207), triggering (R206, R208, R412), the feed
(R204), result release (R205), completion (R209, R210), and provisional segments (R214–R216). -/

namespace Sys2Proof.Machine

/-! ### Checks by operation -/

/-- The faults of a segment for its descriptor, after the segments `r` holds of its run (R203, R229). -/
def segFault (s : State) (d : Desc) (link : Nat) (r : Run) (p : Pkt) : Bool :=
  let x := xBlock s d
  match dDop d with
  | 0 => true
  | 1 => denseFault s d x link p
  | 2 => denseFault s d x link p
  | 3 => denseFault s d x link p
  | 4 => denseFault s d x link p
  | 5 => a2aFault s d x link p
  | 6 => streamFault s d x link r p
  | 7 => streamFault s d x link r p
  | 8 => streamFault s d x link r p
  | 9 => streamFault s d x link r p
  | _ => gatherFault s d x link r p

/-- A token row of a source in dispatch: it carries no token number, and is told by the order of the rows (log entry 29). -/
def isToken (s : State) (d : Desc) (p : Pkt) : Bool := dDop d == 5 && sKind p == 4 && p.vc == 2 && !xCombine (xBlock s d)

/-- A row list that the run does not tell from those of other homes (log entry 30). -/
def anonList (s : State) (d : Desc) (p : Pkt) : Bool := dDop d == 10 && sKind p == 3 && !oneList s d

/-- A second copy of a segment already received in the run (R203): of a token row, one that is not at the byte offset due. -/
def seenSeg (s : State) (d : Desc) (r : Run) (p : Pkt) : Bool :=
  if isToken s d p then
    let x := xBlock s d
    tokenNext r (xNtok x) (xRowb x) (sRank p) != some (sEoff p)
  else r.got.contains (segKey p) && !anonList s d p

/-- A copy of a segment that is staged, or of a provisional one that awaits its CONFIRM. -/
def stagedSeg (s : State) (d : Desc) (p : Pkt) : Bool :=
  !isToken s d p && !anonList s d p &&
    (d.early.any (fun e => segKey e.pkt == segKey p && sRun e.pkt == sRun p) ||
     (p.prov && d.provIn.any (fun v => v.key == segKey p && v.run == (sRun p).toNat)))

/-- The segment is received outside its reserved frame (R212). -/
def offSchedule (s : State) (d : Desc) (link : Nat) (p : Pkt) : Bool :=
  dRsvid d != 0xFFFF && !(activeRsvs s d.plot).any (fun e =>
    e.1 == link && e.2.ingress && e.2.rsvid == dRsvid d && e.2.vc == p.vc.toNat && e.2.tag == p.tag)

/-- A segment's arrival now: what R212 and R221 record of it, whenever it is processed. -/
def arrivalOf (s : State) (d : Desc) (link : Nat) (p : Pkt) (cycle : BitVec 16) : Arrival :=
  { tick := s.sd.ticks, cycle := cycle, off := offSchedule s d link p }

/-- The member that sent a segment on VC2: of a row in combine, its expert (R219). -/
def senderRank (s : State) (d : Desc) (p : Pkt) : Nat :=
  let x := xBlock s d
  if dDop d == 5 && sKind p == 4 && xCombine x then expertRank s d x (sDest p) else sRank p

/-- First arrival of a member in the run (R221). -/
def noteArrival (r : Run) (rank : Nat) (a : Arrival) : Run :=
  if r.arrivals.any (fun e => e.1 == rank) then r else { r with arrivals := r.arrivals ++ [(rank, a.tick, a.cycle)] }

/-- A segment has been received in the run (R203, R212, R221). -/
def noteSeg (s : State) (j i : Nat) (d : Desc) (p : Pkt) (a : Arrival) : State :=
  modRun s j i (fun r =>
    let r := { r with got := r.got ++ [segKey p], nOffsched := r.nOffsched + bit a.off }
    if p.vc == 2 then noteArrival r (senderRank s d p) a else r)

/-- The lead Dovecote runs the same run: what goes to it finds it. -/
def leadRuns (s : State) (d : Desc) : Bool :=
  match leadDesc s d.plot (dTag d) with
  | some (_, _, l) => l.triggered && l.run == d.run
  | none => true

/-- A segment may be processed now: its run is current, its plot runs, the lead is in the run, and the row of a combine finds the
slots of a source attached here assigned. Otherwise it is staged (R208, R224). -/
def segReady (s : State) (d : Desc) (p : Pkt) : Bool :=
  d.triggered && !d.prog.stuck && sRun p == d.run && plotRuns s d.plot && leadRuns s d &&
  !(dDop d == 5 && sKind p == 4 && xCombine (xBlock s d) && attachedHere s d (sRank p) &&
    !(collDescs s d.plot (dTag d)).any (fun e => e.2.2.prog.assigned.contains (sRank p)))

/-- Process a segment of the current run. -/
def runSeg (s : State) (j i link : Nat) (d : Desc) (p : Pkt) (a : Arrival) : SegRes :=
  let res := match dDop d with
    | 5 => a2aSeg s j i link d p
    | 6 => sparseSeg s j i link d p
    | 7 => selectSeg s j i link d p
    | 8 => selectSeg s j i link d p
    | 9 => selectSeg s j i link d p
    | 10 => gatherSeg s j i link d p
    | _ => denseSeg s j i link d p
  match res with
  | .ok s' => .ok (noteSeg s' j i d p a)
  | .stall s' => .stall s'

/-! ### Arrival and staging (R203, R207, R208, R224) -/

/-- The drop that meets a segment: its record and status, or none (R203, R208). A segment of the next run is held to what does not depend on
the run's other segments, until its run starts. -/
def segRefusal (s : State) (d : Desc) (link : Nat) (p : Pkt) : Option (RecKind × U16) :=
  let cur := d.triggered && sRun p == d.run
  if !cur && sRun p != d.run + 1 then some (rkCollStale, stStaleRun)
  else
    let r : Run := if cur then d.prog else {}
    if segFault s d link r p || (cur && seenSeg s d r p) || stagedSeg s d p then some (rkCollSegInvalid, stSegInvalid) else none

/-- Put a segment in a staging buffer until it may be processed; none where there is no buffer (R207). -/
def stageEarly (s : State) (j i : Nat) (e : EarlySeg) : SegRes :=
  match descAt? s j i with
  | none => .ok s
  | some d =>
    match stageBuf s d with
    | (s', some h) => .ok (setDesc (fillBuf s' h e.pkt.body) j i { d with early := d.early ++ [{ e with buf := h }] })
    | (s', none) => .stall s'

/-- A confirmed segment: dropped, processed, or staged until it may be processed; it stalls for want of a buffer. -/
def acceptSeg (s : State) (j i link : Nat) (p : Pkt) (a : Arrival) : SegRes :=
  match descAt? s j i with
  | none => .ok s
  | some d =>
    match segRefusal s d link p with
    | some (k, st) => .ok (dropSeg s j k st p)
    | none =>
      if segReady s d p then runSeg s j i link d p a
      else stageEarly s j i { pkt := p, link := link, buf := 0, arr := a }

/-- A segment stays at ingress, where its allocation is retried; the stall is counted (R207). -/
def holdSeg (s : State) (j i link : Nat) (p : Pkt) (a : Arrival) : State :=
  let s := modDie s j (fun x => { x with held := x.held ++ [HeldSeg.mk link i p a] })
  { s with coll := { s.coll with stalls := s.coll.stalls + 1 } }

/-- A confirmed segment at ingress. -/
def atIngress (s : State) (j i link : Nat) (p : Pkt) (a : Arrival) : State :=
  match acceptSeg s j i link p a with
  | .ok s' => freeRx s' link p
  | .stall s' => holdSeg s' j i link p a

/-- A staged segment whose buffer has been released, and which has met a stall, takes a buffer again: the one released is there. -/
def restage (s : State) (j i : Nat) (e : EarlySeg) : State :=
  match stageEarly s j i e with
  | .ok s' => s'
  | .stall s' => match descAt? s' j i with
    | some d => setDesc s' j i { d with early := d.early ++ [{ e with buf := 0 }] }
    | none => s'

/-- What a segment does whose copies have gone out provisionally on some links: all but sending them again there (R215, R216). -/
def unsent (links : List Nat) (s s' : State) : State := links.foldl (fun t l => setLink t l (linkAt s l)) s'

/-- Process a staged segment that may be processed. -/
def runEarly (s : State) (j i : Nat) (d : Desc) (e : EarlySeg) : State :=
  let s := freeBufs (setDesc s j i { d with early := d.early.erase e }) [e.buf]
  match descAt? s j i with
  | none => s
  | some d' =>
    if segFault s d' e.link d'.prog e.pkt || seenSeg s d' d'.prog e.pkt then dropSeg s j rkCollSegInvalid stSegInvalid e.pkt
    else match runSeg s j i e.link d' e.pkt e.arr with
      | .ok s' => unsent e.relayed s s'
      | .stall s' => restage s' j i e

/-- Segments staged on a descriptor are processed, once they may be. -/
def drainEarly (s : State) (j i : Nat) : State :=
  match descAt? s j i with
  | none => s
  | some d => d.early.foldl (fun s e =>
      match descAt? s j i with
      | none => s
      | some d' => if segReady s d' e.pkt then runEarly s j i d' e else s) s

/-! ### Provisional segments (R214–R216) -/

/-- A provisional segment is the one of a key and run. -/
def provIs (v : ProvSeg) (k : SegKey) (run : Nat) : Bool := v.key == k && v.run == run

/-- The same segment by the fields that CONFIRM carries. -/
def provMatch (k : SegKey) (run : Nat) (p : Pkt) : Bool := run == (sRun p).toNat && k.rank == sRank p && k.eoff == sEoff p && k.kind == sKind p

/-- The members that receive a segment on its way down. -/
def receives (s : State) (d : Desc) (p : Pkt) (r : Nat) : Bool :=
  match dDop d with
  | 2 => r == (homeEntry s d (sEoff p / xChunk (xBlock s d))).owner
  | 3 => passesTo s d p r
  | 4 => passesTo s d p r
  | 5 => r == (if sKind p == 4 then expertRank s d (xBlock s d) (sDest p) else sRank p)
  | _ => true

/-- The links on which this module relays a segment that its run would process now: one on its way down, or a contribution that passes
through. -/
def relayLinks (s : State) (d : Desc) (link : Nat) (p : Pkt) : List Nat :=
  (if !segReady s d p then []
    else if p.vc == 3 then resultLinks s d (receives s d p) (some link)
    else if dDeliv d == 2 && (dDop d == 3 || dDop d == 4) then resultLinks s d (receives s d p) none
    else []).filter (fun l => !encrypted (linkAt s l) p)

/-- Relay a segment provisionally where 0x5800:06 enables its plot: the links it goes out on with PROV set (R214). -/
def relayProv (s : State) (d : Desc) (link : Nat) (p : Pkt) : State × List Nat :=
  let outs := if s.coll.relayEff.getLsbD d.plot && !encrypted (linkAt s link) p then relayLinks s d link p else []
  let op := if sKind p == 0 then segOp (sEoff p) (namedRank d (sRank p)) (sNel p) (sRun p).toNat 1 0 0 else p.op
  (outs.foldl (fun s l => handOff s l 128 { segPkt s d 3 0xFFFFFE op p.body with prov := true }) s, outs)

/-- A provisional segment arrives: kept in a staging buffer until its CONFIRM, and relayed where that is enabled; it stalls for want of a
buffer (R207, R214, R216). -/
def provArrive (s : State) (j i link : Nat) (d : Desc) (p : Pkt) : SegRes :=
  match stageBuf s d with
  | (s', none) => .stall s'
  | (s', some h) =>
    let (s', outs) := relayProv (fillBuf s' h p.body) d link p
    let v : ProvSeg := { key := segKey p, run := (sRun p).toNat, pkt := p, link := link, frame := s'.sd.ticks, outLinks := outs, buf := h }
    match descAt? s' j i with
    | none => .ok s'
    | some d' => .ok (setDesc s' j i { d' with
        provIn := d'.provIn ++ [v], provOut := if outs.isEmpty then d'.provOut else d'.provOut ++ [v] })

/-- A provisional segment at ingress: what is wrong with it drops it as it would a confirmed one. -/
def provIngress (s : State) (j i link : Nat) (p : Pkt) (a : Arrival) : State :=
  match descAt? s j i with
  | none => freeRx s link p
  | some d =>
    match segRefusal s d link p with
    | some (k, st) => freeRx (dropSeg s j k st p) link p
    | none => match provArrive s j i link d p with
      | .ok s' => freeRx s' link p
      | .stall s' => holdSeg s' j i link p a

/-- The provisional copies of a segment received here are void: they leave the staging, and their buffers are released (R216). -/
def voidProv (s : State) (j i : Nat) (p : Pkt) : State :=
  match descAt? s j i with
  | none => s
  | some d =>
    let mine := d.provIn.filter (fun v => provIs v (segKey p) (sRun p).toNat)
    if mine.isEmpty then s
    else freeBufs (setDesc s j i { d with provIn := d.provIn.filter (fun v => !mine.contains v) }) (mine.map (·.buf))

/-- CONFIRM may still be sent for a segment relayed in frame f: before the tick that ends frame f + 1 (R215). -/
def inTime (s : State) (v : ProvSeg) : Bool := decide (s.sd.ticks.toNat < v.frame.toNat + 2)

/-- CONFIRM goes on to the next hops of a relayed segment (R215). -/
def confirmOut (s : State) (j i : Nat) (v : ProvSeg) : State :=
  match descAt? s j i with
  | none => s
  | some d =>
    let s := v.outLinks.foldl (fun s l => handOff s l 128 (provPkt s d (relayedKey d v.key) v.run false)) s
    setDesc s j i { d with provOut := d.provOut.erase v }

/-- The confirmed effect of a segment that was relayed provisionally: now, or once it may be processed (R216). -/
def afterRelay (s : State) (j i : Nat) (v : ProvSeg) (a : Arrival) : SegRes :=
  let p := { v.pkt with prov := false }
  match descAt? s j i with
  | none => .ok s
  | some d =>
    match segRefusal s d v.link p with
    | some (k, st) => .ok (dropSeg s j k st p)
    | none =>
      if segReady s d p then
        match runSeg s j i v.link d p a with
        | .ok s' => .ok (unsent v.outLinks s s')
        | .stall s' => .stall s'
      else stageEarly s j i { pkt := p, link := v.link, buf := 0, arr := a, relayed := v.outLinks }

/-- A provisional segment received here is confirmed: it takes effect as though it had just arrived (R216), and what was relayed of it in
time is confirmed onwards. Its buffer is released, and there to be taken again. -/
def takeProv (s : State) (j i : Nat) (d : Desc) (v : ProvSeg) (cycle : BitVec 16) : State :=
  let p := { v.pkt with prov := false }
  let a := arrivalOf s d v.link p cycle
  let s := freeBufs (setDesc s j i { d with provIn := d.provIn.erase v }) [v.buf]
  let e : EarlySeg := { pkt := p, link := v.link, buf := 0, arr := a }
  if d.provOut.contains v && inTime s v then
    match afterRelay (confirmOut s j i v) j i v a with
    | .ok s' => s'
    | .stall s' => restage s' j i { e with relayed := v.outLinks }
  else
    match acceptSeg s j i v.link p a with
    | .ok s' => s'
    | .stall s' => restage s' j i e

/-- A provisional segment that waits at ingress for a buffer is settled there. -/
def settleHeld (s : State) (j i : Nat) (d : Desc) (p : Pkt) (confirmed : Bool) (cycle : BitVec 16) : State :=
  match (dieAt s j).held.find? (fun h => h.idx == i && h.pkt.prov && provMatch (segKey h.pkt) (sRun h.pkt).toNat p) with
  | none => s
  | some h =>
    let s := modDie s j (fun x => { x with held := x.held.erase h })
    let q := { h.pkt with prov := false }
    if confirmed then atIngress s j i h.link q (arrivalOf s d h.link q cycle) else freeRx s h.link h.pkt

/-- A provisional segment received here is settled by its CONFIRM or RETRACT. -/
def settleProv (s : State) (j i : Nat) (d : Desc) (p : Pkt) (confirmed : Bool) (cycle : BitVec 16) : State :=
  match d.provIn.find? (fun v => provMatch v.key v.run p) with
  | none => settleHeld s j i d p confirmed cycle
  | some v =>
    if confirmed then takeProv s j i d v cycle
    else freeBufs (setDesc s j i { d with provIn := d.provIn.erase v }) [v.buf]

/-- PROV_DEADLINE: a segment relayed in frame f and not confirmed by the tick that ends frame f + 1 is retracted; a confirmed copy
goes out later with PROV clear (R215). -/
def execProvDeadline (die idx : Nat) (s : State) : Host.Outcome State Fault Refusal :=
  match descAt? s die idx with
  | none => done s
  | some d =>
    let late := d.provOut.filter (fun v => !inTime s v)
    if late.isEmpty then done s
    else done (retractAll (setDesc s die idx { d with
        provOut := d.provOut.filter (fun v => !late.contains v),
        prog := { d.prog with nRetracts := d.prog.nRetracts + late.length } }) die d late)

/-! ### SEG -/

/-- SECDED in the command's memory words: words found uncorrectable, and a correction in the port die's SRAM, which is reported (Tables 4.8,
11.3). -/
def segUpset (s : State) (j : Nat) (x : Upset) : State :=
  let s := dieUpset (hbmUpset s x) x
  if x.corrected then emit s rkSramCorrected (srcDie j) none [] else s

/-- The segment enters the edge combiner of its die or of the lead's (R121, R198). -/
def usesCombiner (d : Desc) : Bool := dDeliv d == 3 || dEcm d != 0

/-- The die whose edge combiner combines a collective's chunks. -/
def combinerDie (s : State) (j : Nat) (d : Desc) : Nat :=
  if dDeliv d != 3 then j else match leadDesc s d.plot (dTag d) with | some (l, _, _) => l | none => j

/-- The plots that use the edge combiner of a die. -/
def combinerPlots (s : State) (j : Nat) : List Nat :=
  (((dieAt s j).descs.filter (fun e => usesCombiner e.2 && e.2.triggered)).map (fun e => e.2.plot)).foldl addNew []

/-- An uncorrectable error of edge-combiner storage: the runs that use it are left incomplete, and their plots hold (Table 4.8, R35,
R127). -/
def combinerFault (s : State) (j : Nat) : State :=
  let ns := combinerPlots s j
  let s := modDie s j (fun x => { x with descs := x.descs.map (fun e =>
    if usesCombiner e.2 && e.2.triggered then (e.1, { e.2 with prog := { e.2.prog with stuck := true } }) else e) })
  dieFault s j ns

/-- STAGING_RETRY: the segments held on a die for lack of a buffer retry, and those staged until their plot runs again are
processed (R207, R224). One stall is counted once, however often it is retried. -/
def execStagingRetry (die : Nat) (x : Upset) (s : State) : Host.Outcome State Fault Refusal :=
  let s := segUpset s die x
  let s := if x.array then combinerFault s die else s
  let held := (dieAt s die).held
  let s := if held.isEmpty then s else modDie s die (fun x => { x with held := [] })
  let s := held.foldl (fun s h =>
    let s' := if h.pkt.prov then provIngress s die h.idx h.link h.pkt h.arr else atIngress s die h.idx h.link h.pkt h.arr
    { s' with coll := { s'.coll with stalls := s.coll.stalls } }) s
  done (((dieAt s die).descs.filter (fun e => !e.2.early.isEmpty)).foldl (fun s e => drainEarly s die e.1) s)

/-- A segment for this module on its arrival die. -/
def segHere (s : State) (link : Nat) (p : Pkt) (cycle : BitVec 16) : State :=
  let j := linkDie link
  match findDesc s j p.plot.toNat p.tag with
  | none => freeRx (dropSeg s j rkCollSegInvalid stNoDescriptor p) link p
  | some (i, d) =>
    let a := arrivalOf s d link p cycle
    if p.prov then provIngress s j i link p a
    else
      let s := voidProv s j i p
      -- the copy this module relayed before its link had confirmed it
      match d.provOut.find? (fun v => v.own && provIs v (segKey p) (sRun p).toNat && v.pkt == p && inTime s v) with
      | some v => match afterRelay (confirmOut s j i v) j i v a with
        | .ok s' => freeRx s' link p
        | .stall s' => restage (freeRx s' link p) j i { pkt := p, link := link, buf := 0, arr := a, relayed := v.outLinks }
      | none => atIngress s j i link p a

/-- A segment of which this module's link has confirmed the header flit but not every flit is relayed at once where provisional relaying is
enabled: its copies carry PROV until the rest is confirmed (R214, R215). -/
def relayOwn (s : State) (link : Nat) (p : Pkt) : State :=
  let j := linkDie link
  match findDesc s j p.plot.toNat p.tag with
  | none => s
  | some (i, d) =>
    if (segRefusal s d link p).isSome || d.provOut.any (fun v => provIs v (segKey p) (sRun p).toNat) then s
    else
      let (s, outs) := relayProv s d link p
      let v : ProvSeg := { key := segKey p, run := (sRun p).toNat, pkt := p, link := link, frame := s.sd.ticks, outLinks := outs, own := true }
      match descAt? s j i with
      | some d' => if outs.isEmpty then s else setDesc s j i { d' with provOut := d'.provOut ++ [v] }
      | none => s

/-- The packet's header flit, and some but not all of its payload flits, stand confirmed at the head of its VC's buffer, and the checks of
R290 that the header decides pass. -/
def arriving (s : State) (link : Nat) (p : Pkt) : Bool :=
  let fs := headFlits (linkAt s link) p
  let n := p.plot.toNat
  active s link && !p.poison && !p.prov && p.opc == opSeg && decide (fs.length ≤ p.len.toNat) &&
    (match fs with
      | h :: r => fieldN (flitHead h) 32 80 == hdrWord p && numAt h 16 32 == p.op.toNat && numAt h 48 2 == p.ext.toNat &&
          r.flatMap (·.drop 16) == (padTo (240 * p.len.toNat) p.body).take (240 * r.length)
      | [] => false) &&
    flitsOk false fs && headerOk p && p.epoch == (plotAt s n).epoch && (plotAt s n).portMask.getLsbD (linkPort link) &&
    !(dieAt s (linkDie link)).held.any (fun h => h.link == link && h.pkt.vc == p.vc)

/-- SEG: received, checked, and delivered, staged, forwarded or sent down; one for another module is switched. One still arriving may be
relayed provisionally. -/
def execSeg (link : Nat) (p : Pkt) (env : SegIn) (s : State) : Host.Outcome State Fault Refusal :=
  if arriving s link p then done (if endsHere s link p then relayOwn s link p else s)
  else done (onPacket s link p [opSeg] (fun s =>
    if !endsHere s link p then switchPkt s link p
    else
      let j := linkDie link
      let s := segUpset s j env.upset
      match findDesc s j p.plot.toNat p.tag with
      | some (_, d) =>
        if env.upset.array && usesCombiner d then segHere (combinerFault s (combinerDie s j d)) link p env.cycle
        else segHere s link p env.cycle
      | none => segHere s link p env.cycle))

/-! ### Triggering (R206, R208, R412) -/

/-- The tables of a descriptor as they stand in HBM; of a B2 collective, the group's entries and what R222 lays down. -/
def tabsNow (s : State) (d : Desc) : DescTabs :=
  let x := xBlock s d
  let some_ (b : Bool) (l : List Nat) : Option (List Nat) := if b then some l else none
  { x := some x
    members := some ((List.range (dNmem d)).map (memberEntry s d))
    homes := some_ (usesHomes d && d.b2.isNone) ((List.range (homeCount d x)).map (fun c => leNat (regRead s d.plot (dHmap d + 16 * c) 16)))
    experts := some_ (dDop d == 5) ((List.range (xNexp x)).map (expertRank s d x)) }

/-- What the Dovecote checks at triggering: the extents of the tables and the rules of R201 on them (R412). A B2 collective keeps its
tables in the Dovecote, and they keep the same rules (R6). -/
def tablesOk (s : State) (d : Desc) : Bool :=
  let r := (plotAt s d.plot).region
  (d.b2.isSome || (descExtents d (some (xBlock s d))).all (fun e => regIn r e.1 e.2)) && decide (dNmem d ≤ 131072) &&
   tabsOk d (tabsNow s d) (match (plotAt s d.plot).image with | some g => g.npav | none => 0) (portsOfPlot s d.plot).length (regBytes r)

/-- The run starts: what holds at once for the operation (R220, R245). -/
def startWork (s : State) (j i : Nat) (d : Desc) : State :=
  if emptyColl d then s
  else
    let x := xBlock s d
    if dDop d = 10 ∧ gNtok x = 0 then
      match gatherHome s d with
      | some h => signalHome (modRun s j i (fun r => { r with signalled := [0] })) j d.plot h.hpav h.hctr
      | none => s
    else if dDop d = 5 ∧ xNtok x = 0 then
      (ranksOn s d j).foldl (fun s r =>
        if attachedHere s d r then tryDispatch (assignRank s j i d x r) j i d x r else s) s
    else s

/-- The uncorrectable word that reading a descriptor's extension block and tables meets (Table 11.3). -/
def tablesBad (s : State) (d : Desc) : Option Nat :=
  if s.hbm.badWords.isEmpty || d.b2.isSome then none
  else
    let x := xBlock s d
    (descExtents d (some x)).tail.findSome? (fun e => regBad s d.plot e.1 e.2)

/-- DESCRIPTOR_TRIGGER: an armed descriptor of a running plot whose TCTR has reached TTHR starts its next run; broken tables end it
before any data moves (R208, R412), and an uncorrectable word in them leaves it incomplete (Table 11.3). -/
def triggerDesc (s : State) (j i : Nat) (d : Desc) : State :=
  let d' := { d with triggered := true, run := d.run + 1, prog := { startTick := s.sd.ticks, step := (plotAt s d.plot).stepLatched } }
  let s := setDesc s j i d'
  match tablesBad s d' with
  | some a => modRun (hbmUncorrected s a true) j i (fun r => { r with stuck := true })
  | none => if tablesOk s d' then drainEarly (startWork s j i d') j i else runFault s j i stVerifyFail

/-- A built descriptor may trigger: the home once every member of the group has launched, another module as soon as it is built
(R222). Log entry 33. -/
def b2Ready (s : State) (d : Desc) : Bool :=
  match d.b2 with
  | none => false
  | some b => !b.mismatch && !b.done && d.run == 0 && (b.home != selfId s || decide (dNmem d ≤ b.launchers.length))

def execDescriptorTrigger (die idx : Nat) (s : State) : Host.Outcome State Fault Refusal :=
  match descAt? s die idx with
  | none => done s
  | some d =>
    if d.b2.isSome then
      (if !d.triggered && b2Ready s d && plotRuns s d.plot then done (triggerDesc s die idx d) else done s)
    else match trigAt? s die d.plot (dTctr d) with
    | none => done s
    | some t =>
      if d.triggered || !plotRuns s d.plot || !waitHolds t.ctr (dTthr d) then done s
      else
        let s := if dTdec d then setTrig s die d.plot (dTctr d) { t.ctr with value := t.ctr.value - BitVec.ofNat 16 (dTthr d) } else s
        done (triggerDesc s die idx d)

/-! ### The feed and the release -/

/-- CHUNK_FEED: the first staged chunk of a triggered descriptor of a running plot is fed (R204, R233). -/
def execChunkFeed (die idx : Nat) (x : Upset) (s : State) : Host.Outcome State Fault Refusal :=
  match descAt? s die idx with
  | none => done s
  | some d =>
    match d.prog.staged with
    | [] => done s
    | g :: _ =>
      if !d.triggered || d.prog.stuck || !plotRuns s d.plot then done s
      else
        let h := homeEntry s d g.chunk
        match pavOfRel s d.plot h.hpav with
        | none => done s
        | some p =>
          let s := if x.corrected then pavCorrected s p else s
          if x.array then done (pavFault s rkSramUncorrected p)
          else done (if dDop d = 6 then feedSparse s die idx d g else feedChunk s die idx d g)

/-- The pavilions whose release counter on the lead die is not 0, by plot-relative index (R205). -/
def releasable (s : State) (die : Nat) (d : Desc) : List Nat :=
  (List.range (pavsOfPlot s d.plot).length).filter (fun h =>
    match trigAt? s die d.plot (dRctr d + h) with
    | some t => !t.ctr.poison && t.ctr.value != 0
    | none => false)

/-- The next chunk to be released for a pavilion, in ascending order. -/
def nextChunk (s : State) (d : Desc) (h : Nat) : Option Nat :=
  let x := xBlock s d
  if dDop d = 10 then
    (if d.prog.released.isEmpty then (gatherHome s d).bind (fun e => if e.hpav = h then some 0 else none) else none)
  else (homeChunks s d x).find? (fun c => (homeEntry s d c).hpav == h && !d.prog.released.contains c)

/-- RESULT_RELEASE: an increment of RCTR + h releases the next result chunk homed at h, and the lead subtracts 1 (R205). -/
def execResultRelease (die idx : Nat) (x : Upset) (s : State) : Host.Outcome State Fault Refusal :=
  match descAt? s die idx with
  | none => done s
  | some d =>
    if !d.triggered || d.prog.stuck || !dLead d || !plotRuns s d.plot || (dDeliv d != 0 && dDeliv d != 1 && dDop d != 10) || emptyColl d then done s
    else match (releasable s die d).findSome? (fun h => (nextChunk s d h).map (fun c => (h, c))) with
      | none => done s
      | some (h, c) =>
        match pavOfRel s d.plot h, trigAt? s die d.plot (dRctr d + h) with
        | some p, some t =>
          let s := if x.corrected then pavCorrected s p else s
          let s := if x.badWords.isEmpty then s else modPav s p (fun v => { v with badWords := x.badWords.foldl addNew v.badWords })
          let s := setTrig s die d.plot (dRctr d + h) { t.ctr with value := t.ctr.value - 1 }
          done (match dDop d with
            | 6 => releaseSparse s die idx d c p
            | 7 => releaseSelect s die idx d p
            | 8 => releaseSelect s die idx d p
            | 9 => releaseSelect s die idx d p
            | 10 => releaseGather s die idx d p (homeEntry s d 0 |> fun e0 => (gatherHome s d).getD e0)
            | _ => releaseDense s die idx d c p)
        | _, _ => done s

/-! ### Completion (R209, R210, R221) -/

/-- Offsets of the contribution segments of a member. -/
def segOffs (x nelem : Nat) : List Nat := if xSegel x = 0 then [] else (List.range ((nelem + xSegel x - 1) / xSegel x)).map (· * xSegel x)

/-- Whether a run expects a member's segment at an offset on its ports: all of a member's behind an endpoint's link, of another
only those homed here. Log entry 31. -/
def expects (s : State) (d : Desc) (x rank off : Nat) : Bool :=
  attachedHere s d rank ||
  (List.range ((xSegel x + max 1 (xChunk x) - 1) / max 1 (xChunk x))).any (fun k => homeHere s (homeEntry s d (off / max 1 (xChunk x) + k)))

/-- Every contribution expected on a die's ports has come, and every result due has been sent (R209). -/
def workDone (s : State) (j : Nat) (d : Desc) : Bool :=
  let x := xBlock s d
  let ranks := ranksOn s d j
  let attached := ranks.filter (attachedHere s d)
  let all := List.range (dNmem d)
  let has (rank off : Nat) : Bool := d.prog.got.any (fun g => g.kind == 0 && g.rank == rank && g.eoff == off)
  let contributed : Bool := ranks.all (fun r => (segOffs x (dNelem d)).all (fun o => has r o || !expects s d x r o))
  let experts := (List.range (xNexp x)).filter (fun e => ranks.contains (expertRank s d x e))
  match dDop d with
  | 1 => contributed && (List.range (nChunks d x)).all (chunkSent s d x)
  | 2 => contributed && (List.range (nChunks d x)).all (fun c => chunkSent s d x c || !ranks.contains (homeEntry s d c).owner)
  | 3 => all.all (fun r => (segOffs x (dNelem d)).all (fun o => sentIn s d (o, r)))
  | 4 => (segOffs x (dNelem d)).all (fun o => sentIn s d (o, xRoot x))
  | 5 =>
    attached.all (fun r => d.prog.assigned.contains r &&
      (if xCombine x then d.prog.slots.all (fun g => g.1 != r || sentIn s d (g.2.1, r + 16)) else d.prog.delivered.contains (0, r))) &&
    experts.all (fun e => all.all (fun r => (List.range (xCap x)).all (fun sl =>
      if xCombine x then d.prog.sentRes.contains (backKey e sl r) || !(attachedHere s d (expertRank s d x e) || attachedHere s d r)
      else sentIn s d (e * 65536 + sl, r + 16))))
  | 6 =>
    attached.all (fun r => streamWhole d.prog 0 r) &&
      (ranks.filter (fun r => !attachedHere s d r)).all (fun r => (homeChunks s d x).all (fun c => streamWhole d.prog (subStream c) r)) &&
      (!dLead d || (homeChunks s d x).all (fun c => d.prog.released.contains c)) &&
      (List.range (nChunks d x)).all (fun c => sentIn s d (c, 0))
  | 10 =>
    (if (gatherHome s d).isSome then ranks else attached).all (fun r =>
      streamWhole d.prog 2 r && decide (gNtok x ≤ tblGet 0 d.prog.recv (recvKey 0 r))) &&
      (!dLead d || (gatherHome s d).isNone || (d.prog.listSent && all.all (fun r => d.prog.delivered.contains (2, r))))
  | _ => (if homeHere s (homeEntry s d 0) then ranks else attached).all (fun r => streamWhole d.prog 0 r) && sentIn s d (0, 0)

/-- The die that sent what a link carries from a source: that of the ingress link it was forwarded from, or the link's own. -/
def senderDie (source link : Nat) : Nat := if source < 128 then linkDie source else linkDie link

/-- Everything the descriptor's die sent under its plot and TAG is confirmed by the link layer, and nothing awaits CONFIRM or
processing. -/
def allConfirmed (s : State) (j : Nat) (d : Desc) : Bool :=
  s.net.links.all (fun e =>
    !e.2.txq.any (fun t => t.pkt.plot.toNat == d.plot && t.pkt.opc == opSeg && t.pkt.tag == dTag d && senderDie t.source e.1 == j) &&
      !e.2.retry.any (fun f => f.plot == d.plot && f.opc == opSeg && f.tag == dTag d && senderDie f.source e.1 == j)) &&
  d.provOut.isEmpty && d.prog.staged.isEmpty && !d.early.any (fun e => sRun e.pkt == d.run)

/-- The laggard register at completion (R221). -/
def laggardOf (d : Desc) : U64 :=
  match d.prog.arrivals with
  | [] => BitVec.ofNat 64 (0x3FFFF * 2 ^ 46)
  | a :: r =>
    let later (p q : Nat × U64 × BitVec 16) : Bool :=
      decide (p.2.1.toNat < q.2.1.toNat) || (p.2.1 == q.2.1 && (decide (p.2.2.toNat < q.2.2.toNat) || (p.2.2 == q.2.2 && decide (q.1 < p.1))))
    let last := r.foldl (fun b q => if later b q then q else b) a
    let first := r.foldl (fun m q => min m q.2.1.toNat) a.2.1.toNat
    BitVec.ofNat 64 (last.1 * 2 ^ 46 + min 0xFFFF (last.2.1.toNat - first) * 2 ^ 30 + last.2.2.toNat * 2 ^ 14)

/-- The status a run ends with (Table 8.8). -/
def endStatus (d : Desc) : U16 := if d.prog.nDrops != 0 || d.prog.nBad != 0 then stCapacityDrop else stOk

/-- CE and PE, in that order (R209); a clamp shows in the record if no other status is there. -/
def endSignals (s : State) (j : Nat) (d : Desc) : State × Bool :=
  let (s, a) := if dCe d then signalTrig s j d.plot (dCctr d) [(dCinc d, ⟨2, j⟩)] else (s, .applied)
  let (s, b) := if dPe d then
      match pavOfRel s d.plot (dPpav d) with
      | some p => signalPav s p (dPctr d) [(dPinc d, ⟨2, j⟩)]
      | none => (s, .applied)
    else (s, .applied)
  (s, a == .saturated || b == .saturated)

/-- A B2 collective's run has completed on a die: once it has on every die of the module, the built descriptors leave their slots
(R222). -/
def b2Done (s : State) (j i : Nat) (d : Desc) (b : B2Info) (st : U16) : State :=
  let s := match descAt? s j i with
    | some d' => setDesc s j i { d' with b2 := some { b with done := true } }
    | none => s
  if ((collDescs s d.plot (dTag d)).filterMap (fun e => e.2.2.b2)).all (·.done) then b2Leave s d b st else s

/-- A run completes: signals, completion record, summary, laggard, COLL_DROP, and armed again. -/
def completeRun (s : State) (j i : Nat) (d : Desc) : State :=
  let x := xBlock s d
  let st := endStatus d
  let s := if dDop d = 10 ∧ dLead d ∧ (gatherHome s d).isSome then gatherStats s j d else s
  let suma := if 6 ≤ dDop d then ySuma x else xSuma x
  -- an empty tensor has a summary with ELEMS 0 (R77)
  let sums := dDeliv d == 3 && dLead d && (emptyColl d || !(homeChunks s d x).isEmpty)
  let y := if emptyColl d || d.prog.released.isEmpty then combSummary0 d else d.prog.summary
  let s := if sums then
      let s := if d.b2.isSome then s else regWrite s d.plot suma (summaryBytes y)
      if y.escape = 0 then s
      else emit { s with ar := { s.ar with escapes := s.ar.escapes + 1 } } rkArithEscape (srcDie j) (some d.plot) []
    else s
  let (s, sat) := endSignals s j d
  let st := if st == stOk && sat then stCtrSaturated else st
  let s := writeRecord s d st
  let s := match descAt? s j i with
    | some d' => setDesc s j i { d' with triggered := false, laggard := laggardOf d, prog := { d'.prog with status := st } }
    | none => s
  let s := if st == stCapacityDrop then
      emit s rkCollDrop (srcDie j) (some d.plot) []
    else s
  match d.b2 with
  | some b => b2Done s j i d b st
  | none => s

/-- RUN_COMPLETE: a triggered run of a running plot whose work is done and confirmed completes; an empty collective does so at the
tick after it triggered (R206, R209). -/
def execRunComplete (die idx : Nat) (s : State) : Host.Outcome State Fault Refusal :=
  match descAt? s die idx with
  | none => done s
  | some d =>
    if !d.triggered || d.prog.stuck || !plotRuns s d.plot then done s
    else if emptyColl d then
      (if d.prog.startTick.toNat < s.sd.ticks.toNat then done (completeRun s die idx d) else done s)
    else if workDone s die d && allConfirmed s die d then done (completeRun s die idx d)
    else done s

end Sys2Proof.Machine
end

