-- ==== Sys2Proof/Machine/B2.lean ====
section
/-! DEFINITION. B2 launch mode (R3–R6, R222, R223) and the packets that wait for a pair entry (R296). -/

namespace Sys2Proof.Machine

/-- The launch block of Table 8.9. -/
structure Launch where
  op : Nat
  rop : Nat
  fmt : Nat
  grp : Nat
  tag : BitVec 16
  root : Nat
  rsv : Nat
  bytes : Nat
deriving DecidableEq, Repr

def launchOf (p : Pkt) : Launch :=
  let v := numAt p.body 0 32
  { op := fieldN v 248 8, rop := fieldN v 244 4, fmt := fieldN v 240 4, grp := fieldN v 224 16, tag := BitVec.ofNat 16 (fieldN v 208 16),
    root := fieldN v 190 18, rsv := fieldN v 160 30, bytes := fieldN v 128 32 }

/-- The member table that a launch's group gives keeps the rules of R201 (R6): the member count, its entries, and the root of a
broadcast. -/
def groupFits (nport : Nat) (g : Launch) (entries : List Nat) : Bool :=
  decide (entries.length ≤ 131072) && entries.all (memberOk nport) && (g.op != 3 || decide (g.root < entries.length))

/-- Field values that a launch may have (Table 8.9, R223). -/
def launchOk (g : Launch) : Bool :=
  let f := g.fmt
  let fmtOk := f == fFP64 || f == fFP32 || f == fBF16 || f == fFP16 || f == fINT32
  decide (g.op ≤ 3) && g.rsv == 0 && fmtOk && g.bytes % (fmtBits f / 8) == 0 &&
  (if g.op ≤ 1 then g.rop == 0 || g.rop == 3 || g.rop == 4 else g.rop == 0)

/-- A refused launch: its status goes to the launching endpoint, it is counted and reported (R223). -/
def refuseLaunch (s : State) (n : Nat) (tag : BitVec 16) (src : BitVec 24) (st : U16) : State :=
  let s := sendOut s none (b2StatusPkt s n tag src st)
  let s := { s with coll := { s.coll with b2Refusals := s.coll.b2Refusals + 1 } }
  emit s rkB2Refused srcModule (some n) []

/-- The descriptor image that a launch builds (R222). -/
def builtImg (s : State) (g : Launch) (nmem : Nat) (lead : Bool) : BitVec 512 :=
  let sum64 := g.fmt == fFP64 && g.op ≤ 1 && g.rop == 0
  BitVec.ofNat 512 ((g.op + 1) * 2 ^ 504 + g.rop * 2 ^ 500 + g.fmt * 2 ^ 496 + g.fmt * 2 ^ 492 + field s.ar.b2ModeEff 0 2 * 2 ^ 490 +
    bit lead * 2 ^ 488 + (if g.op ≤ 1 then 3 else 2) * 2 ^ 484 + (if sum64 then toN 12 s.ar.b2BaseEff.toInt else 0) * 2 ^ 472 +
    g.tag.toNat * 2 ^ 399 + nmem * 2 ^ 381 + (g.bytes / (fmtBits g.fmt / 8)) * 2 ^ 333 + 0xFFFF * 2 ^ 317)

/-- The port dies that carry a port the group's table names for the plot. -/
def groupDies (s : State) (n : Nat) (entries : List Nat) : List Nat :=
  let ports := entries.filterMap (fun e => (portsOfPlot s n)[fieldN e 32 6]?)
  (List.range 16).filter (fun j => ports.any (fun p => p / 4 == j))

/-- Slots of the reserve in use on a die, and the first free descriptor index. -/
def reserveUsed (s : State) (j : Nat) : Nat := ((dieAt s j).descs.filter (fun e => e.2.b2.isSome && !isNote e.2)).length
def freeIndex (s : State) (j : Nat) : Nat :=
  ((List.range 1025).find? (fun i => !(dieAt s j).descs.any (fun e => e.1 == i))).getD 1024

/-- A die has a free slot of the B2 reserve. -/
def slotFree (s : State) (j : Nat) : Bool := decide (reserveUsed s j < s.coll.b2ReserveEff.toNat)

/-- The dies through which a group's table reaches members on other modules. -/
def awayDies (s : State) (n : Nat) (entries : List Nat) : List Nat :=
  (groupDies s n entries).filter (fun j => entries.any (fun e => match (portsOfPlot s n)[fieldN e 32 6]? with
    | some p => p / 4 == j && !fromMember s (2 * p + bit (fieldN e 38 2 == 3))
    | none => false))

/-- Build a launch's descriptor on a die; the one on the lowest die that carries a port of the group's table has LEAD set (R197, R222). -/
def buildOn (s : State) (n : Nat) (g : Launch) (home : BitVec 24) (entries : List Nat) (who : List (BitVec 24)) (j : Nat) : State :=
  setDesc s j (freeIndex s j) {
    plot := n, rel := 0, img := builtImg s g entries.length ((groupDies s n entries).head? == some j)
    b2 := some {
      group := g.grp, home := home, launchers := who, bytes := g.bytes, op := g.op, rop := g.rop, fmt := g.fmt, root := g.root, mismatch := false } }

/-- Build the descriptor of a launch on its arrival die, which none has yet; none where the die has no free slot (R222, R223). On a module
that is not the home, a die towards other modules takes no launch and builds with the first, where it has a slot (log entry 110). -/
def buildDesc (s : State) (n j : Nat) (g : Launch) (home : BitVec 24) (entries : List Nat) (ds : List (Nat × Nat × Desc)) : Option State :=
  if !slotFree s j then none
  else
    let who := (ds.filterMap (fun e => e.2.2.b2)).flatMap (·.launchers) |>.foldl addNew []
    let away := if home == selfId s then [] else (awayDies s n entries).filter (fun k => k != j && slotFree s k && !ds.any (fun e => e.1 == k))
    some ((j :: away).foldl (fun s k => buildOn s n g home entries who k) s)

/-- The launch agrees with the one the descriptor was built from. -/
def launchSame (b : B2Info) (g : Launch) : Bool := b.op == g.op && b.rop == g.rop && b.fmt == g.fmt && b.bytes == g.bytes && b.root == g.root

/-- All descriptors and notes of a B2 collective. -/
def b2Descs (s : State) (n : Nat) (tag : BitVec 16) (grp : Nat) : List (Nat × Nat × Desc) :=
  (List.range 16).flatMap (fun j => ((dieAt s j).descs.filter (fun e =>
    e.2.plot == n && dTag e.2 == tag && (match e.2.b2 with | some b => b.group == grp | none => false))).map (fun e => (j, e.1, e.2)))

def mapB2 (s : State) (ds : List (Nat × Nat × Desc)) (f : B2Info → B2Info) : State :=
  ds.foldl (fun s e => setDesc s e.1 e.2.1 { e.2.2 with b2 := e.2.2.b2.map f }) s

def dropDescs (s : State) (ds : List (Nat × Nat × Desc)) : State :=
  ds.foldl (fun s e => dropDesc s e.1 e.2.1 e.2.2) s

/-- Every member has launched. -/
def allLaunched (entries : List Nat) (who : List (BitVec 24)) : Bool :=
  entries.all (fun e => who.contains (BitVec.ofNat 24 (fieldN e 40 24)))

/-- The home holds a launch that differs: every launch of the group and TAG is refused, those it holds and those that come until
every member has launched (R223). -/
def mismatchAll (s : State) (n : Nat) (g : Launch) (src : BitVec 24) (entries : List Nat) (ds : List (Nat × Nat × Desc)) (b : B2Info) : State :=
  let held := if b.mismatch then [] else b.launchers
  let who := addNew b.launchers src
  let s := (addNew held src).foldl (fun s e => refuseLaunch s n g.tag e stB2Mismatch) s
  if allLaunched entries who then dropDescs s ds
  else mapB2 s ds (fun b => { b with mismatch := true, launchers := who })

/-- A launch is accepted: counted, noted, forwarded where the home is another module, and with the whole group in, the collective
triggers (R222). -/
def acceptLaunch (s : State) (link n : Nat) (p : Pkt) (g : Launch) (home : BitVec 24) (ds : List (Nat × Nat × Desc)) (src : BitVec 24) : State :=
  let s := { s with coll := { s.coll with b2Launches := s.coll.b2Launches + 1 } }
  let s := mapB2 s ds (fun b => { b with launchers := addNew b.launchers src })
  let s := if home == selfId s then s else sendOut s (some link) { p with dest := home }
  if plotRuns s n then
    (b2Descs s n g.tag g.grp).foldl (fun s e => if b2Ready s e.2.2 then triggerDesc s e.1 e.2.1 e.2.2 else s) s
  else s

/-- A TAG is taken in a plot: by a descriptor of the image, or by the collective of another group (R201, R6). -/
def tagTaken (s : State) (n : Nat) (g : Launch) : Bool :=
  (collDescs s n g.tag).any (fun e => match e.2.2.b2 with | some b => b.group != g.grp | none => true)

/-- A launch block that has reached a module of its group (R6, R222, R223). -/
def launchHere (s : State) (link : Nat) (p : Pkt) : State :=
  let n := p.plot.toNat
  let j := linkDie link
  let g := launchOf p
  let src := p2pSrc p
  if !s.coll.b2Enable.getLsbD n then s
  else if g.bytes < 4096 then refuseLaunch s n g.tag src stB2MinSize
  else match (b2Groups s.coll.b2Groups)[g.grp]? with
    | none => refuseLaunch s n g.tag src stSegInvalid
    | some (home, entries) =>
      if !launchOk g || !entries.any (fun e => BitVec.ofNat 24 (fieldN e 40 24) == src) ||
          !groupFits (portsOfPlot s n).length g entries || tagTaken s n g then refuseLaunch s n g.tag src stSegInvalid
      else
        let ds := b2Descs s n g.tag g.grp
        match ds.findSome? (fun e => e.2.2.b2.map (fun b => (b, home == selfId s && (b.mismatch || !launchSame b g)))) with
        | some (b, true) => mismatchAll s n g src entries ds b
        | _ =>
          if ds.any (fun e => e.1 == j) then acceptLaunch s link n p g home ds src
          else match buildDesc s n j g home entries ds with
            | none => refuseLaunch s n g.tag src stB2NoSlot
            | some s' => acceptLaunch s' link n p g home (b2Descs s' n g.tag g.grp) src

/-- A B2_LAUNCH packet within its window. -/
def launchPass (s : State) (link : Nat) (p : Pkt) : State :=
  if endsHere s link p then freeRx (launchHere (oweAck s link p) link p) link p else switchPkt s link p

/-- B2_LAUNCH. -/
def execB2Launch (link : Nat) (p : Pkt) (s : State) : Host.Outcome State Fault Refusal :=
  done (onPacket s link p [opB2Launch] (fun s => policed s link p (fun s => launchPass s link p)))

/-- B2_STATUS: switched towards its member (R311). One that carries B2_MISMATCH takes the built descriptors off this module
(R223). -/
def execB2Status (link : Nat) (p : Pkt) (s : State) : Host.Outcome State Fault Refusal :=
  done (onPacket s link p [opB2Status] (fun s =>
    let s := if p.ext == stB2Mismatch then
        dropDescs s ((collDescs s p.plot.toNat p.tag).filter (fun e => e.2.2.b2.isSome))
      else s
    switchPkt s link p))

/-- PAIR_ENTRY_ADMIT: with a pair entry free, the packet that has waited longest is admitted (R296). -/
def execPairEntryAdmit (link : Nat) (s : State) : Host.Outcome State Fault Refusal :=
  let x := linkAt s link
  match x.pairWait with
  | [] => done s
  | p :: r =>
    if pairRoom s link ≤ x.pairs.length then done s
    else
      let s := setLink s link { x with pairWait := r }
      done (policed s link p (fun s => if p.opc == opB2Launch then launchPass s link p else p2pPass s link p))

end Sys2Proof.Machine
end

