-- ==== Sys2Proof/Machine/ImageOps.lean ====
section
/-! DEFINITION. Program images (R156, R411): header, section directory and section bodies, and checks 1 and 3 of Table 6.3. -/

namespace Sys2Proof.Machine

/-! ### Header (Table 6.1) -/

def imgHead (bs : List Byte) : Nat := numAt bs 0 64
def ihPeriod (h : Nat) : Nat := fieldN h 456 8
def ihNpav (h : Nat) : Nat := fieldN h 432 16
def ihNport (h : Nat) : Nat := fieldN h 424 8
def ihNsec (h : Nat) : Nat := fieldN h 400 16
def ihNframe (h : Nat) : Nat := fieldN h 352 32
def ihPcyc (h : Nat) : Nat := fieldN h 320 32

/-- The image's CRC, with its own field as zero. -/
def imgCrc (bs : List Byte) : Nat := crc32 (bs.take 32 ++ [0, 0, 0, 0] ++ bs.drop 36)

/-- A section: its directory entry (Table 6.2) and its body. -/
structure Sec where
  idx : Nat
  off : Nat
  len : Nat
  typ : Nat
  unit : Nat
  eng : Nat
  rsvd : Nat
  body : List Byte
deriving DecidableEq, Repr, Inhabited

/-- The sections of an image in index order. -/
def imgSecs (bs : List Byte) : List Sec :=
  (List.range (ihNsec (imgHead bs))).map (fun k =>
    let e := numAt bs (64 + 16 * k) 16
    let off := fieldN e 96 32
    let len := fieldN e 64 32
    { idx := k, off := off, len := len, typ := fieldN e 56 8, unit := fieldN e 48 8, eng := fieldN e 44 4, rsvd := fieldN e 0 44,
      body := sliceB bs off len })

/-- Every byte of sorted spans belongs to one of them. -/
def apart : List (Nat × Nat) → Bool
  | a :: b :: r => decide (a.2 ≤ b.1) && apart (b :: r)
  | _ => true

/-- Check 1: header, length, CRC, and the places of the sections (R156). -/
def imgSound (bs : List Byte) : Bool :=
  let h := imgHead bs
  let n := bs.length
  let nsec := ihNsec h
  decide (64 ≤ n) && decide (n ≤ 2 ^ 26) && fieldN h 480 32 == 0x4C583634 && fieldN h 464 16 == 1 &&
  fieldN h 448 8 == 0 && fieldN h 416 8 == 0 && fieldN h 384 16 == 0 && fieldN h 0 256 == 0 && fieldN h 288 32 == n &&
  decide (ihNpav h ≤ 256) && decide (ihNport h ≤ 64) && decide (1 ≤ nsec) && decide (nsec ≤ 1024) &&
  decide (1 ≤ ihNframe h) && decide (ihNframe h ≤ 65536) && decide (1 ≤ ihPcyc h) && decide (ihPcyc h ≤ ihNframe h) &&
  decide (64 + 16 * nsec ≤ n) && fieldN h 256 32 == imgCrc bs &&
  (let ss := imgSecs bs
   ss.all (fun c => decide (c.off + c.len ≤ n)) &&
   apart (sortBy (fun a b => decide (a.1 ≤ b.1)) ((0, 64 + 16 * nsec) ::
     (ss.filter (fun c => c.len != 0)).map (fun c => (c.off, c.off + c.len)))))

/-! ### Bodies (R411, R128, R144, R186, R200, R319) -/

/-- `n` numbers of `size` bytes from `at_` on. -/
def entriesAt (bs : List Byte) (at_ size n : Nat) : List Nat := (pieces size ((bs.drop at_).take (size * n))).map leNat

/-- Round up to whole 16-byte units. -/
def up16 (n : Nat) : Nat := (n + 15) / 16 * 16

/-- The count of a 16-byte header whose other bits are reserved. -/
def countOf (bs : List Byte) : Option Nat :=
  if bs.length < 16 then none
  else
    let h := numAt bs 0 16
    if fieldN h 0 112 = 0 then some (fieldN h 112 16) else none

/-- A body of a header and `count` entries of `size` bytes, padded with zeros. -/
def countedBody (bs : List Byte) (size : Nat) : Option (List Nat) :=
  match countOf bs with
  | none => none
  | some n => if bs.length = 16 + up16 (n * size) ∧ allZero (bs.drop (16 + n * size)) then some (entriesAt bs 16 size n) else none

/-- A counter declaration entry (Table 6.8). -/
def ctrDecl (e : Nat) : CtrDecl := { ctr := fieldN e 58 6, init := BitVec.ofNat 16 (fieldN e 42 16), outside := fieldN e 26 16 }

/-- A budget item (Table 6.9). -/
def budgetItem (e : Nat) : BudgetItem :=
  { res := fieldN e 120 8, unit := fieldN e 112 8, sub := fieldN e 108 4, unit2 := fieldN e 100 8, sub2 := fieldN e 96 4, mgrp := fieldN e 80 16,
    value := fieldN e 0 64 }

/-- A budget item has a kind of Table 6.10 and only the fields its kind takes. -/
def budgetOk (e : Nat) : Bool :=
  let b := budgetItem e
  let one := b.unit2 == 0 && b.mgrp == 0
  fieldN e 64 16 == 0 &&
  (match b.res with
    | 1 => one && decide (b.sub ≤ 5) && b.sub2 == 0
    | 2 => one && b.sub == 0 && b.sub2 == 0
    | 3 => one && b.sub == 0 && b.sub2 == 0
    | 4 => one && b.unit == 0 && b.sub == 0 && b.sub2 == 0
    | 5 => one && decide (b.sub ≤ 5) && decide (b.sub2 ≤ (if b.sub = 1 ∨ b.sub = 2 ∨ b.sub = 3 then 1 else 0))
    | 6 => one && b.sub == 0 && b.sub2 == 0
    | 7 => decide (b.sub ≤ 2) && decide (b.sub2 ≤ 2)
    | _ => false)

/-- The frame records of a budget table, or the index of the item that breaks it; bytes past the last record are a fault of the whole. -/
def budgetGo : Nat → Nat → List Byte → Except Nat (List (List Nat))
  | 0, _, bs => if bs.isEmpty then .ok [] else .error 0
  | f + 1, n, bs =>
    match countOf bs with
    | none => .error n
    | some k =>
      if bs.length < 16 + 16 * k then .error n
      else
        let items := entriesAt bs 16 16 k
        match items.findIdx? (fun e => !budgetOk e) with
        | some i => .error (n + i)
        | none => match budgetGo f (n + k) (bs.drop (16 + 16 * k)) with
          | .ok r => .ok (items :: r)
          | .error i => .error i

/-- Static data records (Table 6.11), or the index of the one that breaks it. -/
def staticGo : Nat → Nat → List Byte → Except Nat (List StaticRec)
  | 0, n, bs => if bs.isEmpty then .ok [] else .error n
  | fuel + 1, n, bs =>
    if bs.isEmpty then .ok []
    else
      let h := numAt bs 0 16
      let len := fieldN h 57 32
      let hbm := fieldN h 127 1 == 1
      let addr := fieldN h 89 38
      if bs.length < 16 + up16 len ∨ fieldN h 0 57 ≠ 0 ∨ allZero (sliceB bs (16 + len) (up16 len - len)) = false ∨
          (hbm = false ∧ 2 ^ 22 ≤ addr) then .error n
      else match staticGo fuel (n + 1) (bs.drop (16 + up16 len)) with
        | .ok r => .ok ({ hbm := hbm, addr := addr, data := sliceB bs 16 len } :: r)
        | .error i => .error i

def staticRecs (bs : List Byte) : Except Nat (List StaticRec) := staticGo bs.length 0 bs

/-- A port reservation entry (Table 13.2). -/
def rsvEntry (e : Nat) : RsvEntry :=
  { rsvid := fieldN e 112 16, f0 := fieldN e 95 17, nf := fieldN e 78 17, flits := fieldN e 64 14, ingress := fieldN e 63 1 == 1,
    half := fieldN e 62 1 == 1, vc := fieldN e 59 3, pin := fieldN e 58 1 == 1, tag := BitVec.ofNat 16 (fieldN e 42 16) }

/-- A pool declaration (Table 7.5). -/
def poolDecl (e : Nat) : PoolDecl :=
  { hbmOff := fieldN e 96 32, count := fieldN e 79 17, size := fieldN e 74 5, loc := fieldN e 72 2, unit := fieldN e 64 8, held := fieldN e 32 32 }

/-- A pool declaration is in range (R186, R187). -/
def poolOk (npav nport e : Nat) : Bool :=
  let p := poolDecl e
  fieldN e 0 32 == 0 && decide (p.count ≤ 65536) && decide (8 ≤ p.size) && decide (p.size ≤ 20) && decide (p.held ≤ p.count) &&
  (match p.loc with
    | 0 => p.hbmOff == 0 && decide (p.unit < npav)
    | 1 => p.hbmOff == 0 && decide (p.unit < nport)
    | 2 => p.unit == 0 && p.hbmOff * 256 % 2 ^ p.size == 0
    | _ => false)

/-- The header of a Dovecote section (R200): descriptors and declared trigger counters. -/
def descHead (bs : List Byte) : Nat × Nat := (fieldN (numAt bs 0 16) 112 16, fieldN (numAt bs 0 16) 96 16)
def descStart (nt : Nat) : Nat := 16 + up16 (2 * nt)

/-- The body of a Dovecote section agrees with its header. -/
def descBodyOk (bs : List Byte) : Bool :=
  let (n, nt) := descHead bs
  decide (16 ≤ bs.length) && fieldN (numAt bs 0 16) 0 96 == 0 && decide (nt ≤ 1024) && bs.length == descStart nt + 64 * n &&
    allZero (sliceB bs (16 + 2 * nt) (descStart nt - 16 - 2 * nt))

def descSec (port : Nat) (bs : List Byte) : DescSec :=
  let (n, nt) := descHead bs
  { port := port, inits := (entriesAt bs 16 2 nt).map (BitVec.ofNat 16), descs := (entriesAt bs (descStart nt) 64 n).map (BitVec.ofNat 512) }

/-- No name stands twice in a list; the index of the second one otherwise. -/
def repeated : List Nat → List Nat → Nat → Option Nat
  | _, [], _ => none
  | seen, x :: xs, i => if seen.contains x then some i else repeated (x :: seen) xs (i + 1)

/-- The lower of two indices that may be there. -/
def leastOf : Option Nat → Option Nat → Option Nat
  | some a, some b => some (min a b)
  | a, b => a.or b

/-- Whether a body is malformed under R411 and the rules it names: the index that check 3 reports. -/
def bodyFault (npav nport nframe : Nat) (c : Sec) : Option Nat :=
  let bs := c.body
  let n := bs.length
  let listed (o : Option (List Nat)) (bad : Nat → Bool) (name : Nat → Nat) (most : Nat) : Option Nat :=
    match o with
    | none => some 0
    | some es => (leastOf (es.findIdx? bad) (repeated [] (es.map name) 0)).or (if most < es.length then some 0 else none)
  match c.typ with
  | 1 => if n % 16 = 0 ∧ n ≤ 65536 then none else some 0
  | 2 => if n % 4 = 0 ∧ n ≤ 8192 then none else some 0
  | 3 =>
    let w := numAt bs 0 16
    if n = 16 ∧ fieldN w 0 99 = 0 ∧ fieldN w 105 23 ≤ 2 ^ 22 ∧ fieldN w 99 6 ≤ 32 then none else some 0
  | 4 => listed (countedBody bs 8) (fun e => fieldN e 0 26 != 0) (fun e => fieldN e 58 6) 64
  | 5 => match budgetGo nframe 0 bs with | .error i => some i | .ok _ => none
  | 6 => if descBodyOk bs then none else some 0
  | 7 => match countedBody bs 16 with | none => some 0 | some _ => none
  | 8 => if n % 16 = 0 then (entriesAt bs 0 16 (n / 16)).findIdx? (fun e => !poolOk npav nport e) else some 0
  | 9 => match countedBody bs 16 with
    | none => some 0
    | some es => es.findIdx? (fun e => fieldN e 0 52 != 0)
  | 10 => listed (countedBody bs 8) (fun e => fieldN e 32 20 != 0) (fun e => fieldN e 52 12) 65535
  | 11 => match staticRecs bs with | .error i => some i | .ok _ => none
  | _ => some 0

/-- The static data of a section holds an SRAM record, so that its UNIT names a pavilion. -/
def hasSram (bs : List Byte) : Bool := match staticRecs bs with | .ok rs => rs.any (fun r => !r.hbm) | .error _ => false

/-- Type, reserved bits, UNIT and ENG of a section (Table 6.2). -/
def secPlaced (npav nport : Nat) (c : Sec) : Bool :=
  decide (1 ≤ c.typ) && decide (c.typ ≤ 11) && c.rsvd == 0 && decide (c.eng ≤ 5) && (c.typ == 1 || c.typ == 10 || c.eng == 0) &&
  (if c.typ ≤ 4 ∨ c.typ = 10 then decide (c.unit < npav)
   else if c.typ = 6 ∨ c.typ = 7 then decide (c.unit < nport)
   else if c.typ = 11 then c.unit == 0 || (decide (c.unit < npav) && hasSram c.body)
   else c.unit == 0) &&
  (c.typ != 11 || !hasSram c.body || decide (c.unit < npav))

/-- The port die of a plot-relative port. -/
def dieOfRel (ports : List Nat) (j : Nat) : Option Nat := ports[j]?.map (· / 4)

/-- The lowest-indexed port of the plot on the die of port `j` (R200). -/
def lowestOnDie (ports : List Nat) (j : Nat) : Bool :=
  match dieOfRel ports j with
  | none => true
  | some die => (List.range j).all (fun i => dieOfRel ports i != some die)

/-- Check 3 on the sections in ascending index; answers the section and index of the first failure. -/
def check3 (h : Nat) (ports : List Nat) : List (Nat × Nat × Nat) → List Sec → Option (Option Sec × Nat)
  | seen, [] => if seen.any (fun k => k.1 == 5) then none else some (none, 0)
  | seen, c :: r =>
    let k := (c.typ, c.unit, c.eng)
    if !secPlaced (ihNpav h) (ihNport h) c || seen.contains k then some (some c, 0)
    else match bodyFault (ihNpav h) (ihNport h) (ihNframe h) c with
      | some i => some (some c, i)
      | none =>
        if c.typ == 6 && (descHead c.body).2 != 0 && !lowestOnDie ports c.unit then some (some c, 0)
        else check3 h ports (k :: seen) r

/-! ### The image as the loader holds it -/

def ofTyp (ss : List Sec) (t : Nat) : List Sec := ss.filter (fun c => c.typ == t)

/-- The records of a static data section. -/
def recsOf (c : Sec) : List StaticRec := match staticRecs c.body with | .ok rs => rs | .error _ => []

/-- The frames of a budget table. -/
def framesOf (nframe : Nat) (c : Sec) : List (List BudgetItem) :=
  match budgetGo nframe 0 c.body with | .ok fs => fs.map (fun f => f.map budgetItem) | .error _ => []

/-- Read a verified image. -/
def imageOf (bs : List Byte) (ss : List Sec) : Image :=
  let h := imgHead bs
  { bytes := bs, period := ihPeriod h, npav := ihNpav h, nport := ihNport h, nframe := ihNframe h, pcyc := ihPcyc h
    streams := (ofTyp ss 1).map (fun c => (c.unit, c.eng, cmdsOfBytes c.body))
    stores := (ofTyp ss 2).map (fun c => (c.unit, (entriesAt c.body 0 4 (c.len / 4)).map (BitVec.ofNat 32)))
    layouts := (ofTyp ss 3).map (fun c => (c.unit, fieldN (numAt c.body 0 16) 105 23, fieldN (numAt c.body 0 16) 99 6))
    ctrs := (ofTyp ss 4).map (fun c => (c.unit, ((countedBody c.body 8).getD []).map ctrDecl))
    budget := (ofTyp ss 5).flatMap (framesOf (ihNframe h))
    descs := (ofTyp ss 6).map (fun c => descSec c.unit c.body)
    rsvs := (ofTyp ss 7).map (fun c => (c.unit, ((countedBody c.body 16).getD []).map rsvEntry))
    pools := (ofTyp ss 8).flatMap (fun c => (entriesAt c.body 0 16 (c.len / 16)).map poolDecl)
    hbmUse := (ofTyp ss 9).flatMap (fun c => ((countedBody c.body 16).getD []).map (fun e => (fieldN e 90 38, fieldN e 52 38)))
    bounds := (ofTyp ss 10).map (fun c => (c.unit, c.eng, ((countedBody c.body 8).getD []).map (fun e => (fieldN e 52 12, fieldN e 0 32))))
    statics := (ofTyp ss 11).map (fun c => (c.unit, recsOf c)) }

end Sys2Proof.Machine
end

