-- ==== Sys2Proof/Machine/Merge.lean ====
section
/-! DEFINITION. The MERGE engine (R109–R114, R147, R148): stable merging, sorting, top-k and filtering of (index, value) records. -/

namespace Sys2Proof.Machine

/-- The key of a record: its index or its value (R109). A value key is ordered by R75. -/
def keyLt (f : Nat) (byVal desc : Bool) (a b : MRec) : Bool :=
  let lt (x y : MRec) : Bool := if byVal then (decodeElem f 0 x.val).lt (decodeElem f 0 y.val) else decide (x.index < y.index)
  if desc then lt b a else lt a b

/-- Two records have equal keys. -/
def keyEq (f : Nat) (byVal : Bool) (a b : MRec) : Bool := !keyLt f byVal false a b && !keyLt f byVal false b a

/-- The stream whose head goes first: the least key, the lowest stream number among equals (R109). -/
def bestStream (f : Nat) (byVal desc : Bool) : List (Nat × MRec) → Option (Nat × MRec)
  | [] => none
  | h :: t => match bestStream f byVal desc t with
    | none => some h
    | some g => if keyLt f byVal desc g.2 h.2 then some g else some h

/-- The tournament merge of streams, each record with its out-of-order mark (R109, R110). -/
def mergeN (f : Nat) (byVal desc : Bool) : Nat → List (List (MRec × Bool)) → List (MRec × Bool)
  | 0, _ => []
  | fuel + 1, ss =>
    let heads := ((List.range ss.length).zip ss).filterMap (fun p => p.2.head?.map (fun r => (p.1, r.1)))
    match bestStream f byVal desc heads with
    | none => []
    | some (i, r) =>
      let mark := match (ss.getD i []).head? with | some h => h.2 | none => false
      (r, mark) :: mergeN f byVal desc fuel (ss.set i (ss.getD i []).tail)

/-- A stream with the records that are out of order with their predecessors marked (R110). -/
def markStream (f : Nat) (byVal desc : Bool) : List MRec → List (MRec × Bool)
  | [] => []
  | r :: rs => (r, false) :: ((rs.zip (r :: rs)).map (fun p => (p.1, keyLt f byVal desc p.1 p.2)))

/-- Duplicate modes of R111 on records in output order: KEEP_ALL, KEEP_FIRST, COUNT. Records of equal keys are those that follow one
another in it: where the order is broken, equal keys apart are not joined (DESIGN CHOICE, log entry 104). -/
def dupMode (f : Nat) (byVal : Bool) (mode : Nat) : List (MRec × Bool) → List (MRec × Bool)
  | [] => []
  | r :: rs =>
    match mode with
    | 0 => r :: dupMode f byVal mode rs
    | _ =>
      match dupMode f byVal mode rs with
      | [] => [({ r.1 with count := 1 }, r.2)]
      | g :: gs => if keyEq f byVal r.1 g.1 then ({ r.1 with count := g.1.count + 1 }, r.2 || g.2) :: gs
        else ({ r.1 with count := 1 }, r.2) :: g :: gs

/-- The filter test of FOP (R113, R148). -/
def filterTest (f fop : Nat) (byVal : Bool) (b : MergeBlk) (r : MRec) : Bool :=
  let t : MRec := { index := b.thr % 2 ^ 32, val := b.thr % 2 ^ fmtBits f }
  let lt := keyLt f byVal false r t
  let gt := keyLt f byVal false t r
  match fop with
  | 0 => lt
  | 1 => !gt
  | 2 => !lt && !gt
  | 3 => lt || gt
  | 4 => !lt
  | 5 => gt
  | _ => decide (b.lo ≤ r.index) && decide (r.index ≤ b.hi)

/-- What the four commands check before anything moves, and the block they read (R97, R148). -/
def mergePre (u : EngRef) (k : CmdHdr) (o : MergeOps) (iter : Nat) (s : State) (limit : MergeBlk → Bool) : Except Fail (Nat × MergeBlk) :=
  let v := pavAt s u.pav
  let pb := advance k.laa o.pb.toNat 64 iter
  if !fmtKey o.vfmt.toNat || o.dup == 3 then .error .malformed
  else if pb % 64 ≠ 0 ∨ sramIn pb 64 = false then .error .bounds
  else match sramBad v pb 64 with
    | some w => .error (.sram w)
    | none =>
      let b := mergeBlk (sramRead v pb 64)
      if b.rsvd ≠ 0 ∨ limit b = false then .error .malformed else .ok (pb, b)

/-- Write the records and OUTN (R114, R148), once the output is known to lie in SRAM (R97); `load` is what the reading left in MERGE.
Every record has been read before the first is written, so an output over its own sources or its block changes none of them, and OUTN
is written last (DESIGN CHOICE, log entry 16). -/
def mergeOut (u : EngRef) (s : State) (load : Pavilion → Pavilion) (f pb dst : Nat) (count : Bool) (rs : List MRec) (outn : Nat) : Eff :=
  if !sramIn dst (rs.length * recordSize f count) then .fail .bounds s
  else Eff.ofWrite u s (sramWrites (load (pavAt s u.pav)) ((if rs.isEmpty then [] else [(dst, rs.flatMap (recordBytes f count))]) ++ [(pb + 32, natLe 4 outn)]))

/-- MMERGE: merge NS sorted streams to DST (R109–R111). -/
def effMmerge (u : EngRef) (k : CmdHdr) (o : MergeOps) (iter : Nat) (s : State) : Eff :=
  match mergePre u k o iter s (fun b => decide (b.n ≤ 16)) with
  | .error e => .fail e s
  | .ok (pb, b) =>
    let v := pavAt s u.pav
    let f := o.vfmt.toNat
    let tab := (List.range b.n).map (fun i => (numAt (sramRead v (b.src + 8 * i) 8) 0 4, numAt (sramRead v (b.src + 8 * i) 8) 4 4))
    let rs := tab.map (fun e => (e.1, e.2 * recordSize f false))
    if !sramIn b.src (8 * b.n) || !rs.all (fun r => sramIn r.1 r.2) then .fail .bounds s
    else match sramBads v ((b.src, 8 * b.n) :: rs) with
      | some w => .fail (.sram w) s
      | none =>
        let ss := tab.map (fun e => markStream f o.key o.dir (readRecords v f e.1 e.2))
        let out := dupMode f o.key o.dup.toNat (mergeN f o.key o.dir (sumN (tab.map (·.2))) ss)
        let bad := (ss.flatMap id).filter (·.2)
        match mergeOut u s (fun v => { v with cursors := tab.map (·.2) }) f pb b.dst (o.dup == 2) (out.map (·.1)) out.length with
        | .fail e s' => .fail e s'
        -- reported when the command completes (R110)
        | .ok s' => .ok (if bad.isEmpty then s'
          else emit s' rkMergeUnsorted (srcPav u.pav) (engPlot s u) [(32, bad.length), (32, (out.findIdx? (·.2)).getD 0)])

def execMmerge (u : EngRef) (x : Upset) (k : CmdHdr) (o : MergeOps) (s : State) : Host.Outcome State Fault Refusal :=
  issueOp u x k (.mmerge o) (effMmerge u k o) s

/-- The records of SRC, sorted stably, with duplicates treated (R111, R112). -/
def sortedRecords (v : Pavilion) (o : MergeOps) (b : MergeBlk) : List MRec :=
  let f := o.vfmt.toNat
  let rs := sortBy (fun x y => !keyLt f o.key o.dir y x) (readRecords v f b.src b.n)
  (dupMode f o.key o.dup.toNat (rs.map (fun r => (r, false)))).map (·.1)

/-- Sorting in place, for MSORT and MTOPK: `outn` of the sorted records (R112, R113). -/
def effSort (u : EngRef) (k : CmdHdr) (o : MergeOps) (iter : Nat) (s : State) (limit : MergeBlk → Bool) (outn : MergeBlk → Nat → Nat) : Eff :=
  match mergePre u k o iter s (fun b => decide (b.n ≤ 4096) && limit b) with
  | .error e => .fail e s
  | .ok (pb, b) =>
    let v := pavAt s u.pav
    let size := b.n * recordSize o.vfmt.toNat false
    if !sramIn b.src size then .fail .bounds s
    else match sramBad v b.src size with
      | some w => .fail (.sram w) s
      | none =>
        let rs := sortedRecords v o b
        mergeOut u s (fun v => { v with
          sortBuf := rs.map (fun r => (BitVec.ofNat 32 r.index, BitVec.ofNat 32 r.count, BitVec.ofNat 64 r.val)) }) o.vfmt.toNat pb b.src (o.dup == 2) rs (outn b rs.length)

/-- MSORT: sort N records in place (R112). -/
def execMsort (u : EngRef) (x : Upset) (k : CmdHdr) (o : MergeOps) (s : State) : Host.Outcome State Fault Refusal :=
  issueOp u x k (.msort o) (fun i s => effSort u k o i s (fun _ => true) (fun _ n => n)) s

/-- MTOPK: sort in place, then OUTN is min(K, N) (R113, Table 5.13), whatever the duplicate mode. -/
def execMtopk (u : EngRef) (x : Upset) (k : CmdHdr) (o : MergeOps) (s : State) : Host.Outcome State Fault Refusal :=
  issueOp u x k (.mtopk o) (fun i s => effSort u k o i s (fun b => decide (b.k ≤ 4096)) (fun b _ => min b.k b.n)) s

/-- MFILT: the records of SRC that pass, to DST in input order (R113). -/
def effMfilt (u : EngRef) (k : CmdHdr) (o : MergeOps) (iter : Nat) (s : State) : Eff :=
  match mergePre u k o iter s (fun _ => o.fop != 7) with
  | .error e => .fail e s
  | .ok (pb, b) =>
    let v := pavAt s u.pav
    let f := o.vfmt.toNat
    let size := b.n * recordSize f false
    if !sramIn b.src size then .fail .bounds s
    else match sramBad v b.src size with
      | some w => .fail (.sram w) s
      | none =>
        let rs := (readRecords v f b.src b.n).filter (filterTest f o.fop.toNat o.key b)
        let out := (dupMode f o.key o.dup.toNat (rs.map (fun r => (r, false)))).map (·.1)
        mergeOut u s id f pb b.dst (o.dup == 2) out out.length

def execMfilt (u : EngRef) (x : Upset) (k : CmdHdr) (o : MergeOps) (s : State) : Host.Outcome State Fault Refusal :=
  issueOp u x k (.mfilt o) (effMfilt u k o) s

/-! ### The merge-tree stage of a quarter (R125) -/

/-- A plot uses the stage only if it owns every enabled pavilion of the quarter (R30). -/
def stageOpen (s : State) (n q : Nat) : Bool :=
  (List.range 8).all (fun i => !s.enableMap.getLsbD (8 * q + i) || (plotAt s n).pavMask.getLsbD (8 * q + i))

/-- What the stage emits: its seats' streams merged in ascending seat order under R109, as MMERGE merges streams numbered so. No command
of chapter 05 starts it, so a program reaches its result by MMERGE. -/
def quarterStage (f : Nat) (byVal desc : Bool) (seats : List (List MRec)) : List MRec :=
  (mergeN f byVal desc (sumN (seats.map (·.length))) (seats.map (markStream f byVal desc))).map (·.1)

end Sys2Proof.Machine
end

