-- ==== Sys2Proof/Machine/Lattice.lean ====
section
/-! DEFINITION. The LATTICE engine (R87–R89, R115–R118, R149, R150): one output tile, block sums exact and rounded once a block. -/

namespace Sys2Proof.Machine

/-- The operand pairings of R116. -/
def pairOk (a b : Nat) : Bool := (a == fBF16 && b == fBF16) || (fmtLattice a && fmtLattice b && a != fBF16 && b != fBF16)

/-- k-block of R87. -/
def kBlock (a : Nat) : Nat := if a == fBF16 then 64 else 128

/-- Group size, kept values per group and bits of a position code (R117, R150). -/
def spGroup (sp : Nat) : Nat := match sp with | 0 => 1 | 3 => 8 | _ => 4
def spKept (sp : Nat) : Nat := match sp with | 1 => 2 | 3 => 4 | _ => 1
def spBits (sp : Nat) : Nat := if sp = 3 then 4 else 2

/-- Structured sparsity asks K to be a multiple of the group and an uncompressed block format for B (R150). -/
def spOk (sp bfmt k : Nat) : Bool :=
  sp == 0 || (k % spGroup sp == 0 && (bfmt == fBF16 || bfmt == fE4M3 || bfmt == fE5M2))

/-- Kept rows of B. -/
def keptRows (sp k : Nat) : Nat := k / spGroup sp * spKept sp

/-- Position code of kept row r, column j: packed low bits first, row-major (R150). -/
def posCode (sp n : Nat) (codes : List Byte) (r j : Nat) : Nat :=
  let i := r * n + j
  let per := 8 / spBits sp
  fieldN (codes.getD (i / per) 0).toNat (spBits sp * (i % per)) (spBits sp)

/-- Dense k index of a kept row (R117, R150). -/
def denseK (sp n : Nat) (codes : List Byte) (r j : Nat) : Nat :=
  if sp = 0 then r else r / spKept sp * spGroup sp + posCode sp n codes r j % spGroup sp

/-- A group of column j breaks the rules of R118: codes not strictly ascending, or bit 3 set. -/
def groupBad (sp n : Nat) (codes : List Byte) (g j : Nat) : Bool :=
  let cs := (List.range (spKept sp)).map (fun r => posCode sp n codes (g * spKept sp + r) j)
  !(cs.zip cs.tail).all (fun p => decide (p.1 < p.2)) || cs.any (fun c => decide (spGroup sp ≤ c))

/-- A running exact block sum: NaN, infinities met, or a dyadic value (R87, R89). -/
structure BlkSum where
  nan : Bool := false
  pos : Bool := false
  neg : Bool := false
  m : Int := 0
  e : Int := 0

def BlkSum.add (b : BlkSum) (p : Num) : BlkSum :=
  match p with
  | .nan => { b with nan := true }
  | .inf n => if n then { b with neg := true } else { b with pos := true }
  | .fin n m e => let (m, e) := dyAdd b.m b.e (Num.fin n m e).int.1 e; { b with m := m, e := e }

/-- acc ← round_fp32_rne(acc + S), a result exactly zero being +0 (R87, R89). -/
def latAccum (acc : Nat) (b : BlkSum) : Nat :=
  let b := b.add (dec32 acc)
  if b.nan || (b.pos && b.neg) then nanBits fFP32
  else if b.pos then 0x7F800000
  else if b.neg then 0xFF800000
  else rne fFP32 (resOfInt false b.m b.e)

/-- One output element: the products of one k-block at a time, in ascending k. `row k` is A(i, k) and `col` lists (k, B) pairs;
a k with no B takes a zero (R88). -/
def latElem (kb kk acc : Nat) (row : Nat → Num) (col : List (Nat × Num)) : Nat :=
  (List.range ((kk + kb - 1) / kb)).foldl (fun acc t =>
    let ks := (List.range (min kb (kk - t * kb))).map (t * kb + ·)
    let ps := ks.flatMap (fun k =>
      let bs := (col.filter (fun c => c.1 == k)).map (·.2)
      (if bs.isEmpty then [Num.fin false 0 0] else bs).map (fun b => numMul (row k) b))
    latAccum acc (ps.foldl BlkSum.add {})) acc

/-- The stationary operand loaded one k-block after the other, into the two 8 KiB buffers in turn (R115): `rows` are the kept rows of B,
`kb` of them a block. Each row lies at its own pitch from the start of the buffer, the rest of a short block being 0 (log entry
102). -/
def statLoads (kb pitch : Nat) (rows : List (List Byte)) (m : List Host.Cell) : List Host.Cell :=
  (List.range ((rows.length + kb - 1) / kb)).foldl (fun m t =>
    memWrites m (8192 * (t % 2)) (padTo 8192 (((rows.drop (t * kb)).take kb).flatMap (padTo pitch)))) m

/-- What an LMM writes nothing for: M or N of 0 (R149). -/
def lmmEmpty (b : LatBlk) : Bool := b.m == 0 || b.n == 0

/-- M, kept rows of B and bytes of position codes; an empty tile reads none. -/
def lmmRows (b : LatBlk) : Nat := if lmmEmpty b then 0 else b.m
def lmmKept (o : LmmOps) (b : LatBlk) : Nat := if lmmEmpty b then 0 else keptRows o.sp.toNat b.k
def lmmCodes (o : LmmOps) (b : LatBlk) : Nat := if o.sp = 0 then 0 else (lmmKept o b * b.n * spBits o.sp.toNat + 7) / 8

/-- The SRAM ranges an LMM reads, its parameter block apart (Table 5.15). -/
def lmmReads (o : LmmOps) (b : LatBlk) : List (Nat × Nat) :=
  let fa := o.afmt.toNat
  let fb := o.bfmt.toNat
  let m := lmmRows b
  let cb := (b.k + 31) / 32
  (List.range m).map (fun i => (b.aaddr + i * b.astr, fmtSize fa b.k)) ++
    (List.range (lmmKept o b)).map (fun r => (b.baddr + r * b.bstr, fmtSize fb b.n)) ++ [(b.pcaddr, lmmCodes o b)] ++
    (if fmtMx fa then [(b.ascale, m * cb)] else []) ++ (if fmtMx fb && !lmmEmpty b then [(b.bscale, b.n * cb)] else []) ++
    (if o.init then (List.range m).map (fun i => (b.caddr + i * b.dstr, 4 * b.n)) else [])

/-- The SRAM ranges it writes, the summary among them. -/
def lmmWrites (o : LmmOps) (b : LatBlk) : List (Nat × Nat) :=
  (b.suma, 64) :: (List.range (lmmRows b)).map (fun i => (b.daddr + i * b.dstr, (if o.ob then 2 else 4) * b.n))

/-- The field ranges of Table 5.15 and the rule of R150 on K. -/
def lmmBlkOk (o : LmmOps) (b : LatBlk) : Bool := decide (b.m ≤ 256) && decide (b.n ≤ 64) && spOk o.sp.toNat o.bfmt.toNat b.k

/-- LMM: D ← A × B (+ C), over the whole reduction extent (R115, R149). All operands are read before anything is written, so
an output or a summary over A or B changes no result, and malformed groups are numbered along each group row, group × N + column (DESIGN
CHOICE, log entries 16 and 105). -/
def effLmm (u : EngRef) (k : CmdHdr) (o : LmmOps) (iter : Nat) (s : State) : Eff :=
  let v := pavAt s u.pav
  let pb := advance k.laa o.pb.toNat 64 iter
  let fa := o.afmt.toNat
  let fb := o.bfmt.toNat
  let sp := o.sp.toNat
  if !pairOk fa fb then .fail .malformed s
  else if pb % 64 ≠ 0 ∨ sramIn pb 64 = false then .fail .bounds s
  else match sramBad v pb 64 with
    | some w => .fail (.sram w) s
    | none =>
      let b := latBlk (sramRead v pb 64)
      if lmmBlkOk o b = false then .fail .malformed s
      else
        let empty := lmmEmpty b
        let m := lmmRows b
        let kr := lmmKept o b
        let cb := (b.k + 31) / 32
        let ncode := lmmCodes o b
        let reads := lmmReads o b
        if !(reads ++ lmmWrites o b).all (fun r => sramIn r.1 r.2) then .fail .bounds s
        else match sramBads v reads with
          | some w => .fail (.sram w) s
          | none =>
            let codes := sramRead v b.pcaddr ncode
            let aAt (i kk : Nat) : Num := decodeElem fa (if fmtMx fa then (memRead v.sram (b.ascale + i * cb + kk / 32)).toNat else 0)
              (elemAt fa (sramRead v (b.aaddr + i * b.astr) (fmtSize fa b.k)) kk)
            let bAt (r j : Nat) : Num := decodeElem fb (if fmtMx fb then (memRead v.sram (b.bscale + j * cb + r / 32)).toNat else 0)
              (elemAt fb (sramRead v (b.baddr + r * b.bstr) (fmtSize fb b.n)) j)
            let cAt (i j : Nat) : Nat := if o.init then numAt (sramRead v (b.caddr + i * b.dstr + 4 * j) 4) 0 4 else 0
            let cells := (List.range m).flatMap (fun i => (List.range b.n).map (fun j => (i, j)))
            let colOf (j : Nat) : List (Nat × Num) := (List.range kr).map (fun r => (denseK sp b.n codes r j, bAt r j))
            let accs := cells.map (fun c => latElem (kBlock fa) b.k (cAt c.1 c.2) (aAt c.1) (colOf c.2))
            let elems := (cells.zip accs).map (fun p =>
              let ins := (List.range b.k).map (aAt p.1.1) ++ (colOf p.1.2).map (·.2) ++ [dec32 (cAt p.1.1 p.1.2)]
              let x := dec32 p.2
              (⟨x.toRes, if x.isNan then (if ins.any Num.isNan then .nanIn else .nanGen)
                else if x.isInf && ins.any Num.isInf then .infIn else .plain⟩ : Elem))
            let f := if o.ob then fBF16 else fFP32
            let gen := plotGen s u b.tid
            let ws := ((List.range elems.length).zip elems).map (fun p =>
              let w := writeElem f o.rm.toNat (if o.rm == 3 then gen (b.ebase + p.1) else 0) p.2.res
              if p.2.res == .inf false || p.2.res == .inf true then { w with ovf := true } else w)
            let bits := if o.ob then ws.map (·.bits) else accs
            let y0 : Summary := { tid := BitVec.ofNat 32 b.tid, step := plotStep s u, fmt := BitVec.ofNat 4 f }
            let y := (elems.zip ws).foldl (fun y p => countElem y p.1.origin p.2) y0
            let outRows := (List.range m).map (fun i => (b.daddr + i * b.dstr, packElems f ((bits.drop (i * b.n)).take b.n)))
            let groups := if sp = 0 || empty then [] else (List.range (b.k / spGroup sp)).flatMap (fun g => (List.range b.n).map (fun j => (g, j)))
            let bad := groups.filter (fun g => groupBad sp b.n codes g.1 g.2)
            let s' := match bad with
              | [] => s
              | g :: _ => emit s rkLatticePcode (srcPav u.pav) (engPlot s u) [(32, bad.length), (32, g.1 * b.n + g.2)]
            let v' := if empty then v else { v with
              latAcc := (cells.zip accs).foldl (fun t p => tblSet t (64 * p.1.1 + p.1.2) (BitVec.ofNat 32 p.2)) v.latAcc
              latStat := statLoads (kBlock fb) (if fb == fBF16 then 128 else 64)
                ((List.range kr).map (fun r => sramRead v (b.baddr + r * b.bstr) (fmtSize fb b.n))) v.latStat
              latFull := true }
            Eff.ofWrite u s' (sramWrites v' ((outRows ++ [(b.suma, summaryBytes y)]).filter (fun p => !p.2.isEmpty)))

def execLmm (u : EngRef) (x : Upset) (k : CmdHdr) (o : LmmOps) (s : State) : Host.Outcome State Fault Refusal :=
  issueOp u x k (.lmm o) (effLmm u k o) s

end Sys2Proof.Machine
end

