-- ==== Sys2Proof/Machine/Verify.lean ====
section
/-! DEFINITION. The verifier: checks 2 to 11 of Table 6.3 with the abstract run of R161. Each check answers the section and the index
of its first failure, sections in ascending index (R160). -/

namespace Sys2Proof.Machine

/-- Where a check fails: its section, if one is at fault, and INDEX. -/
structure VFail where
  sec : Option Sec
  index : Nat
deriving DecidableEq, Repr

/-- The plot settings that the verifier reads. -/
structure VCtx where
  plot : Nat
  pavs : List Nat
  ports : List Nat
  region : U64
  split : List Nat
  relay : Bool
deriving DecidableEq, Repr

/-- A command stream under verification. -/
structure VStream where
  sec : Sec
  words : List (BitVec 128)
  cmds : List EngCmd
  /-- Bounds of its CS loops: command index and BOUND. -/
  bounds : List (Nat × Nat)
deriving DecidableEq, Repr

/-! ### Check 5: well-formed commands and loops (R129, R138, R140) -/

/-- The command of a word under R129; the field ranges of chapter 05 are check 6's. -/
def wfCmd (eng : Nat) (w : BitVec 128) : Option EngCmd :=
  match decOp eng (fld w 120 8).toNat (fld w 0 64) with
  | none => none
  | some op =>
    let c : EngCmd := { hdr := decHdr (fld w 64 64), op := op }
    if encodeCmd eng c = w ∧ hdrOk c.hdr c.op = true ∧ unusedOk c.op = true then some c else none

/-- LOOPs that no ENDLOOP closes. -/
def openLoops : Nat → List Nat → List (BitVec 128) → List Nat
  | _, st, [] => st
  | i, st, w :: r =>
    if fld w 120 8 == (1 : BitVec 8) then openLoops (i + 1) (i :: st) r
    else if fld w 120 8 == (2 : BitVec 8) then openLoops (i + 1) st.tail r
    else openLoops (i + 1) st r

/-- The first command of a stream that breaks R129, R138 or R140. -/
def streamGo (eng : Nat) (bounds : List (Nat × Nat)) (unclosed : List Nat) : Nat → Nat → Bool → List (BitVec 128) → Option Nat
  | i, _, halt, [] => if halt then none else some i
  | i, depth, halt, w :: r =>
    match wfCmd eng w with
    | none => some i
    | some c =>
      match c.op with
      | .loop o =>
        if !opOk eng c.hdr c.op || decide (4 ≤ depth) || unclosed.contains i || (o.cs && !bounds.any (fun b => b.1 == i)) then some i
        else streamGo eng bounds unclosed (i + 1) (depth + 1) halt r
      | .endloop =>
        if !opOk eng c.hdr c.op || depth == 0 then some i else streamGo eng bounds unclosed (i + 1) (depth - 1) halt r
      | .halt => if depth != 0 then some i else streamGo eng bounds unclosed (i + 1) depth true r
      | _ => streamGo eng bounds unclosed (i + 1) depth halt r

def streamFail (v : VStream) : Option Nat := streamGo v.sec.eng v.bounds (openLoops 0 [] v.words) 0 0 false v.words

/-- A bound names a LOOP with CS 1 of its stream (R411). -/
def boundNames (v : VStream) (i : Nat) : Bool :=
  match v.words[i]? with
  | some w => match wfCmd v.sec.eng w with | some ⟨_, .loop o⟩ => o.cs | _ => false
  | none => false

/-- The bounds of a section of type 0x0A. -/
def boundsOf (c : Sec) : List (Nat × Nat) := ((countedBody c.body 8).getD []).map (fun e => (fieldN e 52 12, fieldN e 0 32))

/-- The streams of an image's sections. -/
def streamsOf (ss : List Sec) : List VStream :=
  (ofTyp ss 1).map (fun c =>
    let ws := cmdsOfBytes c.body
    { sec := c, words := ws, cmds := ws.filterMap (wfCmd c.eng)
      bounds := (ofTyp ss 10).flatMap (fun b => if b.unit = c.unit ∧ b.eng = c.eng then boundsOf b else []) })

/-- Check 5. -/
def check5 (ss : List Sec) (vs : List VStream) : Option VFail :=
  ss.findSome? (fun c =>
    if c.typ = 1 then (vs.find? (fun v => v.sec.idx == c.idx)).bind (fun v => (streamFail v).map (fun i => ⟨some c, i⟩))
    else if c.typ = 10 then
      match vs.find? (fun v => v.sec.unit == c.unit && v.sec.eng == c.eng) with
      | some v => ((boundsOf c).find? (fun b => !boundNames v b.1)).map (fun b => ⟨some c, b.1⟩)
      | none => (boundsOf c).head?.map (fun b => ⟨some c, b.1⟩)
    else none)

/-! ### Iterations of the innermost loop (R136, R411) -/

/-- Iterations of a LOOP: its immediate count, or the bound of a CS loop. -/
def loopCount (bounds : List (Nat × Nat)) (i : Nat) (o : LoopOps) : Nat :=
  if o.cs then ((bounds.find? (fun b => b.1 == i)).map (·.2)).getD 0 else o.count.toNat

/-- For each command, the iterations of its innermost loop: 0 where an enclosing loop has none, 1 outside any loop. -/
def innerIters (bounds : List (Nat × Nat)) : Nat → List Nat → List EngCmd → List Nat
  | _, _, [] => []
  | i, st, c :: r =>
    let here := if st.contains 0 then 0 else st.headD 1
    match c.op with
    | .loop o => here :: innerIters bounds (i + 1) (loopCount bounds i o :: st) r
    | .endloop => here :: innerIters bounds (i + 1) st.tail r
    | _ => here :: innerIters bounds (i + 1) st r

/-! ### Check 6: operand limits and pairings -/

/-- Formats, pairings and Table 5.11's ranges of a command by itself (R61, R66, R116, R142, R146, R147, R150). -/
def staticOk (c : EngCmd) : Bool :=
  match c.op with
  | .tld o => fmtValid o.fmt.toNat && o.fmt.toNat != fFP64 && strideOk o
  | .tst o => fmtValid o.fmt.toNat && strideOk o
  | .amode o => modeOk o && decide (o.slot.toNat + o.n.toNat ≤ 1024)
  | .aclr o => decide (o.slot.toNat + o.n.toNat ≤ 1024)
  | .addd o => fmtValid o.fmt.toNat && decide (o.n.toNat ≤ 1024) && !(o.sq && fmtInt o.fmt.toNat) &&
      !(fmtMx o.fmt.toNat && c.hdr.laa && o.n.toNat % 32 != 0)
  | .addi o => fmtKey o.fmt.toNat && !(o.sq && fmtInt o.fmt.toNat)
  | .adrain o => fmtValid o.ofmt.toNat && decide (o.n.toNat ≤ 1024)
  | .mmerge o => fmtKey o.vfmt.toNat
  | .msort o => fmtKey o.vfmt.toNat
  | .mtopk o => fmtKey o.vfmt.toNat
  | .mfilt o => fmtKey o.vfmt.toNat
  | .lmm o => pairOk o.afmt.toNat o.bfmt.toNat &&
      (o.sp == 0 || o.bfmt.toNat == fBF16 || o.bfmt.toNat == fE4M3 || o.bfmt.toNat == fE5M2)
  | _ => true

/-- What AMODEs of a stream have set so far: slot, (FMT, SQ, XA640w). -/
abbrev SlotModes := Tbl (Nat × Bool × Bool)

/-- Follow the slot modes along a stream (R105, R146); none where a command breaks them. -/
def slotStep (m : SlotModes) (c : EngCmd) : Option SlotModes :=
  match c.op with
  | .amode o =>
    let m' := (slotRange o.slot.toNat o.n.toNat).foldl (fun t j => tblSet t j (o.fmt.toNat, o.sq, o.mode)) m
    if 32 < (m'.filter (fun e => e.2.2.2)).length then none else some m'
  | .addd o =>
    if m.all (fun e => e.1 < o.slot.toNat || decide (o.slot.toNat + o.n.toNat ≤ e.1) || (e.2.1 == o.fmt.toNat && e.2.2.1 == o.sq)) then some m else none
  | .adrain o =>
    if fmtInt o.ofmt.toNat &&
        m.any (fun e => decide (o.slot.toNat ≤ e.1) && decide (e.1 < o.slot.toNat + o.n.toNat) && !fmtInt e.2.1) then none
    else some m
  | _ => some m

/-- A stream with every loop body walked twice: an AMODE sets the same slots in each iteration, so what a body meets in its second one
it meets in every later one. -/
def twice (bounds : List (Nat × Nat)) : Nat → List (Nat × List (Nat × EngCmd)) → List (Nat × EngCmd) → List EngCmd → List (Nat × EngCmd)
  | _, _, acc, [] => acc
  | i, st, acc, c :: r =>
    match c.op with
    | .loop o => twice bounds (i + 1) ((loopCount bounds i o, acc) :: st) [] r
    | .endloop =>
      match st with
      | [] => twice bounds (i + 1) [] acc r
      | (n, p) :: st => twice bounds (i + 1) st (p ++ (if n = 0 then [] else if n = 1 then acc else acc ++ acc)) r
    | _ => twice bounds (i + 1) st (acc ++ [(i, c)]) r

/-- The first command at which the slot modes break R105 or R146. -/
def slotGo : SlotModes → List (Nat × EngCmd) → Option Nat
  | _, [] => none
  | m, (i, c) :: r =>
    match slotStep m c with
    | none => some i
    | some m => slotGo m r

/-- What commands do to the contribution count of one slot: contributions before its first clear, the most between two clears, and those
after its last clear, if it is cleared (R64). -/
structure SlotUse where
  pre : Nat := 0
  peak : Nat := 0
  post : Option Nat := none

/-- One after the other. -/
def SlotUse.seq (a b : SlotUse) : SlotUse :=
  match a.post, b.post with
  | none, q => { pre := a.pre + b.pre, peak := b.peak, post := q }
  | some p, none => { a with post := some (p + b.pre) }
  | some p, some q => { pre := a.pre, peak := max a.peak (max b.peak (p + b.pre)), post := some q }

/-- `n` times over. -/
def SlotUse.times (n : Nat) (a : SlotUse) : SlotUse :=
  match a.post with
  | none => { pre := n * a.pre }
  | some p => if n = 0 then {} else if n = 1 then a else { a with peak := max a.peak (p + a.pre) }

/-- The largest count reached. -/
def SlotUse.most (a : SlotUse) : Nat := max a.pre (max a.peak (a.post.getD 0))

/-- A range of slots holds slot `j`. -/
def holdsSlot (slot : BitVec 10) (n : BitVec 11) (j : Nat) : Bool := decide (slot.toNat ≤ j) && decide (j < slot.toNat + n.toNat)

/-- What a command declares for slot `j`: a dense contribution, whose slot the stream fixes, if `counts`; or a clear. -/
def cmdUse (j : Nat) (counts : Bool) (c : EngCmd) : SlotUse :=
  match c.op with
  | .addd o => if counts && holdsSlot o.slot o.n j then { pre := 1 } else {}
  | .amode o => if holdsSlot o.slot o.n j then { post := some 0 } else {}
  | .aclr o => if holdsSlot o.slot o.n j then { post := some 0 } else {}
  | .adrain o => if holdsSlot o.slot o.n j then { post := some 0 } else {}
  | _ => {}

/-- The use of slot `j` by a stream, the contributions of its commands up to index `upto` counted, loops at their declared counts. -/
def useGo (bounds : List (Nat × Nat)) (j upto : Nat) : Nat → List (Nat × SlotUse) → SlotUse → List EngCmd → SlotUse
  | _, _, u, [] => u
  | i, st, u, c :: r =>
    match c.op with
    | .loop o => useGo bounds j upto (i + 1) ((loopCount bounds i o, u) :: st) {} r
    | .endloop =>
      match st with
      | [] => useGo bounds j upto (i + 1) [] u r
      | (n, p) :: st => useGo bounds j upto (i + 1) st (p.seq (u.times n)) r
    | _ => useGo bounds j upto (i + 1) st (u.seq (cmdUse j (decide (i ≤ upto)) c)) r

/-- The first command with which a slot is declared more than 2^32 contributions (R64). Records name their slots at run time and are
left to the hardware: log entry 106. -/
def limitFail (v : VStream) : Option Nat :=
  let tooMany (i : Nat) : Bool := (List.range 1024).any (fun j => decide (2 ^ 32 < (useGo v.bounds j i 0 [] {} v.cmds).most))
  if v.sec.eng != 1 || !v.cmds.any (fun c => match c.op with | .loop _ => true | _ => false) then none
  else if tooMany v.cmds.length then (List.range v.cmds.length).find? tooMany
  else none

/-- The first command of a stream that breaks check 6 by itself. -/
def operandFail (v : VStream) : Option Nat := v.cmds.findIdx? (fun c => !opOk v.sec.eng c.hdr c.op || !staticOk c)

/-- The first micro-operation of a program that breaks R103 or R144, alone or by the tiles it adds; none when the program keeps them. -/
def programFail (o : ExecOps) (p : List Uop) : Option Nat :=
  (List.range p.length).find? (fun k =>
    let q := p.take (k + 1)
    !(match p[k]? with | some u => uopOk o u | none => true) ||
    decide (8 < (distinct (q.flatMap (fun u => u.uses.filter (fun c => decide (c < 32))))).length) ||
    decide (4 < (distinct ((q.map (·.d)).filter (fun c => decide (c < 32)))).length))

/-- The failures of a stream's element programs: section and index. -/
def programFails (ss : List Sec) (v : VStream) : List (Sec × Nat) :=
  let store := (ofTyp ss 2).find? (fun c => c.unit == v.sec.unit)
  let ws := match store with | some c => (entriesAt c.body 0 4 (c.len / 4)).map (BitVec.ofNat 32) | none => []
  ((List.range v.cmds.length).zip v.cmds).filterMap (fun e =>
    match e.2.op with
    | .exec o =>
      if !(execSels o).all selOk then some (v.sec, e.1)
      else match programFail o (storeProgram ws o) with
        | some k => some (match store with | some c => (c, o.epa.toNat * 8 + k) | none => (v.sec, e.1))
        | none => none
    | _ => none)

/-- A word of an element program's section is a micro-operation, whatever program it is part of (R144). -/
def uopWordOk (w : BitVec 32) : Bool :=
  let b : BSel := { kind := 3, reg := 0, idx := 0 }
  uopOk { epa := 0, epl := 1, b0 := b, b1 := b, b2 := b, b3 := b } (uopOf w)

/-- The micro-operations of the image that break R144 by themselves, named by an EXEC or not. -/
def storeFails (ss : List Sec) : List (Sec × Nat) :=
  (ofTyp ss 2).filterMap (fun c => ((entriesAt c.body 0 4 (c.len / 4)).findIdx? (fun w => !uopWordOk (BitVec.ofNat 32 w))).map (fun i => (c, i)))

/-! ### Blocks in static data (log entry 106) -/

/-- The SRAM records of a pavilion's static data, the last written first. -/
def sramStatics (ss : List Sec) (rel : Nat) : List StaticRec :=
  ((((ofTyp ss 11).filter (fun c => c.unit == rel)).flatMap recsOf).filter (fun r => !r.hbm)).reverse

/-- Bytes of an address space where static data holds all of them (R412). -/
def staticRead (rs : List StaticRec) (off n : Nat) : Option (List Byte) :=
  (List.range n).foldr (fun i acc => match acc with
    | none => none
    | some bs =>
      (rs.find? (fun r => decide (r.addr ≤ off + i) && decide (off + i < r.addr + r.data.length))).map (fun r => r.data.getD (off + i - r.addr) 0 :: bs))
    (some [])

/-- Where a command's block lies at an iteration, and its length. -/
def blockAt (c : EngCmd) (it : Nat) : Option (Nat × Nat) :=
  let k := c.hdr
  match c.op with
  | .mmerge o => some (advance k.laa o.pb.toNat 64 it, 64)
  | .msort o => some (advance k.laa o.pb.toNat 64 it, 64)
  | .mtopk o => some (advance k.laa o.pb.toNat 64 it, 64)
  | .mfilt o => some (advance k.laa o.pb.toNat 64 it, 64)
  | .lmm o => some (advance k.laa o.pb.toNat 64 it, 64)
  | .mcopy mda => some (advance k.laa mda.toNat 32 it, 32)
  | .adrain o => some (advance k.lab (512 * o.dblk.toNat) 512 it, 32)
  | _ => none

/-- The blocks that a command reads over its iterations, as far as the static data gives them. -/
def staticBlocks (rs : List StaticRec) (c : EngCmd) (n : Nat) : List (List Byte) :=
  if rs.isEmpty then []
  else (List.range n).filterMap (fun it => (blockAt c it).bind (fun b => staticRead rs b.1 b.2))

/-- The first command of a stream one of whose blocks in static data fails a test. -/
def blockFail (ss : List Sec) (v : VStream) (ok : EngCmd → List Byte → Bool) : Option Nat :=
  let rs := sramStatics ss v.sec.unit
  if rs.isEmpty then none
  else (v.cmds.zip (innerIters v.bounds 0 [] v.cmds)).findIdx? (fun e => !(staticBlocks rs e.1 e.2).all (ok e.1))

/-- The sides of a MOVE descriptor. -/
def moveSides (b : MoveBlk) : List (AddrWord × Nat) := [(addrWord b.src, b.sstr), (addrWord b.dst, b.dstr)]

/-- The fields of a block keep the ranges of chapter 05's tables (R112, R113, R115, R150, R152). -/
def blockLimits (c : EngCmd) (bs : List Byte) : Bool :=
  let m := mergeBlk bs
  match c.op with
  | .mmerge _ => m.rsvd == 0 && decide (m.n ≤ 16)
  | .msort _ => m.rsvd == 0 && decide (m.n ≤ 4096)
  | .mtopk _ => m.rsvd == 0 && decide (m.n ≤ 4096) && decide (m.k ≤ 4096)
  | .mfilt _ => m.rsvd == 0
  | .lmm o => lmmBlkOk o (latBlk bs)
  | .adrain _ => (drainBlk bs).rsvd == 0
  | .mcopy _ =>
    let b := moveBlk bs
    let own (w : AddrWord) : Bool := match w with | .own _ => true | _ => false
    b.rsvd == 0 && decide (b.len ≤ 2 ^ 22) && (moveSides b).all (fun e => e.1 != .bad) && (moveSides b).any (fun e => own e.1) &&
      (match addrWord b.src with | .other _ _ => false | _ => true)
  | _ => true

/-- The addresses that a block gives lie in bounds, and those that must be aligned are (R97, R152); a pool buffer's index and offset fit
some pool declared. -/
def blockRanges (pools : List PoolDecl) (c : EngCmd) (bs : List Byte) : Bool :=
  let m := mergeBlk bs
  let recs (o : MergeOps) : Bool := sramIn m.src (m.n * recordSize o.vfmt.toNat false)
  match c.op with
  | .mmerge _ => sramIn m.src (8 * m.n)
  | .msort o => recs o
  | .mtopk o => recs o
  | .mfilt o => recs o
  | .lmm o => (lmmReads o (latBlk bs) ++ lmmWrites o (latBlk bs)).all (fun r => sramIn r.1 r.2)
  | .adrain o =>
    let b := drainBlk bs
    b.suma % 64 == 0 && sramIn b.suma 64 && (!fmtMx o.ofmt.toNat || sramIn b.sca ((o.n.toNat + 31) / 32))
  | .mcopy _ =>
    let b := moveBlk bs
    b.len == 0 || (moveSides b).all (fun e =>
      let fits (a top : Nat) : Bool := (List.range b.rows).all (fun i => decide (a + i * e.2 + b.len ≤ top))
      match e.1 with
      | .own a => fits a (2 ^ 22)
      | .other _ a => fits a (2 ^ 22)
      | .pool h off => b.rows == 0 || pools.any (fun p => decide (hIdx h < p.count) && fits off (2 ^ p.size))
      | _ => true)
  | _ => true

/-- The places of a MOVE descriptor lie in the plot: its region, its pavilions. -/
def blockOwned (x : VCtx) (npav : Nat) (c : EngCmd) (bs : List Byte) : Bool :=
  match c.op with
  | .mcopy _ =>
    let b := moveBlk bs
    b.len == 0 || (moveSides b).all (fun e => match e.1 with
      | .hbm o => (List.range b.rows).all (fun i => regIn x.region (o + i * e.2) b.len)
      | .other rel _ => b.rows == 0 || decide (rel < npav)
      | _ => true)
  | _ => true

/-- The least of the failures, by section and then index. -/
def leastFail (l : List (Sec × Nat)) : Option VFail :=
  match l with
  | [] => none
  | x :: xs =>
    let m := xs.foldl (fun a b => if b.1.idx < a.1.idx ∨ (b.1.idx = a.1.idx ∧ b.2 < a.2) then b else a) x
    some ⟨some m.1, m.2⟩

/-- Check 6. -/
def check6 (ss : List Sec) (vs : List VStream) : Option VFail :=
  leastFail (storeFails ss ++ vs.flatMap (fun v =>
    ([operandFail v, slotGo [] (twice v.bounds 0 [] [] v.cmds), limitFail v, blockFail ss v blockLimits].filterMap id).map (fun i => (v.sec, i)) ++
      programFails ss v))

/-! ### Check 7: statically known addresses, slots and lengths -/

/-- The statically known ranges of a command at an iteration lie in bounds and are aligned (R97, R106, R152). -/
def rangesOk (c : EngCmd) (it : Nat) : Bool :=
  let k := c.hdr
  let block (pb : Nat) : Bool := let a := advance k.laa pb 64 it; a % 64 == 0 && sramIn a 64
  match c.op with
  | .addd o =>
    let n := o.n.toNat
    let size := fmtSize o.fmt.toNat n
    decide (o.slot.toNat + n ≤ 1024) && sramIn (advance k.laa o.src.toNat size it) size &&
      (!fmtMx o.fmt.toNat || sramIn (advance k.laa (o.src.toNat + o.scoff.toNat) (n / 32) it) ((n + 31) / 32))
  | .addi o => let size := o.n.toNat * recordSize o.fmt.toNat false; sramIn (advance k.laa o.src.toNat size it) size
  | .acarry o => let size := o.n.toNat * 48; sramIn (advance k.laa o.src.toNat size it) size
  | .adrain o =>
    let size := fmtSize o.ofmt.toNat o.n.toNat
    decide (o.slot.toNat + o.n.toNat ≤ 1024) && sramIn (advance k.laa o.dst.toNat size it) size &&
      sramIn (advance k.lab (512 * o.dblk.toNat) 512 it) 32
  | .mmerge o => block o.pb.toNat
  | .msort o => block o.pb.toNat
  | .mtopk o => block o.pb.toNat
  | .mfilt o => block o.pb.toNat
  | .lmm o => block o.pb.toNat
  | .mcopy mda => let a := advance k.laa mda.toNat 32 it; a % 32 == 0 && sramIn a 32
  | _ => true

/-- Check 7: addresses rise with the iteration, so that the first and the last one decide. -/
def check7 (ss : List Sec) (vs : List VStream) : Option VFail :=
  let pools := (ofTyp ss 8).flatMap (fun c => (entriesAt c.body 0 16 (c.len / 16)).map poolDecl)
  ss.findSome? (fun c =>
    if c.typ = 1 then
      (vs.find? (fun v => v.sec.idx == c.idx)).bind (fun v =>
        (leastOf ((v.cmds.zip (innerIters v.bounds 0 [] v.cmds)).findIdx? (fun e =>
          e.2 != 0 && !(rangesOk e.1 0 && rangesOk e.1 (e.2 - 1)))) (blockFail ss v (blockRanges pools))).map (fun i => ⟨some c, i⟩))
    else if c.typ = 11 then
      ((recsOf c).findIdx? (fun r => !r.hbm && decide (2 ^ 22 < r.addr + r.data.length))).map (fun i => ⟨some c, i⟩)
    else none)

/-! ### Descriptors of an image, and its static HBM data -/

/-- A descriptor of an image: its section, port die, index on that die (R200). -/
structure VDesc where
  sec : Sec
  die : Nat
  idx : Nat
  d : Desc
deriving DecidableEq, Repr

def vdescsGo (x : VCtx) : Tbl Nat → List Sec → List VDesc
  | _, [] => []
  | cnt, c :: r =>
    match dieOfRel x.ports c.unit with
    | none => vdescsGo x cnt r
    | some die =>
      let ds := (descSec c.unit c.body).descs
      let b := tblGet 0 cnt die
      ((List.range ds.length).zip ds).map (fun e =>
        { sec := c, die := die, idx := b + e.1, d := { plot := x.plot, rel := b + e.1, img := e.2 } }) ++
        vdescsGo x (tblSet cnt die (b + ds.length)) r

def vdescs (x : VCtx) (ss : List Sec) : List VDesc := vdescsGo x [] (ofTyp ss 6)

/-- The initial values of the trigger counters declared on a die. -/
def trigInits (x : VCtx) (ss : List Sec) (die : Nat) : List (BitVec 16) :=
  (ofTyp ss 6).flatMap (fun c => if dieOfRel x.ports c.unit = some die then (descSec c.unit c.body).inits else [])

/-- The HBM records of an image's static data, the last written first. -/
def hbmStatics (ss : List Sec) : List StaticRec := (((ofTyp ss 11).flatMap recsOf).filter (·.hbm)).reverse

/-- A table of `n` entries of `size` bytes in the static data. -/
def staticTable (rs : List StaticRec) (off size n : Nat) : Option (List Nat) := (staticRead rs off (size * n)).map (fun bs => (pieces size bs).map leNat)

def staticX (rs : List StaticRec) (d : Desc) : Option Nat := (staticRead rs (dXblk d) 64).map leNat

/-- What of a descriptor's tables the static data holds. -/
def staticTabs (rs : List StaticRec) (d : Desc) : DescTabs :=
  let x := staticX rs d
  { x := x
    members := staticTable rs (dMtab d) 8 (dNmem d)
    homes := match x with | some v => (if usesHomes d then staticTable rs (dHmap d) 16 (homeCount d v) else none) | none => none
    experts := match x with
      | some v => if dDop d = 5 then (staticTable rs (xEtab v) 4 (xNexp v)).map (fun l => l.map (· % 2 ^ 18)) else none
      | none => none }

/-! ### Check 8: inside the plot -/

def check8 (x : VCtx) (npav : Nat) (ss : List Sec) (vs : List VStream) : Option VFail :=
  let ds := vdescs x ss
  let rs := hbmStatics ss
  let dies := x.ports.map (· / 4)
  ss.findSome? (fun c =>
    let at_ (o : Option Nat) : Option VFail := o.map (fun i => ⟨some c, i⟩)
    match c.typ with
    | 1 => (vs.find? (fun v => v.sec.idx == c.idx)).bind (fun v => at_ (leastOf (v.cmds.findIdx? (fun m => match m.op with
        | .msig o => if o.kind == 0 then decide (npav ≤ o.pav.toNat) else !dies.contains o.die.toNat
        | _ => false)) (blockFail ss v (blockOwned x npav))))
    | 6 => at_ ((ds.find? (fun e => e.sec.idx == c.idx &&
        !(descExtents e.d (staticX rs e.d)).all (fun r => regIn x.region r.1 r.2))).map (·.idx))
    | 9 => at_ (((countedBody c.body 16).getD []).findIdx? (fun e => !regIn x.region (fieldN e 90 38) (fieldN e 52 38)))
    | 11 => at_ ((recsOf c).findIdx? (fun r => r.hbm && !regIn x.region r.addr r.data.length))
    | _ => none)

/-! ### A stream expanded command by command (R138, R161) -/

/-- A cursor over a stream: next command and open loops (first command of the body, iterations, present one, CS). -/
structure Cur where
  pc : Nat := 0
  loops : List (Nat × Nat × Nat × Bool) := []
  ended : Bool := false
deriving DecidableEq, Repr

/-- The index after the ENDLOOP that closes the loop whose body starts at the head of the list. -/
def afterLoop : Nat → Nat → List EngCmd → Nat
  | i, _, [] => i
  | i, depth, c :: r =>
    match c.op with
    | .loop _ => afterLoop (i + 1) (depth + 1) r
    | .endloop => if depth = 0 then i + 1 else afterLoop (i + 1) (depth - 1) r
    | _ => afterLoop (i + 1) depth r

/-- More steps than any expanded stream takes. -/
def runFuel : Nat := 2 ^ 256

/-- Move past LOOP and ENDLOOP to the next command, if there is one. -/
def seek (v : VStream) : Nat → Cur → Cur
  | 0, c => { c with ended := true }
  | fuel + 1, c =>
    if c.ended then c
    else match v.cmds[c.pc]? with
      | none => { c with ended := true }
      | some m => match m.op with
        | .loop o =>
          let n := loopCount v.bounds c.pc o
          if n = 0 then seek v fuel { c with pc := afterLoop (c.pc + 1) 0 (v.cmds.drop (c.pc + 1)) }
          else seek v fuel { c with pc := c.pc + 1, loops := (c.pc + 1, n, 0, o.cs) :: c.loops }
        | .endloop => match c.loops with
          | [] => { c with ended := true }
          | (st, n, i, cs) :: r =>
            if i + 1 < n then seek v fuel { c with pc := st, loops := (st, n, i + 1, cs) :: r }
            else seek v fuel { c with pc := c.pc + 1, loops := r }
        | _ => c

/-- The command a cursor stands at. -/
def curHead (v : VStream) (c : Cur) : Option EngCmd := if c.ended then none else v.cmds[c.pc]?

/-- Step past a command; HALT ends the unit. -/
def curNext (c : Cur) (m : EngCmd) : Cur := { c with pc := c.pc + 1, ended := m.op == .halt }

/-! ### Check 9: counters and the abstract run (R161) -/

/-- The key of a counter in the run: a pavilion's, or a die's trigger counter. -/
def pavKey (rel c : Nat) : Nat := rel * 64 + c
def dieKey (die c : Nat) : Nat := 2 ^ 20 + die * 1024 + c

/-- A unit of the run: a stream with its cursor, or a descriptor that may still fire. -/
inductive AUnit where
  | stream (v : VStream) (c : Cur)
  | desc (e : VDesc) (spent : Bool)
deriving DecidableEq, Repr

/-- What the head of a unit waits for and does: INDEX, wait (counter, threshold, WDEC), signals. -/
structure AHead where
  index : Nat
  wait : Option (Nat × Nat × Bool)
  sigs : List (Nat × Nat)
deriving DecidableEq, Repr

def auHead : AUnit → Option AHead
  | .stream v c => (curHead v c).map (fun m =>
      let rel := v.sec.unit
      { index := c.pc
        wait := match m.op with
          | .frame _ => none
          | _ => if m.hdr.w then some (pavKey rel m.hdr.wctr.toNat, m.hdr.wthr.toNat, m.hdr.wdec) else none
        sigs := (if m.hdr.s then [(pavKey rel m.hdr.sctr.toNat, m.hdr.sinc.toNat)] else []) ++
          (match m.op with
            | .msig o => [(if o.kind == 0 then pavKey o.pav.toNat o.ctr.toNat else dieKey o.die.toNat o.ctr.toNat, o.inc.toNat)]
            | _ => []) })
  | .desc e spent =>
    if spent then none
    else some {
      index := e.idx, wait := some (dieKey e.die (dTctr e.d), dTthr e.d, dTdec e.d)
      sigs := (if dCe e.d then [(dieKey e.die (dCctr e.d), dCinc e.d)] else []) ++
        (if dPe e.d then [(pavKey (dPpav e.d) (dPctr e.d), dPinc e.d)] else []) }

def auNext : AUnit → AUnit
  | .stream v c => match curHead v c with
    | some m => .stream v (seek v runFuel (curNext c m))
    | none => .stream v c
  | .desc e _ => .desc e (!dTdec e.d || dTthr e.d == 0)

def auSec : AUnit → Sec
  | .stream v _ => v.sec
  | .desc e _ => e.sec

/-- Add signals; none where a counter would exceed 0xFFFF. -/
def addSigs : Tbl Nat → List (Nat × Nat) → Option (Tbl Nat)
  | c, [] => some c
  | c, (k, n) :: r => if 0xFFFF < tblGet 0 c k + n then none else addSigs (tblSet c k (tblGet 0 c k + n)) r

/-- A unit goes on while it has a head whose wait holds: counters, unit, whether it moved, and the head that saturated a counter. -/
def runUnit : Nat → Tbl Nat → AUnit → Bool → Tbl Nat × AUnit × Bool × Option Nat
  | 0, c, u, m => (c, u, m, none)
  | fuel + 1, c, u, m =>
    match auHead u with
    | none => (c, u, m, none)
    | some h =>
      let go (c : Tbl Nat) : Tbl Nat × AUnit × Bool × Option Nat :=
        match addSigs c h.sigs with
        | none => (c, u, m, some h.index)
        | some c' => runUnit fuel c' (auNext u) true
      match h.wait with
      | none => go c
      | some (k, thr, dec) =>
        if tblGet 0 c k < thr then (c, u, m, none)
        else go (if dec then tblSet c k (tblGet 0 c k - thr) else c)

/-- One pass over the units. -/
def runPass : Tbl Nat → List AUnit → Tbl Nat × List AUnit × Bool × Option VFail
  | c, [] => (c, [], false, none)
  | c, u :: r =>
    match runUnit runFuel c u false with
    | (c, u', _, some i) => (c, u' :: r, true, some ⟨some (auSec u'), i⟩)
    | (c, u', m, none) =>
      let (c, r', m', e) := runPass c r
      (c, u' :: r', m || m', e)

/-- The run to its end: its failure, or the units left. -/
def runAll : Nat → Tbl Nat → List (Nat × Nat) → List AUnit → Except VFail (List AUnit)
  | 0, _, _, us => .ok us
  | fuel + 1, c, pend, us =>
    match runPass c us with
    | (_, _, _, some e) => .error e
    | (c, us, true, none) => runAll fuel c pend us
    | (c, us, false, none) =>
      if pend.isEmpty then .ok us else runAll fuel (pend.foldl (fun c p => tblSet c p.1 (tblGet 0 c p.1 + p.2)) c) [] us

/-- The counter declarations of a section of type 0x04. -/
def declsOf (c : Sec) : List CtrDecl := ((countedBody c.body 8).getD []).map ctrDecl

/-- A pavilion declares a counter in use. -/
def declared (ss : List Sec) (rel ctr : Nat) : Bool := (ofTyp ss 4).any (fun c => c.unit == rel && (declsOf c).any (fun e => e.ctr == ctr))

/-- Every counter that a command uses is declared (R411). -/
def ctrsDeclared (x : VCtx) (ss : List Sec) (v : VStream) (m : EngCmd) : Bool :=
  (!m.hdr.w || declared ss v.sec.unit m.hdr.wctr.toNat) && (!m.hdr.s || declared ss v.sec.unit m.hdr.sctr.toNat) &&
  (match m.op with
    | .msig o => if o.kind == 0 then declared ss o.pav.toNat o.ctr.toNat else decide (o.ctr.toNat < (trigInits x ss o.die.toNat).length)
    | _ => true)

/-- The units of the run in its order: streams by pavilion and ENG, then descriptors by port and index. The manual numbers pavilions
and ports apart and does not say whether streams and descriptors interleave; all streams come first (DESIGN CHOICE, log entry
107). -/
def runUnits (x : VCtx) (ss : List Sec) (vs : List VStream) : List AUnit :=
  (sortBy (fun a b => decide (a.sec.unit * 16 + a.sec.eng ≤ b.sec.unit * 16 + b.sec.eng)) vs).map (fun v => .stream v (seek v runFuel {})) ++
    (sortBy (fun a b => decide (a.sec.unit * 1024 + a.idx ≤ b.sec.unit * 1024 + b.idx)) (vdescs x ss)).map (fun e => .desc e false)

/-- The declared initial values, and the signals expected from outside. -/
def runStart (x : VCtx) (ss : List Sec) : Tbl Nat :=
  let pav := (ofTyp ss 4).flatMap (fun c => (declsOf c).map (fun e => (pavKey c.unit e.ctr, e.init.toNat)))
  let die := (List.range 16).flatMap (fun j => let is_ := trigInits x ss j; ((List.range is_.length).zip is_).map (fun e => (dieKey j e.1, e.2.toNat)))
  (pav ++ die).foldl (fun c e => tblSet c e.1 e.2) []
def runPending (ss : List Sec) : List (Nat × Nat) :=
  (ofTyp ss 4).flatMap (fun c => (declsOf c).filterMap (fun e => if e.outside = 0 then none else some (pavKey c.unit e.ctr, e.outside)))

/-- Check 9. -/
def check9 (x : VCtx) (ss : List Sec) (vs : List VStream) : Option VFail :=
  match vs.findSome? (fun v => (v.cmds.findIdx? (fun m => !ctrsDeclared x ss v m)).map (fun i => (⟨some v.sec, i⟩ : VFail))) with
  | some e => some e
  | none =>
    match runAll runFuel (runStart x ss) (runPending ss) (runUnits x ss vs) with
    | .error e => some e
    | .ok us => us.findSome? (fun u => match u with
      | .stream v c => (curHead v c).map (fun _ => (⟨some v.sec, c.pc⟩ : VFail))
      | .desc _ _ => none)

/-! ### Check 10: descriptors and reservations (R201, R239, R319) -/

def descRuleOk (x : VCtx) (npav : Nat) (ss : List Sec) (rs : List StaticRec) (pools : List PoolDecl) (rsvids : List Nat) (e : VDesc) : Bool :=
  let d := e.d
  let nt := (trigInits x ss e.die).length
  let poolHere := match pools[dPool d]? with
    | some p => p.count != 0 && p.loc == 1 && dieOfRel x.ports p.unit == some e.die
    | none => false
  field d.img 0 59 == 0 && field d.img 486 2 != 3 && pairingOk d && formatsOk d && decide (dNmem d ≤ 131072) &&
  tabsOk d (staticTabs rs d) npav x.ports.length (regBytes x.region) &&
  decide (dTctr d < nt) && (!dCe d || (decide (dCctr d < nt) && dCinc d != 0)) &&
  (!(dDeliv d == 0 || dDeliv d == 1 || dDop d == 10) || decide (dRctr d + npav ≤ nt)) &&
  (!dPe d || (decide (dPpav d < npav) && declared ss (dPpav d) (dPctr d) && dPinc d != 0)) &&
  (!(dDeliv d == 1 || dDop d == 5 || (x.relay && dDop d != 0)) || poolHere) &&
  (dRsvid d == 0xFFFF || rsvids.contains (dRsvid d))

/-- An egress entry seen: link, first frame, end, entry. -/
abbrev Egress := Nat × Nat × RsvEntry

/-- Two egress entries of equal (VC, TAG) clash (R319). -/
def rsvClash (a b : Nat × RsvEntry) : Bool :=
  a.2.vc == b.2.vc && a.2.tag == b.2.tag && decide (a.2.f0 < b.2.f0 + b.2.nf) && decide (b.2.f0 < a.2.f0 + a.2.nf) &&
    (a.1 != b.1 || (a.2.pin && b.2.pin))

/-- A reservation entry by itself (R319, Table 13.2). -/
def rsvOk (nframe : Nat) (split : Bool) (w : Nat) : Bool :=
  let e := rsvEntry w
  fieldN w 0 42 == 0 && (e.vc == 2 || e.vc == 3 || e.vc == 4 || e.vc == 5 || e.vc == 7) && !(e.pin && e.ingress) &&
  decide (e.flits ≤ (if e.half then 6400 else 12800)) && (!e.half || split) && decide (1 ≤ e.nf) && decide (e.nf ≤ 65536) &&
  decide (e.f0 + e.nf ≤ nframe)

/-- The entries of a section in order: the first that breaks R319, or the egress entries seen. -/
def rsvGo (nframe port : Nat) (split : Bool) : Nat → List (Nat × RsvEntry) → List Nat → Except Nat (List (Nat × RsvEntry))
  | _, seen, [] => .ok seen
  | i, seen, w :: r =>
    let e := rsvEntry w
    let me := (2 * port + bit e.half, e)
    if !rsvOk nframe split w || (!e.ingress && seen.any (rsvClash me)) then .error i
    else rsvGo nframe port split (i + 1) (if e.ingress then seen else seen ++ [me]) r

/-- Check 10 over the sections in order; TAGs seen on each die, and egress entries seen. -/
def check10Go (x : VCtx) (npav nframe : Nat) (ss : List Sec) (ds : List VDesc) (rs : List StaticRec) (pools : List PoolDecl) (rsvids : List Nat) :
    List (Nat × RsvEntry) → List Sec → Option VFail
  | _, [] => none
  | seen, c :: r =>
    if c.typ = 6 then
      match ds.find? (fun e => e.sec.idx == c.idx && (!descRuleOk x npav ss rs pools rsvids e ||
          ds.any (fun o => o.die == e.die && decide (o.idx < e.idx) && dTag o.d == dTag e.d))) with
      | some e => some ⟨some c, e.idx⟩
      | none => check10Go x npav nframe ss ds rs pools rsvids seen r
    else if c.typ = 7 then
      match x.ports[c.unit]? with
      | none => check10Go x npav nframe ss ds rs pools rsvids seen r
      | some port => match rsvGo nframe port (x.split.contains port) 0 seen ((countedBody c.body 16).getD []) with
        | .error i => some ⟨some c, i⟩
        | .ok seen => check10Go x npav nframe ss ds rs pools rsvids seen r
    else check10Go x npav nframe ss ds rs pools rsvids seen r

def check10 (x : VCtx) (npav nframe : Nat) (ss : List Sec) : Option VFail :=
  check10Go x npav nframe ss (vdescs x ss) (hbmStatics ss)
    ((ofTyp ss 8).flatMap (fun c => (entriesAt c.body 0 16 (c.len / 16)).map poolDecl))
    ((ofTyp ss 7).flatMap (fun c => ((countedBody c.body 16).getD []).map (fun w => fieldN w 112 16))) [] ss

/-! ### Check 11: declared busy cycles -/

/-- Elements per cycle of a micro-operation (Tables 4.7, 5.7). -/
def uopRate (op : Nat) : Nat :=
  match op with
  | 0x06 | 0x07 => 64
  | 0x0C | 0x0D | 0x0E => 128
  | _ => 512

def ceilDiv (a b : Nat) : Nat := (a + b - 1) / b

/-- Issue cycles of a command as far as the stream fixes them, `wide` being the XA640w slots, never less than 1 (R133; Tables 5.4, 5.10, 5.13, 5.16). -/
def issueCycles (store : List (BitVec 32)) (wide : List Nat) (vl : Nat) (c : EngCmd) : Nat :=
  max 1 (match c.op with
    | .tld o => ceilDiv (dataBytes o.fmt.toNat vl) 256
    | .tst o => ceilDiv (dataBytes o.fmt.toNat vl) 256
    | .exec o => sumN ((storeProgram store o).map (fun q => ceilDiv vl (uopRate q.op)))
    | .amode o => ceilDiv o.n.toNat 64
    | .aclr o => ceilDiv o.n.toNat 64
    | .addd o => ceilDiv o.n.toNat (if o.fmt.toNat == fFP64 then 32 else 64)
    | .addi o => ceilDiv o.n.toNat (if o.fmt.toNat == fFP64 then 32 else 64)
    | .acarry o => ceilDiv o.n.toNat 4
    | .adrain o => ceilDiv o.n.toNat (if o.mean || (List.range 1024).any (fun j => wide.contains j && holdsSlot o.slot o.n j) then 4 else 16)
    | _ => 1)

/-- Progress of check 11 along a stream: program frame, cycles so far, VL (0 where a scalar sets it), whether the frame has
commands inside a CS loop, and the XA640w slots. -/
structure Busy where
  pf : Nat := 0
  tot : Nat := 0
  vl : Nat := 512
  cs : Bool := false
  wide : List Nat := []
deriving DecidableEq, Repr

/-- The first frame whose declared figure lies below the cycles computable from the stream (R160, R165). -/
def busyGo (index : Nat → Nat) (declared : Nat → Nat) (store : List (BitVec 32)) (v : VStream) : Nat → Cur → Busy → Option Nat
  | 0, _, _ => none
  | fuel + 1, c, b =>
    let low (b : Busy) : Option Nat := if !b.cs && decide (declared (index b.pf) < b.tot) then some (index b.pf) else none
    match curHead v c with
    | none => low b
    | some m =>
      let incs := c.loops.any (fun l => l.2.2.2)
      let b : Busy := { b with tot := b.tot + issueCycles store b.wide b.vl m, cs := b.cs || incs }
      let next := seek v runFuel (curNext c m)
      match m.op with
      | .setvl n => busyGo index declared store v fuel next { b with vl := n.toNat }
      | .amode o =>
        let others := b.wide.filter (fun j => !holdsSlot o.slot o.n j)
        busyGo index declared store v fuel next { b with wide := if o.mode then others ++ slotRange o.slot.toNat o.n.toNat else others }
      | .setvls _ => busyGo index declared store v fuel next { b with vl := 0 }
      | .halt => low b
      | .frame nf =>
        (low b).or (if incs then none else busyGo index declared store v fuel next { pf := b.pf + nf.toNat, vl := b.vl, wide := b.wide })
      | _ => busyGo index declared store v fuel next b

/-- Check 11. -/
def check11 (nframe pcyc : Nat) (ss : List Sec) (vs : List VStream) : Option VFail :=
  let frames := (ofTyp ss 5).flatMap (framesOf nframe)
  let index (f : Nat) : Nat := if f < nframe then f else nframe - pcyc + (f - nframe) % pcyc
  vs.findSome? (fun v =>
    let store := match (ofTyp ss 2).find? (fun c => c.unit == v.sec.unit) with
      | some c => (entriesAt c.body 0 4 (c.len / 4)).map (BitVec.ofNat 32)
      | none => []
    let declared (f : Nat) : Nat := sumN (((frames.getD f []).filter (fun i => i.res == 1 && i.unit == v.sec.unit && i.sub == v.sec.eng)).map (·.value))
    (busyGo index declared store v runFuel (seek v runFuel {}) {}).map (fun i => ⟨some v.sec, i⟩))

/-! ### The load result (Table 6.4) -/

/-- The outcome of verification: a check that fails, with its status. -/
structure VRes where
  check : Nat
  fail : VFail
  status : U16
deriving DecidableEq, Repr

def resultWord (r : VRes) : U64 :=
  let c := r.fail.sec.getD default
  BitVec.ofNat 64 (r.check * 2 ^ 60 + c.idx % 1024 * 2 ^ 50 + c.unit * 2 ^ 42 + c.eng * 2 ^ 38 + r.fail.index % 2 ^ 20 * 2 ^ 18 + r.status.toNat)

/-- The plot settings at hand. -/
def vctx (s : State) (n : Nat) : VCtx :=
  { plot := n, pavs := pavsOfPlot s n, ports := portsOfPlot s n, region := (plotAt s n).region
    split := (List.range 64).filter (splitPort s), relay := s.coll.relay.getLsbD n }

/-- Checks 5 to 11. -/
def verifyBody (s : State) (n h : Nat) (ss : List Sec) : Option VRes :=
  let x := vctx s n
  let vs := streamsOf ss
  let fail (k : Nat) (o : Option VFail) : Option VRes := o.map (fun f => ⟨k, f, stVerifyFail⟩)
  (fail 5 (check5 ss vs)).or <| (fail 6 (check6 ss vs)).or <| (fail 7 (check7 ss vs)).or <| (fail 8 (check8 x (ihNpav h) ss vs)).or <|
    (fail 9 (check9 x ss vs)).or <| (fail 10 (check10 x (ihNpav h) (ihNframe h) ss)).or <|
    fail 11 (check11 (ihNframe h) (ihPcyc h) ss vs)

/-- Checks 1 to 4. -/
def verifyFrame (s : State) (n : Nat) (bs : List Byte) : Option VRes :=
  let h := imgHead bs
  if !imgSound bs then some ⟨1, ⟨none, 0⟩, stImageCorrupt⟩
  else if ihPeriod h ≠ s.sd.period.toNat then some ⟨2, ⟨none, 0⟩, stLoadPeriod⟩
  else match check3 h (portsOfPlot s n) [] (imgSecs bs) with
    | some f => some ⟨3, ⟨f.1, f.2⟩, stVerifyFail⟩
    | none =>
      if (pavsOfPlot s n).length < ihNpav h ∨ (portsOfPlot s n).length < ihNport h then some ⟨4, ⟨none, 0⟩, stLoadShortMask⟩
      else none

end Sys2Proof.Machine
end

