-- ==== Sys2Proof/Machine/Admit.lean ====
section
/-! DEFINITION. Admission: checks 12 and 13 of Table 6.3 (R23, R40, R48, R99, R162, R187, R277, R321). -/

namespace Sys2Proof.Machine

/-! ### What an image uses -/

/-- A budgeted resource, bound to the unit of the module that carries it. Trellis elements have a direction, `true` into the hub plane
or towards the higher-numbered hub (Table 1.2). -/
inductive BudgetRes where
  | engine (pav eng : Nat)
  | dovecote (die : Nat)
  | combiner (die : Nat)
  | energy
  | sram (pav eng way : Nat)
  | stack (k : Nat)
  | portLink (die : Nat) (into : Bool)
  | coreLink (core : Nat) (into : Bool)
  | quarter (q : Nat) (into : Bool)
  | entry (hub : Nat)
  | exit (hub : Nat)
  | mesh (a b : Nat)
  | slots (link : Nat) (ingress : Bool)
  | descs (die : Nat)
  | trigs (die : Nat)
  | pools
  | diePool (die : Nat)
deriving DecidableEq, Repr

abbrev Uses := List (BudgetRes × Nat)

/-- Everything used of a resource. -/
def usedOf (u : Uses) (r : BudgetRes) : Nat := sumN ((u.filter (fun e => e.1 == r)).map (·.2))

/-- An end of a FLOW: its hub, its core die, and the elements between it and the hub plane (R14, Table 6.10). -/
def flowEnd (s : State) (n unit sub : Nat) (into : Bool) : Option (Nat × Option Nat × List BudgetRes) :=
  match sub with
  | 0 => (pavOfRel s n unit).map (fun i => (i / 64, some (i / 32), [BudgetRes.quarter (i / 8) into, BudgetRes.coreLink (i / 32) into]))
  | 1 => (portsOfPlot s n)[unit]?.map (fun p => (p / 16, none, [BudgetRes.portLink (p / 4) into]))
  | 2 => (regStacks (plotAt s n).region)[unit]?.map (fun k => (k / 2, some k, [BudgetRes.coreLink k into]))
  | _ => none

/-- The hubs from one to another, X first and Y second (R15). -/
def hubPath (a b : Nat) : List Nat := (([a, a / 2 * 2 + b % 2, b] : List Nat)).eraseDups

/-- The mesh links of a path. -/
def meshOf : List Nat → List BudgetRes
  | a :: b :: r => BudgetRes.mesh a b :: meshOf (b :: r)
  | _ => []

/-- The Trellis elements that a FLOW item crosses, or none when an end lies outside the plot (R22, R24, R411). -/
def flowOf (s : State) (n : Nat) (i : BudgetItem) : Option (List BudgetRes) :=
  match flowEnd s n i.unit i.sub true, flowEnd s n i.unit2 i.sub2 false with
  | some a, some b =>
    if ((i.sub = 0 ∧ i.sub2 = 2) ∨ (i.sub = 2 ∧ i.sub2 = 0)) ∧ a.2.1 = b.2.1 then some []
    else some (a.2.2 ++ [BudgetRes.entry a.1] ++ meshOf (hubPath a.1 b.1) ++ [BudgetRes.exit b.1] ++ b.2.2)
  | _, _ => none

/-- The resources of a budget item, or none when its unit lies outside the plot. -/
def itemRes (s : State) (n : Nat) (i : BudgetItem) : Option (List BudgetRes) :=
  let die (f : Nat → BudgetRes) : Option (List BudgetRes) := (portsOfPlot s n)[i.unit]?.map (fun p => [f (p / 4)])
  match i.res with
  | 1 => (pavOfRel s n i.unit).map (fun p => [BudgetRes.engine p i.sub])
  | 2 => die BudgetRes.dovecote
  | 3 => die BudgetRes.combiner
  | 4 => some [BudgetRes.energy]
  | 5 => (pavOfRel s n i.unit).map (fun p => [BudgetRes.sram p i.sub i.sub2])
  | 6 => (regStacks (plotAt s n).region)[i.unit]?.map (fun k => [BudgetRes.stack k])
  | 7 => flowOf s n i
  | _ => none

/-- The multicast transfers of a frame: source and group (R411). -/
def groupsOf (is : List BudgetItem) : List (Nat × Nat × Nat) :=
  ((is.filter (fun i => i.res == 7 && i.mgrp != 0)).map (fun i => (i.unit, i.sub, i.mgrp))).eraseDups

/-- The uses of one frame record. A multicast transfer counts once on each element any of its items crosses (R22, R411). -/
def frameUses (s : State) (n : Nat) (is : List BudgetItem) : Uses :=
  let single := is.filter (fun i => !(i.res == 7 && i.mgrp != 0))
  single.flatMap (fun i => ((itemRes s n i).getD []).map (fun r => (r, i.value))) ++
  (groupsOf is).flatMap (fun g =>
    let mine := is.filter (fun i => i.res == 7 && i.mgrp == g.2.2 && i.unit == g.1 && i.sub == g.2.1)
    let v := (mine.map (·.value)).foldl max 0
    ((mine.flatMap (fun i => (itemRes s n i).getD [])).eraseDups).map (fun r => (r, v)))

/-- The flits an image reserves in budget entry `f`, by link and direction (R319). -/
def slotUses (s : State) (n : Nat) (img : Image) (f : Nat) : Uses :=
  img.rsvs.flatMap (fun sec => sec.2.filterMap (fun e =>
    if e.f0 ≤ f ∧ f < e.f0 + e.nf then (rsvLink s n sec.1 e.half).map (fun l => (BudgetRes.slots l e.ingress, e.flits)) else none))

/-- The uses of an image that do not vary from frame to frame (R187, R200). -/
def fixedUses (s : State) (n : Nat) (img : Image) : Uses :=
  let die (j : Nat) : Option Nat := (portsOfPlot s n)[j]?.map (· / 4)
  img.descs.flatMap (fun c => match die c.port with
    | some d => [(BudgetRes.descs d, c.descs.length), (BudgetRes.trigs d, c.inits.length)]
    | none => []) ++
  (BudgetRes.pools, img.pools.length) :: img.pools.filterMap (fun p =>
    if p.loc = 1 then (die p.unit).map (fun d => (BudgetRes.diePool d, p.count * 2 ^ p.size)) else none)

/-- An image's uses, one list for each budget entry and one for what does not vary. -/
def imageUses (s : State) (n : Nat) (img : Image) : List Uses :=
  fixedUses s n img :: (List.range img.nframe).map (fun f => frameUses s n (img.budget.getD f []) ++ slotUses s n img f)

/-- The largest use of a resource in any frame of an image. -/
def peakOf (us : List Uses) (r : BudgetRes) : Nat := (us.map (fun u => usedOf u r)).foldl max 0

/-! ### Limits -/

/-- Reference cycles, budgetable cycles, HBM bytes and module energy of a period code (Tables 2.1, 2.4, 11.2). -/
def refCycles (code : Nat) : Nat := match code with | 0 => 320 | 1 => 640 | _ => 1280
def budgetable (code : Nat) : Nat := match code with | 0 => 3208 | 1 => 6673 | _ => 13604
def stackBytes (code : Nat) : Nat := match code with | 0 => 4529848 | 1 => 9059696 | _ => 18119393
def moduleEnergy (code : Nat) : Nat := match code with | 0 => 6144 | 1 => 12288 | _ => 24576

/-- The bytes that a Trellis element of a number of tenths of TB/s carries in a period of 6.4 ns cycles (R23). -/
def trellisBytes (code tenths : Nat) : Nat := tenths * refCycles code * 640

/-- The reservation cap of R321 for a frame capacity and a number of plots on the port. -/
def rsvCap (c p : Nat) : Nat := min (96 * c / 100) (c - (ceilDiv c 100 + 3 * p + 1))

/-- The reservation cap of a link, with the masks at hand. -/
def capOn (s : State) (l : Nat) : Nat :=
  let x := linkAt s l
  rsvCap (if x.state = 6 then x.capacity.toNat else 0) (plotsOfPort s (linkPort l)).length

/-- The limit of a resource. -/
def limitOf (s : State) (r : BudgetRes) : Nat :=
  let code := s.sd.period.toNat
  match r with
  | .engine _ _ | .dovecote _ | .combiner _ => budgetable code
  | .energy => moduleEnergy code
  | .sram _ _ _ => 1024 * budgetable code
  | .stack _ => stackBytes code
  | .portLink _ _ => trellisBytes code 20
  | .coreLink _ _ => trellisBytes code 40
  | .quarter _ _ => trellisBytes code 10
  | .entry _ | .exit _ | .mesh _ _ => trellisBytes code 80
  | .slots l _ => capOn s l
  | .descs _ | .trigs _ => 1024 - s.coll.b2Reserve.toNat
  | .pools => 256
  | .diePool _ => 24 * 2 ^ 20

/-- What the module already carries of each resource beside a new image of plot `n` (R162): every other plot's largest use, and plot
`n`'s own largest use by its active image, which the new one replaces. -/
structure Load where
  others : List (List (List Uses))
  own : List Uses

def loadBeside (s : State) (n : Nat) : Load :=
  { others := (allPlots.filter (· != n)).map (fun m => (admitted (plotAt s m)).map (imageUses s m))
    own := match (plotAt s n).image with | some i => imageUses s n i | none => [] }

/-- The sum over all plots when the new image uses `v` of a resource (R162). -/
def totalWith (b : Load) (r : BudgetRes) (v : Nat) : Nat :=
  sumN (b.others.map (fun imgs => (imgs.map (fun us => peakOf us r)).foldl max 0)) + max v (peakOf b.own r)

/-- A resource is used past its limit. -/
def overLimit (s : State) (b : Load) (u : Uses) (r : BudgetRes) : Bool :=
  let v := usedOf u r
  v != 0 && decide (limitOf s r < totalWith b r v)

/-! ### Check 12 -/

/-- Width of an engine port in bytes per cycle (Table 4.1): ENG and the SUB2 of Table 6.10. -/
def portWidth (eng way : Nat) : Nat :=
  match eng, way with
  | 1, 1 => 64
  | 2, _ => 64
  | _, _ => 256

/-- A frame record breaks a limit of the plot or of the module. -/
def frameOver (s : State) (n : Nat) (b : Load) (is : List BudgetItem) : Bool :=
  let u := frameUses s n is
  let rs := (u.map (·.1)).eraseDups
  is.any (fun i => (itemRes s n i).isNone) ||
  rs.any (fun r => match r with
    | .engine _ _ => decide (limitOf s r < usedOf u r)
    | .sram p e w =>
      decide (portWidth e w * usedOf u (.engine p e) < usedOf u r) ||
      decide (limitOf s r < sumN ((u.filter (fun x => match x.1 with | .sram q _ _ => q == p | _ => false)).map (·.2)))
    | .energy => false
    | _ => overLimit s b u r)

/-- Bytes of a pool. -/
def poolBytes (p : PoolDecl) : Nat := p.count * 2 ^ p.size

/-- Where a window's pools lie: the base of each, upwards from the window in declaration order, and the end of the last (R187). -/
def windowGo (end_ : Nat) : List PoolDecl → List Nat × Nat
  | [] => ([], end_)
  | p :: r =>
    let a := ceilDiv end_ (2 ^ p.size) * 2 ^ p.size
    let (as, e) := windowGo (a + poolBytes p) r
    (a :: as, e)

/-- First SRAM byte of a pavilion's pool window (R98). -/
def windowBase (img : Image) (rel : Nat) : Nat :=
  2 ^ 22 - (match img.layouts.find? (fun l => l.1 == rel) with | some l => l.2.2 | none => 0) * 2 ^ 17

/-- The HBM pools of an image lie in the region and apart (R187). -/
def hbmPoolsOk (region : U64) (ps : List PoolDecl) : Bool :=
  let spans := (ps.filter (fun p => p.loc == 2)).map (fun p => (p.hbmOff * 256, p.hbmOff * 256 + poolBytes p))
  spans.all (fun x => decide (x.2 ≤ regBytes region)) &&
    apart (sortBy (fun a b => decide (a.1 ≤ b.1)) (spans.filter (fun x => x.1 != x.2)))

/-- The pools of an image fit (R187). -/
def poolsFit (s : State) (n : Nat) (b : Load) (img : Image) : Bool :=
  let u := fixedUses s n img
  ((img.pools.filter (fun p => p.loc == 0)).map (·.unit)).eraseDups.all (fun rel =>
    decide ((windowGo (windowBase img rel) (img.pools.filter (fun p => p.loc == 0 && p.unit == rel))).2 ≤ 2 ^ 22)) &&
  hbmPoolsOk (plotAt s n).region img.pools &&
  ((u.map (·.1)).eraseDups).all (fun r => match r with
    | .pools | .diePool _ => !overLimit s b u r
    | _ => true)

/-- The first frame of an image for which `p` holds. -/
def firstFrame (img : Image) (p : Nat → Bool) : Option Nat := (List.range img.nframe).find? p

/-- Check 12 of one section: the frame of the first refusal. -/
def check12Sec (s : State) (n : Nat) (b : Load) (img : Image) (c : Sec) : Option Nat :=
  match c.typ with
  | 3 => match img.layouts.find? (fun l => l.1 == c.unit) with
    | some l => if 2 ^ 22 < l.2.1 + l.2.2 * 2 ^ 17 then some 0 else none
    | none => none
  | 5 => firstFrame img (fun f => frameOver s n b (img.budget.getD f []))
  | 6 => match (portsOfPlot s n)[c.unit]? with
    | some p =>
      let u := fixedUses s n img
      if overLimit s b u (.descs (p / 4)) || overLimit s b u (.trigs (p / 4)) then some 0 else none
    | none => none
  | 7 => match (portsOfPlot s n)[c.unit]? with
    | some p => firstFrame img (fun f =>
        let u := slotUses s n img f
        [2 * p, 2 * p + 1].any (fun l => overLimit s b u (.slots l false) || overLimit s b u (.slots l true)))
    | none => none
  | 8 => if poolsFit s n b img then none else some 0
  | _ => none

def check12 (s : State) (n : Nat) (b : Load) (img : Image) (ss : List Sec) : Option VFail :=
  ss.findSome? (fun c => (check12Sec s n b img c).map (fun f => ⟨some c, f⟩))

/-! ### Check 13 -/

/-- The energy of a frame breaks the plot's or the module's limit (R48). -/
def energyOver (s : State) (n : Nat) (b : Load) (is : List BudgetItem) : Bool :=
  let u := frameUses s n is
  decide ((plotAt s n).energy.toNat < usedOf u .energy) || overLimit s b u .energy

def check13 (s : State) (n : Nat) (b : Load) (img : Image) (ss : List Sec) : Option VFail :=
  (firstFrame img (fun f => energyOver s n b (img.budget.getD f []))).map (fun f => ⟨ss.find? (fun c => c.typ == 5), f⟩)

/-- Checks 12 and 13. -/
def admitImage (s : State) (n : Nat) (img : Image) (ss : List Sec) : Option VRes :=
  let b := loadBeside s n
  ((check12 s n b img ss).map (fun f => ⟨12, f, stLoadRefusedFit⟩)).or
    ((check13 s n b img ss).map (fun f => ⟨13, f, stLoadRefusedEnergy⟩))

/-- All checks on a submitted image: the image, or the first failure (R160). -/
def verifyImage (s : State) (n : Nat) (bs : List Byte) : Except VRes Image :=
  match verifyFrame s n bs with
  | some r => .error r
  | none =>
    let ss := imgSecs bs
    match verifyBody s n (imgHead bs) ss with
    | some r => .error r
    | none =>
      let img := imageOf bs ss
      match admitImage s n img ss with
      | some r => .error r
      | none => .ok img

/-- The sections of an image whose command streams stand as its shadow banks hold them; a stream that no section had follows the
others (R165). Log entry 37. -/
def shadowSecs (img : Image) : List Sec :=
  let ss := imgSecs img.bytes
  let body (ws : List (BitVec 128)) : List Byte := ws.flatMap (fun w => natLe 16 w.toNat)
  let kept := ss.map (fun c =>
    if c.typ == 1 then
      match img.streams.find? (fun t => t.1 == c.unit && t.2.1 == c.eng) with
      | some t => { c with body := body t.2.2, len := 16 * t.2.2.length }
      | none => c
    else c)
  let new := img.streams.filter (fun t => !ss.any (fun c => c.typ == 1 && c.unit == t.1 && c.eng == t.2.1))
  kept ++ new.zipIdx.map (fun (t, i) =>
    { idx := ss.length + i, off := 0, len := 16 * t.2.2.length, typ := 1, unit := t.1, eng := t.2.1, rsvd := 0, body := body t.2.2 })

/-- Checks 5 to 13 on a shadow that bank writes have altered (R165). -/
def verifyShadow (s : State) (n : Nat) (img : Image) : Option VRes :=
  let ss := shadowSecs img
  (verifyBody s n (imgHead img.bytes) ss).or (admitImage s n img ss)

end Sys2Proof.Machine
end

