-- ==== Sys2Proof/Machine/ShardOps.lean ====
section
/-! DEFINITION. The shard controller (chapter 10): the fields of an entry (Table 10.1), the state stream and its digests (R249, R259),
the messages to the twin (Table 10.9), the comparison and its outcomes (R261–R263, Table 10.7), commits (R264), shard commands (R265),
restores (R267, R268) and what a plot reset leaves of a step (R266). -/

namespace Sys2Proof.Machine

/-! ### The entry (Table 10.1) -/

def ePlot (e : BitVec 512) : Nat := field e 507 5
def eTplot (e : BitVec 512) : Nat := field e 502 5
def eTwin (e : BitVec 512) : BitVec 24 := e.extractLsb' 478 24
def eTshard (e : BitVec 512) : Nat := field e 466 12
def eNparam (e : BitVec 512) : Nat := field e 430 36
def eM1 (e : BitVec 512) : Nat := field e 428 2
def eM2 (e : BitVec 512) : Nat := field e 426 2
def eFact (e : BitVec 512) : Bool := bitAt e 425
def eWfmt (e : BitVec 512) : Nat := field e 421 4
def eWen (e : BitVec 512) : Bool := bitAt e 420
def eFrows (e : BitVec 512) : Nat := field e 400 20
def eG (e : BitVec 512) (g : Nat) : Nat := if g = 0 then field e 362 38 else field e 324 38
def eDlst (e : BitVec 512) : Nat := field e 286 38
def eTdie (e : BitVec 512) : Nat := field e 282 4
def eTctr (e : BitVec 512) : Nat := field e 272 10
def eTthr (e : BitVec 512) : Nat := field e 260 12
def eCpav (e : BitVec 512) : Nat := field e 252 8
def eCctr (e : BitVec 512) : Nat := field e 246 6
def eCinc (e : BitVec 512) : Nat := field e 242 4
def eDpf (e : BitVec 512) : Nat := field e 226 16

/-- The configuration of R261: NPARAM, M1FMT, M2FMT, FACT, WFMT, WEN, FROWS and PROG, every other field zero. -/
def eConfig (e : BitVec 512) : BitVec 512 := BitVec.ofNat 512 (field e 400 66 * 2 ^ 400 + field e 194 32 * 2 ^ 194)

/-- The entry is valid (R248, R265). -/
def shardValid (h : Shard) : Bool := h.state != 0

/-! ### The state stream (R249) -/

def momBytes (f : Nat) : Nat := match f with | 1 => 4 | 2 => 2 | _ => 0
def weightBytes (f : Nat) : Nat := if f = fFP32 then 4 else if f = fBF16 then 2 else 1

/-- Bytes of the arrays of a generation, in order. -/
def arrayLens (e : BitVec 512) : List Nat :=
  let n := eNparam e
  [n * 4, n * momBytes (eM1 e), if eFact e then (eFrows e + n / max 1 (eFrows e)) * 4 else n * momBytes (eM2 e),
    if eWen e then n * weightBytes (eWfmt e) else 0].filter (fun k => k != 0)

/-- The arrays as (offset in the stream, offset in the generation, bytes): each starts at the next multiple of 256 after the one
before it. -/
def spansFrom : Nat → Nat → List Nat → List (Nat × Nat × Nat)
  | _, _, [] => []
  | so, go, k :: r => (so, go, k) :: spansFrom (so + k) ((go + k + 255) / 256 * 256) r
def arraySpans (e : BitVec 512) : List (Nat × Nat × Nat) := spansFrom 0 0 (arrayLens e)

def streamLen (e : BitVec 512) : Nat := sumN (arrayLens e)
/-- Digest blocks of 1 MiB, the last possibly short. -/
def nBlocks (e : BitVec 512) : Nat := (streamLen e + 2 ^ 20 - 1) / 2 ^ 20
def blockLen (e : BitVec 512) (b : Nat) : Nat := min (2 ^ 20) (streamLen e - b * 2 ^ 20)
/-- Bytes from the start of a generation to the end of its last array. -/
def genLen (e : BitVec 512) : Nat := match (arraySpans e).getLast? with | some a => a.2.1 + a.2.2 | none => 0

/-- Region offset of byte `i` of the state stream of generation `g`. -/
def streamOff (e : BitVec 512) (g i : Nat) : Nat :=
  match (arraySpans e).find? (fun a => decide (a.1 ≤ i) && decide (i < a.1 + a.2.2)) with
  | some a => eG e g + a.2.1 + (i - a.1)
  | none => eG e g + i

/-- Module address of a byte of the stream. -/
def streamAddr (s : State) (e : BitVec 512) (g i : Nat) : Option Nat := regTranslate (plotAt s (ePlot e)).region (streamOff e g i)
def streamAddrs (s : State) (e : BitVec 512) (g lo n : Nat) : List Nat := (List.range n).filterMap (fun i => streamAddr s e g (lo + i))

/-- The digest of a block of a generation (R259). -/
def blockDigest (s : State) (e : BitVec 512) (g b : Nat) : BitVec 64 :=
  BitVec.ofNat 64 (crc64Go (fun i => match streamAddr s e g i with | some a => memRead s.hbm.mem a | none => 0) (blockLen e b) (b * 2 ^ 20) 0)

/-- Region offset of entry `b` of the digest list of generation `g` (R249). -/
def dlstOff (e : BitVec 512) (g b : Nat) : Nat := eDlst e + g * 8 * nBlocks e + 8 * b

/-- Blocks a hub's digest unit reads in a frame (R259). -/
def hubLimit (s : State) : Nat := match s.sd.periodEff.toNat with | 0 => 1 | 1 => 2 | _ => 4

/-! ### Messages (Table 10.9) -/

def mStep (p : Pkt) : BitVec 64 := p.op.extractLsb' 192 64
def mKind (p : Pkt) : Nat := field p.op 188 4
def mShard (p : Pkt) : Nat := field p.op 176 12
def mSrc (p : Pkt) : BitVec 24 := p.op.extractLsb' 152 24
def mSplot (p : Pkt) : Nat := field p.op 147 5
def mPos (p : Pkt) : Nat := field p.op 104 40
def mNel (p : Pkt) : Nat := field p.op 92 12
def mStatus (p : Pkt) : BitVec 16 := p.op.extractLsb' 76 16

def psOp (step : BitVec 64) (kind shard src splot pos nel : Nat) (status : BitVec 16) : BitVec 256 :=
  BitVec.ofNat 256 (step.toNat * 2 ^ 192 + kind * 2 ^ 188 + shard * 2 ^ 176 + src * 2 ^ 152 + splot * 2 ^ 147 + pos * 2 ^ 104 + nel * 2 ^ 92 +
    status.toNat * 2 ^ 76)

/-- A PSMSG of plot `n` to a module and plot: KIND 0, 2 and 3 on VC2, KIND 1 on VC3, the rest on VC7. -/
def psPkt (s : State) (n : Nat) (dest : BitVec 24) (dplot kind shard : Nat) (step : BitVec 64) (pos nel : Nat) (status : BitVec 16)
    (body : List Byte) : Pkt :=
  { vc := if kind = 0 ∨ kind = 2 ∨ kind = 3 then 2 else if kind = 1 then 3 else 7, cls := if kind < 4 then 0 else 2,
    plot := BitVec.ofNat 5 dplot, epoch := (plotAt s n).epoch, dest := dest, opc := opPsmsg, len := BitVec.ofNat 5 ((body.length + 239) / 240),
    op := psOp step kind shard (selfId s).toNat n pos nel status, body := body }

/-- A message of a shard to its twin; none where the entry names no twin. -/
def toTwin (s : State) (n kind : Nat) (step : BitVec 64) (pos nel : Nat) (status : BitVec 16) (body : List Byte) : State :=
  let e := (shardAt s n).entry
  if eTwin e = 0xFFFFFF then s
  else sendOut s none (psPkt s (ePlot e) (eTwin e) (eTplot e) kind (eTshard e) step pos nel status body)

/-- The digest header (KIND 2), and a list as KIND 3 messages of up to 480 entries (R261). -/
def sendHeader (s : State) (n : Nat) (step : BitVec 64) (status : BitVec 16) : State :=
  toTwin s n 2 step 0 0 status (natLe 64 (eConfig (shardAt s n).entry).toNat)
def sendList (s : State) (n : Nat) (step : BitVec 64) (l : List (BitVec 64)) : State :=
  (pieces 480 l).zipIdx.foldl (fun s (c, i) => toTwin s n 3 step (480 * i) c.length 0 (c.flatMap (fun d => natLe 8 d.toNat))) s

/-- Send bytes read from HBM to the twin; what meets an uncorrectable word is not delivered (Table 11.3). -/
def sendRead (s : State) (n kind : Nat) (step : BitVec 64) (pos nel : Nat) (as : List Nat) : State :=
  match (if s.hbm.badWords.isEmpty then none else hbmBad s.hbm as) with
  | some a => hbmUncorrected s a true
  | none => toTwin s n kind step pos nel 0 (hbmRead s.hbm as)

/-- The digest list of a generation as HBM holds it, as KIND 3 messages of up to 480 entries. -/
def sendHeldList (s : State) (n : Nat) (step : BitVec 64) (e : BitVec 512) (g : Nat) : State :=
  (List.range ((nBlocks e + 479) / 480)).foldl (fun s i =>
    let k := min 480 (nBlocks e - 480 * i)
    sendRead s n 3 step (480 * i) k (regAddrs (plotAt s (ePlot e)).region (dlstOff e g (480 * i)) (8 * k))) s

/-- A message comes from the twin the shard's entry names, for the shard's plot. -/
def fromTwin (h : Shard) (p : Pkt) : Bool :=
  eTwin h.entry != 0xFFFFFF && mSrc p == eTwin h.entry && mSplot p == eTplot h.entry && p.plot.toNat == ePlot h.entry

/-! ### Records and outcomes (Tables 10.7, 10.8) -/

def commitRecord (s : State) (step : BitVec 64) (first ndiff : Nat) (status : BitVec 16) (flags : BitVec 8) : BitVec 256 :=
  BitVec.ofNat 256 (step.toNat * 2 ^ 192 + s.sd.ticks.toNat * 2 ^ 128 + s.sd.boot.toNat * 2 ^ 96 + first * 2 ^ 64 + sat32 ndiff * 2 ^ 32 +
    status.toNat * 2 ^ 16 + flags.toNat * 2 ^ 8)

/-- The step value the shard is at: that of the step in progress, or the one it awaits (R262). -/
def stepNow (h : Shard) : BitVec 64 :=
  let st := if h.state = 7 ∨ h.state = 8 then h.backState else h.state
  if st = 0 ∨ st = 1 then h.step else h.cur

/-- The generation a step in progress writes (R251). -/
def newGen (h : Shard) : Nat := (h.cur.toNat + 1) % 2

/-- An outcome without a commit: state 5, its record, and the hold of the plot. -/
def diverged (s : State) (n : Nat) (k : RecKind) (st : U16) (first ndiff : Nat) : State :=
  let h := shardAt s n
  let p := ePlot h.entry
  let s := setShard s n { h with
    -- a shard that serves goes on serving, and is diverged when it ends
    state := if h.state = 8 then 8 else 5, backState := if h.state = 8 then 5 else h.backState, todo := none, record := commitRecord s h.cur first ndiff st 0,
    divergences := if st == stDivergence then h.divergences + 1 else h.divergences }
  containedHold (emit s k (srcShard n) (some p) []) [p] hcShard

/-- TWIN_SKEW (R262). -/
def twinSkew (s : State) (n : Nat) : State :=
  diverged (modShard s n (fun h => { h with cur := stepNow h })) n rkPsTwinMismatch stTwinSkew 0xFFFFFFFF 0

/-- A commit is due, with its status and FLAGS (state 4). -/
def commitDue (s : State) (n : Nat) (st : U16) (flags : BitVec 8) : State :=
  modShard s n (fun h => { h with state := 4, todo := some (st, flags) })

/-- The Lodge has declared an endpoint dead at the plot's epoch (R383). -/
def declaredDead (s : State) (n : Nat) (epid : BitVec 24) : Bool :=
  let d := domAt s n
  d.dead.any (fun i => match d.members[i]? with | some m => m.epid == epid | none => false)

/-- Why the twin is absent, as FLAGS (Tables 10.7, 10.8). -/
def twinAbsent (s : State) (h : Shard) : Option (BitVec 8) :=
  if eTwin h.entry = 0xFFFFFF then some 0x80
  else if declaredDead s (ePlot h.entry) (eTwin h.entry) then some 0x40
  else match (if h.hdrStep == h.cur then h.twinHdr else none) with
    | some (_, st) => if st == stShardDamaged then some 0x20 else if st == stShardAborted then some 0x10 else none
    | none => none

/-- The comparison of R261, in the order of Table 10.7; it waits until both lists are held. -/
def compareShard (s : State) (n : Nat) : State :=
  let h := shardAt s n
  if h.state ≠ 3 then s
  else match twinAbsent s h with
    | some fl => commitDue s n stDegradedCommit fl
    | none => match (if h.hdrStep == h.cur then h.twinHdr else none) with
      | none => s
      | some (cfg, _) =>
        if h.twin.length < nBlocks cfg then s
        else if cfg != eConfig h.entry then diverged s n rkPsTwinMismatch stTwinConfig 0xFFFFFFFF 0
        else
          let diff := (h.local_.zipIdx.filter (fun (d, i) => d != tblGet 0 h.twin i)).map (·.2)
          match diff with
          | [] => commitDue s n stOk 0
          | b :: _ => diverged s n rkPsDivergence stDivergence b diff.length

/-! ### Twin messages (R262) -/

inductive TwinMsg where
  | present | next | skew | stale | drop
deriving DecidableEq, Repr

/-- Where a twin message for a step value goes. In states 5 and 6 a message of the same step belongs to its re-run. -/
def twinMsg (h : Shard) (step : BitVec 64) : TwinMsg :=
  let now := stepNow h
  if h.state = 0 then .drop
  else if step.toNat < now.toNat then .stale
  else if step = now then (if h.state = 5 ∨ h.state = 6 then .next else .present)
  else if h.state = 4 ∧ step.toNat = now.toNat + 1 then .next
  else .skew

/-- Keep a header for a step value, or one deep; what is held for another step value gives way. -/
def keepHeader (h : Shard) (next : Bool) (step : BitVec 64) (cfg : BitVec 512) (st : U16) : Shard :=
  if next then { h with nextHdr := some (cfg, st), nextList := if h.nextStep == step then h.nextList else [], nextStep := step }
  else { h with twinHdr := some (cfg, st), twin := if h.hdrStep == step then h.twin else [], hdrStep := step }

/-- The entries of a list message, from the first index. -/
def putEntries (t : Tbl (BitVec 64)) (pos : Nat) (ds : List (BitVec 64)) : Tbl (BitVec 64) :=
  ds.zipIdx.foldl (fun t (d, i) => tblSet t (pos + i) d) t
def keepList (h : Shard) (next : Bool) (step : BitVec 64) (pos : Nat) (ds : List (BitVec 64)) : Shard :=
  if next then
    let same := h.nextStep == step
    { h with nextHdr := if same then h.nextHdr else none, nextList := putEntries (if same then h.nextList else []) pos ds, nextStep := step }
  else
    let same := h.hdrStep == step
    { h with twinHdr := if same then h.twinHdr else none, twin := putEntries (if same then h.twin else []) pos ds, hdrStep := step }

/-- What was kept one deep becomes the messages of the present step. -/
def promote (h : Shard) : Shard :=
  if h.nextHdr.isNone && h.nextList.isEmpty then h
  else { h with twinHdr := h.nextHdr, twin := h.nextList, hdrStep := h.nextStep, nextHdr := none, nextList := [] }

/-- A twin message takes effect under R262. -/
def twinTake (s : State) (n : Nat) (step : BitVec 64) (keep : Shard → Bool → Shard) : State :=
  match twinMsg (shardAt s n) step with
  | .present => compareShard (modShard s n (fun h => keep h false)) n
  | .next => modShard s n (fun h => keep h true)
  | .skew => twinSkew s n
  | .stale =>
    let s := modShard s n (fun h => { h with stale := h.stale + 1 })
    emit s rkPsStale (srcShard n) (some (ePlot (shardAt s n).entry)) []
  | .drop => s

/-! ### Commit (R264) -/

/-- The plot is neither held nor suspended, and no hold of it is pending (R264, R368). -/
def mayCommit (s : State) (n : Nat) : Bool :=
  let p := plotAt s n
  !p.held && p.state != 3 && p.state != 4 && !holdPending s n

/-- When every valid shard of the plot has committed step s + 1, the plot's step counter follows. -/
def advanceStep (s : State) (n : Nat) : State :=
  let p := plotAt s n
  let mine := s.shards.filter (fun e => shardValid e.2 && ePlot e.2.entry == n)
  if mine.isEmpty || !mine.all (fun e => e.2.step == p.step + 1) then s
  else setPlot s n { p with
    step := p.step + 1, stepLatched := p.step + 1, stepAdvances := p.stepAdvances + 1, lastAdvance := s.sd.ticks }

/-- Add increments to a counter of a plot-relative pavilion. -/
def signalRel (s : State) (n rel ctr inc : Nat) (o : CtrSrc) : State :=
  match pavOfRel s n rel with
  | some i => (signalPav s i ctr [(inc, o)]).1
  | none => s

/-- The four things of R264. -/
def commitShard (s : State) (n : Nat) (st : U16) (flags : BitVec 8) : State :=
  let h := shardAt s n
  let p := ePlot h.entry
  let degraded := st == stDegradedCommit
  let s := setShard s n (promote { h with
    gen := newGen h, step := h.cur + 1, state := 1, todo := none, record := commitRecord s h.cur 0xFFFFFFFF 0 st flags,
    commits := h.commits + 1, degraded := if degraded then h.degraded + 1 else h.degraded })
  let s := signalRel s p (eCpav h.entry) (eCctr h.entry) (eCinc h.entry) ⟨4, n⟩
  let s := emit s (if degraded then rkPsDegraded else rkPsCommit) (srcShard n) (some p) []
  advanceStep s p

/-! ### Restores (R267, R268) -/

/-- A restore request: KIND 4, bit 0 of its one-byte body selecting the new generation. -/
def sendRequest (s : State) (n : Nat) (new : Bool) (pos nel : Nat) : State :=
  toTwin s n 4 (stepNow (shardAt s n)) pos nel 0 [BitVec.ofNat 8 (bit new)]

/-- Restore or Adopt twin begins (state 7). -/
def startRestore (s : State) (n : Nat) (new : Bool) : State :=
  if eTwin (shardAt s n).entry = 0xFFFFFF then modShard s n (fun h => { h with cmdStatus := stShardState })
  else
    let s := modShard s n (fun h => { h with
      backState := h.state, state := 7, restoreNew := new, restoreStep := none, retriedBlocks := [], got := [], okBlocks := [], progress := 0,
      twin := [], twinHdr := none, cmdStatus := stOk })
    sendRequest s n new 0 0

/-- A restore ends without success: the shard stays as it was. -/
def endRestore (s : State) (n : Nat) (st : U16) : State :=
  modShard s n (fun h => { h with state := h.backState, cmdStatus := st, restoreStep := none, got := [] })

/-- Success: Restore makes the generation committed; Adopt twin leads to a commit with FLAGS [9]. -/
def restoreDone (s : State) (n : Nat) (st : BitVec 64) : State :=
  let h := shardAt s n
  let s := if h.restoreNew then modShard (commitDue s n stOk 0x02) n (fun h => { h with restoreStep := none, got := [] })
    else setShard s n { h with state := 1, gen := st.toNat % 2, step := st, restoreStep := none, got := [] }
  emit s rkPsRestored (srcShard n) (some (ePlot h.entry)) []

/-- The first byte of a block that lies in an uncorrectable word. -/
def blockBad (s : State) (e : BitVec 512) (g b : Nat) : Option Nat :=
  if s.hbm.badWords.isEmpty then none else hbmBad s.hbm (streamAddrs s e g (b * 2 ^ 20) (blockLen e b))

/-- One complete block against the twin's list; a mismatch is asked for once more, a second one ends the restore. A block that meets an
uncorrectable word is not delivered to the digest, and does not match (Table 11.3, log entry 111). -/
def checkBlock (s : State) (n : Nat) (st : BitVec 64) (b : Nat) : State :=
  let h := shardAt s n
  if h.state ≠ 7 ∨ h.okBlocks.contains b ∨ tblGet 0 h.got b < blockLen h.entry b ∨ !(h.twin.any (fun e => e.1 == b)) then s
  else
    let g := st.toNat % 2
    let bad := blockBad s h.entry g b
    let s := match bad with | some a => hbmUncorrected s a true | none => s
    let d := blockDigest s h.entry g b
    if bad.isNone && d == tblGet 0 h.twin b then
      let s := regWrite s (ePlot h.entry) (dlstOff h.entry g b) (natLe 8 d.toNat)
      let s := modShard s n (fun h => { h with okBlocks := h.okBlocks ++ [b], progress := BitVec.ofNat 32 (h.okBlocks.length + 1) })
      if (shardAt s n).okBlocks.length = nBlocks h.entry then restoreDone s n st else s
    else if h.retriedBlocks.contains b then
      emit (endRestore s n stRestoreFail) rkPsRestoreFail (srcShard n) (some (ePlot h.entry)) []
    else
      let s := modShard s n (fun h => { h with retriedBlocks := h.retriedBlocks ++ [b], got := tblSet h.got b 0 })
      sendRequest s n h.restoreNew (b * 2 ^ 20) 1

/-- Every block that is complete and whose digest is known. -/
def checkBlocks (s : State) (n : Nat) : State :=
  match (shardAt s n).restoreStep with
  | none => s
  | some st => (shardAt s n).got.foldl (fun s e => checkBlock s n st e.1) s

/-- The bytes of a restore message go to the generation of its STEP, and count for their blocks; a word that a shorter write finds
uncorrectable stays as it is (R279). -/
def takeRestore (s : State) (n : Nat) (step : BitVec 64) (pos : Nat) (bs : List Byte) : State :=
  let h := shardAt s n
  let bs := bs.take (streamLen h.entry - pos)
  let as := streamAddrs s h.entry (step.toNat % 2) pos bs.length
  let w := hbmWrite s.hbm as bs
  let s := { s with hbm := w.1 }
  let s := match w.2 with | some a => hbmUncorrected s a true | none => s
  let first := 2 ^ 20 - pos % 2 ^ 20
  let b := pos / 2 ^ 20
  let s := modShard s n (fun h => { h with got := tblMod 0 h.got b (· + min first bs.length) })
  let s := if first < bs.length then modShard s n (fun h => { h with got := tblMod 0 h.got (b + 1) (· + (bs.length - first)) }) else s
  checkBlocks s n

/-- The generation and s_t that a request is served from, or the status of its refusal (R267). -/
def serveFrom (s : State) (h : Shard) (new : Bool) (step : BitVec 64) : Except U16 (BitVec 64) :=
  let p := plotAt s (ePlot h.entry)
  let st := if h.state = 8 then h.backState else h.state
  if !(p.state == 1 || p.held || p.state == 3) then .error stShardState
  else if (match h.twinHdr with | some (c, t) => t == stOk && c != eConfig h.entry | none => false) then .error stTwinConfig
  else if !new then (if st = 1 then .ok h.step else .error stShardState)
  else if st = 5 then .ok (h.cur + 1)
  else if st = 1 ∧ h.step = step + 1 then .ok h.step
  else .error stShardState

/-- The pieces of a span of the stream, none crossing a block, each up to 3,840 bytes. -/
def streamPieces (lo hi : Nat) : List (Nat × Nat) :=
  (List.range ((hi + 2 ^ 20 - 1) / 2 ^ 20)).flatMap (fun b =>
    let a := max lo (b * 2 ^ 20)
    let z := min hi ((b + 1) * 2 ^ 20)
    (List.range ((z - a + 3839) / 3840)).map (fun i => (a + 3840 * i, min 3840 (z - a - 3840 * i))))

/-- Serve a request: the digest header with s_t, the digest list of the generation, and its stream, or one block of it (R268). -/
def serve (s : State) (n : Nat) (st : BitVec 64) (block : Option Nat) : State :=
  let h := shardAt s n
  let g := st.toNat % 2
  let s := setShard s n { h with state := 8, backState := if h.state = 8 then h.backState else h.state }
  let s := match block with
    | some _ => s
    | none => sendHeldList (sendHeader s n st stOk) n st h.entry g
  let (lo, hi) := match block with
    | some pos => (pos, min (streamLen h.entry) (pos + 2 ^ 20))
    | none => (0, streamLen h.entry)
  (streamPieces lo hi).foldl (fun s (a, k) => sendRead s n 5 st a k (streamAddrs s h.entry g a k)) s

/-- Serving has ended: none of the shard's restore data waits at a link. -/
def servingOver (s : State) (n : Nat) : Bool :=
  let h := shardAt s n
  !(s.net.links.any (fun l => l.2.txq.any (fun t =>
    t.pkt.opc == opPsmsg && mKind t.pkt == 5 && mShard t.pkt == eTshard h.entry && mSplot t.pkt == ePlot h.entry && t.pkt.dest == eTwin h.entry)))

/-! ### Commands (Table 10.10) -/

/-- The states a command is allowed in. -/
def shardCmdOk (h : Shard) (k : Nat) : Bool :=
  match k with
  | 1 => h.state == 5
  | 2 => h.state == 5
  | 3 => h.state == 5 || h.state == 6
  | 4 => h.state == 1 || h.state == 6 || (h.state == 0 && eNparam h.entry != 0)
  | 5 => h.state == 1 || h.state == 5 || h.state == 6
  | 6 => h.state == 3
  | _ => false

/-- A command takes effect, at step 5 of Table 2.2 (R265). -/
def shardCmdRun (s : State) (n k : Nat) : State :=
  if !shardCmdOk (shardAt s n) k then modShard s n (fun h => { h with cmdStatus := stShardState })
  else
    let s := modShard s n (fun h => { h with cmdStatus := stOk })
    match k with
    | 1 => commitDue s n stOk 0x04
    | 2 => startRestore s n true
    | 3 => modShard s n (fun h => promote { h with state := 1, todo := none, twinHdr := none, twin := [] })
    | 4 => startRestore s n false
    | 5 => modShard s n (fun h => { h with state := 0 })
    | 6 => commitDue s n stDegradedCommit 0x08
    | _ => s

/-- Step 5 for the plots: the step counter follows where a shard that lagged has left (R264). -/
def stepCounters (s : State) : State := (List.range 32).foldl advanceStep s

/-- Step 5 for a shard: its commands in order, the wait for its twin counted, the end of serving (R263, R265, R267). -/
def shardTick (s : State) (n : Nat) : State :=
  let ks := (shardAt s n).cmds
  let s := ks.foldl (fun s k => shardCmdRun s n k) (if ks.isEmpty then s else modShard s n (fun h => { h with cmds := [] }))
  let h := shardAt s n
  if h.state = 3 then setShard s n { h with waitTicks := h.waitTicks + 1 }
  else if h.state = 8 ∧ servingOver s n = true then setShard s n { h with state := h.backState }
  else s

/-! ### Busy units and resets (R263, R266) -/

/-- A shard or norm of the plot keeps its frames from qualifying (R263). -/
def shardsBusy (s : State) (n : Nat) : Bool :=
  (normAt s n).collecting || s.shards.any (fun e => ePlot e.2.entry == n && (e.2.state == 2 || e.2.state == 3 || e.2.state == 4))

/-- A plot reset abandons every step in progress; each shard of the plot tells its twin (R266). -/
def resetShard (s : State) (n : Nat) : State :=
  let h := shardAt s n
  if h.state = 0 then s
  else
    let now := stepNow h
    let s := setShard s n { h with state := 1, todo := none, cmds := [], restoreStep := none, got := [] }
    toTwin s n 6 now 0 0 stShardAborted []

def resetShards (s : State) (n : Nat) : State :=
  let s := s.shards.foldl (fun s e => if ePlot e.2.entry == n then resetShard s e.1 else s) s
  if (s.norms.any (fun e => e.1 == n)) then modNorm s n (fun x => { x with collecting := false, held := [] }) else s

end Sys2Proof.Machine
end

