-- ==== Sys2Proof/Machine/PlotOps.lean ====
section
/-! DEFINITION. What activation and the resets do to the units of a plot (R165, R177, R181, R182, R189, R224, Tables 4.2, 7.2, 17.7). -/

namespace Sys2Proof.Machine

/-! ### Engines and pavilions (Table 4.2) -/

/-- The state of Table 4.2 that belongs to an engine, at its reset value. -/
def engineState (v : Pavilion) (eng : Nat) : Pavilion :=
  match eng with
  | 0 => { v with tiles := [], scalars := [], vl := 512, sums := [] }
  | 1 => { v with slots := [] }
  | 2 => { v with cursors := [], sortBuf := [] }
  | 3 => { v with latAcc := [], latStat := [], latFull := false }
  | _ => v

/-- All of Table 4.2 but data SRAM. -/
def enginesState (v : Pavilion) : Pavilion := (List.range 6).foldl engineState v

/-- Every counter of a pavilion poisoned (R174, R181); its flags stay until activation (R177). -/
def poisonPav (v : Pavilion) : Pavilion := { v with ctrs := v.ctrs.map (fun e => (e.1, ctrPoison e.2)) }

/-- An engine with nothing queued, issued or armed, its program left in its bank. -/
def engEmpty (e : Engine) : Engine :=
  { e with loops := [], queue := [], inflight := [], stepsLeft := none, passBreak := false, breakEn := 0 }

/-- An engine idle with no program; its fault word stays for reading (R182). -/
def engIdle (e : Engine) : Engine := { engEmpty e with program := false, halted := false, mode := .idle, fetchPc := 0, pf := 0 }

/-- A head that waits at the stop, frozen or not: the engine could issue but for its wait (R171, R181). -/
def headStops (s : State) (u : EngRef) : Option QCmd :=
  let e := engAt s u
  match e.queue with
  | q :: _ => if engAlive e && !headWait s u q.cmd.hdr then some q else none
  | [] => none

/-- A head that waits: a frozen engine does not count as waiting at its head (R170, R184). -/
def headWaits (s : State) (u : EngRef) : Option QCmd := if (engAt s u).mode == .frozen then none else headStops s u

/-- An engine whose head is not waiting when its plot is reset: it issues nothing more, and what it had issued is discarded (Table 7.2). -/
def engHalt (e : Engine) : Engine :=
  { e with inflight := [], stepsLeft := none, passBreak := false, breakEn := 0, mode := if e.mode == .frozen then .running else e.mode }

/-- What a plot or pavilion reset does to an engine before the counters are poisoned: it is unfrozen and disarmed, a waiting head
completes with POISONED and its queue enters the fault state, and any other engine takes `f` (R171, R181, Table 7.2). -/
def poisonEngine (f : Engine → Engine) (s : State) (u : EngRef) : State :=
  match headStops s u with
  | some q =>
    traceCmd (modEng s u (fun e => engEmpty { e with mode := .fault, faultWord := faultWordOf e q.cmd.hdr.tag stPoisoned })) u q.cmd stPoisoned
  | none => modEng s u f

/-- SELFTEST, a mask's removal and the reset command share this: a pavilion reset (Tables 4.2, 7.2, 17.7). Waiting heads end with
POISONED and hold their plot (R155), and every other engine is idle (log entry 40). Its counters take the reset values of Table 7.1. -/
def resetPav (s : State) (i : Nat) : State :=
  let us := engsOfPav i
  let ended := us.any (fun u => (headStops s u).isSome)
  let s := us.foldl (poisonEngine (fun e => if e.mode == .fault then engEmpty e else engIdle e)) s
  let s := modPav s i (fun v =>
    let v := enginesState v
    { v with sram := [], badWords := [], ctrs := [] })
  if ended then containedHold s (plotOfPav s i).toList hcEngine else s

/-- An engine reset: its queue is emptied and it is idle until the plot's next activation, as if it had completed HALT (R181). -/
def resetEngine (s : State) (u : EngRef) : State :=
  let s := modEng s u (fun e => { engEmpty e with halted := true, mode := .idle })
  modPav s u.pav (fun v => engineState v u.eng)

/-! ### Pools (R187–R189) -/

/-- Buffer memory and pools of a plot go; the memory is zeroed before any other pool lies over it (R337). -/
def destroyPools (s : State) (n : Nat) : State :=
  let gone := s.pools.filter (fun e => e.2.plot == n)
  let s := gone.foldl (fun s e =>
    let p := e.2
    if p.loc = 1 then modDie s p.unit (fun d => { d with
        mem := memZero d.mem p.base (p.count * 2 ^ p.size)
        badWords := d.badWords.filter (fun w => !covers p.base (p.count * 2 ^ p.size) w) }) else s) s
  { s with pools := s.pools.filter (fun e => e.2.plot != n) }

/-- The spans of buffer memory in use on a die, ascending. -/
def dieSpans (s : State) (j : Nat) : List (Nat × Nat) :=
  sortBy (fun a b => decide (a.1 ≤ b.1)) ((s.pools.filter (fun e => e.2.loc == 1 && e.2.unit == j && e.2.count != 0)).map (fun e =>
    (e.2.base, e.2.base + e.2.count * 2 ^ e.2.size)))

/-- The first place of `len` bytes from `a` on, clear of the spans and inside the die's 24 MiB: where the device puts a port-die pool.
Log entry 38. -/
def firstPlace (len : Nat) : Nat → List (Nat × Nat) → Option Nat
  | a, [] => if a + len ≤ 24 * 2 ^ 20 then some a else none
  | a, (lo, hi) :: r => if a + len ≤ lo then some a else firstPlace len (max a hi) r

/-- A die's buffer memory with its pools moved down, in ascending order, until no gap is left: where no gap holds a pool that admission
let in. Contents and uncorrectable words move with their pool. Log entry 38. -/
def compactGo (d : Dovecote) : Nat → List (Nat × Pool) → Dovecote × List (Nat × Nat)
  | _, [] => ({ d with mem := [], badWords := [] }, [])
  | at_, (id, p) :: r =>
    let len := p.count * 2 ^ p.size
    let (e, moves) := compactGo d (at_ + len) r
    let mine (a : Nat) : Bool := decide (p.base ≤ a) && decide (a < p.base + len)
    ({ e with
      mem := (d.mem.filter (fun c => mine c.1)).map (fun c => (c.1 - p.base + at_, c.2)) ++ e.mem
      badWords := (d.badWords.filter (fun w => mine (32 * w))).map (fun w => (32 * w - p.base + at_) / 32) ++ e.badWords }, (id, at_) :: moves)

def compactDie (s : State) (j : Nat) : State :=
  let ps := sortBy (fun a b => decide (a.2.base ≤ b.2.base)) (s.pools.filter (fun e => e.2.loc == 1 && e.2.unit == j && e.2.count != 0))
  let (d, moves) := compactGo (dieAt s j) 0 ps
  moves.foldl (fun s m => match poolAt? s m.1 with
    | some p => setPool s m.1 { p with base := m.2 }
    | none => s) (modDie s j (fun _ => d))

/-- Where a die has room for `len` bytes, its pools moved down first if no gap is wide enough. -/
def dieRoom (s : State) (j len : Nat) : State × Nat :=
  match firstPlace len 0 (dieSpans s j) with
  | some a => (s, a)
  | none =>
    let s := compactDie s j
    (s, (dieSpans s j).foldl (fun m e => max m e.2) 0)

/-- The lowest module pool id that is free (R189). -/
def freePool (s : State) : Nat := ((List.range 256).find? (fun p => (poolAt? s p).isNone)).getD 255

/-- Where a pool of an image lies: the unit and the location of buffer 0 (R187, R193); `prev` is the end of the pools before it in
its window. -/
def poolPlace (s : State) (n : Nat) (p : PoolDecl) (prev : Nat) : State × Nat × Nat :=
  match p.loc with
  | 0 => (s, (pavOfRel s n p.unit).getD 0, ceilDiv prev (2 ^ p.size) * 2 ^ p.size)
  | 1 =>
    let j := ((portsOfPlot s n)[p.unit]?.map (· / 4)).getD 0
    let (s, a) := dieRoom s j (p.count * 2 ^ p.size)
    (s, j, a)
  | _ => (s, 0, p.hbmOff * 256)

/-- Create the pools of an image in declaration order; `ends` holds the end of each pavilion's window pools so far. -/
def createPoolsGo (n : Nat) (img : Image) : Nat → Tbl Nat → List PoolDecl → State → State
  | _, _, [], s => s
  | rel, ends, p :: r, s =>
    let prev := match ends.find? (fun e => e.1 == p.unit) with | some e => e.2 | none => windowBase img p.unit
    let (s, unit, base) := poolPlace s n p prev
    let ends := if p.loc = 0 then tblSet ends p.unit (base + poolBytes p) else ends
    let s := setPool s (freePool s) { plot := n, rel := rel, loc := p.loc, unit := unit, size := p.size, count := p.count, base := base }
    createPoolsGo n img (rel + 1) ends r s

/-- A plot's pools at its activation (R189). -/
def createPools (s : State) (n : Nat) (img : Image) : State := createPoolsGo n img 0 [] img.pools (destroyPools s n)

/-! ### Descriptors (R200, R208, R224) -/

/-- The descriptors of a plot on a die. -/
def descsOn (s : State) (n j : Nat) : List (Nat × Desc) := (dieAt s j).descs.filter (fun e => e.2.plot == n)

/-- The segments held at ingress of a die for descriptors that are going: they are dropped there with a status. -/
def dropHeld (s : State) (n j : Nat) (k : RecKind) (st : U16) (b2 : Bool) : State :=
  let mine := (dieAt s j).held.filter (fun h => match descAt? s j h.idx with
    | some d => d.plot == n && (b2 || d.b2.isNone)
    | none => false)
  let s := modDie s j (fun x => { x with held := x.held.filter (fun h => !mine.contains h) })
  mine.foldl (fun s h => freeRx (dropSeg s j k st h.pkt) h.link h.pkt) s

/-- Under a plot reset every run is abandoned: staging buffers released, the completion record written with COLL_ABORTED, no
signal; what they relayed provisionally is retracted, and the descriptors go (R215, R224). -/
def abortDescs (s : State) (n : Nat) : State :=
  (List.range 16).foldl (fun s j =>
    let s := dropHeld s n j rkCollSegInvalid stNoDescriptor true
    (descsOn s n j).foldl (fun s e => dropDesc (if e.2.triggered then writeRecord s e.2 stCollAborted else s) j e.1 e.2) s) s

/-- Activation takes the old image's descriptors away: segments staged for their next run are released and counted as STALE_RUN
(R224). Descriptors built for B2 launches belong to no image and stay (log entry 39). -/
def retireDescs (s : State) (n : Nat) : State :=
  (List.range 16).foldl (fun s j =>
    let s := dropHeld s n j rkCollStale stStaleRun false
    ((descsOn s n j).filter (fun e => e.2.b2.isNone)).foldl (fun s e =>
      e.2.early.foldl (fun s g => dropSeg s j rkCollStale stStaleRun g.pkt) (dropDesc s j e.1 e.2)) s) s

/-- Put the descriptors of an image on their dies, armed, each indexed in section order and then position order on its die, with
the declared trigger counters (R200, R208, R177). -/
def placeDescs (s : State) (n : Nat) (img : Image) : State :=
  let s := (List.range 16).foldl (fun s j => modDie s j (fun x => { x with trigs := x.trigs.filter (fun t => t.plot != n) })) s
  img.descs.foldl (fun s c => match (portsOfPlot s n)[c.port]? with
    | none => s
    | some p =>
      let j := p / 4
      let new := c.inits.zipIdx.map (fun (v, i) => TrigCtr.mk n i { value := v, poison := false })
      let s := modDie s j (fun x => { x with trigs := x.trigs ++ new })
      c.descs.foldl (fun s w =>
        let rel := ((descsOn s n j).filter (fun e => e.2.b2.isNone)).length
        setDesc s j (freeIndex s j) { plot := n, rel := rel, img := w }) s) s

/-! ### Activation (R165) -/

/-- The shadow bank of an engine takes a stream, and TILE's shadow store a program store (R163, R104). -/
def setShadow (e : Engine) (ws : List (BitVec 128)) (st : List (BitVec 32)) : Engine :=
  if e.active then { e with bank0 := ws, store0 := st } else { e with bank1 := ws, store1 := st }

/-- The commands of an engine's shadow bank. -/
def shadowBank (e : Engine) : List (BitVec 128) := if e.active then e.bank0 else e.bank1

/-- Load the shadow banks of a plot's engines from an image; an engine without a stream has none (R157, R158). -/
def loadShadow (s : State) (n : Nat) (img : Image) : State :=
  (engsOfPlot s n).foldl (fun s u =>
    let rel := relOfPav s n u.pav
    let ws := match img.streams.find? (fun t => t.1 == rel && t.2.1 == u.eng) with | some t => t.2.2 | none => []
    let st := if u.eng = 0 then (match img.stores.find? (fun t => t.1 == rel) with | some t => t.2 | none => []) else []
    modEng s u (fun e => setShadow e ws st)) s

/-- Empty the shadow banks of a plot's engines. -/
def clearShadow (s : State) (n : Nat) : State := (engsOfPlot s n).foldl (fun s u => modEng s u (fun e => setShadow e [] [])) s

/-- An engine's shadow bank becomes active and its program starts at index 0. -/
def switchBank (e : Engine) : Engine :=
  let e := { engEmpty e with active := !e.active }
  let runs := !(activeBank e).isEmpty
  { e with program := runs, fetchPc := 0, pf := 0, halted := false, mode := if runs then .running else .idle, retired := 0, faultWord := 0 }

/-- A unit is quiescent at this tick (R164). -/
def engQuiet (s : State) (n : Nat) (u : EngRef) : Bool :=
  let e := engAt s u
  !e.program || e.halted ||
  (e.mode == .running && (match e.inflight.getLast? with
    | some f => (match f.cmd.op with | .frame _ => decide (e.pf ≤ programFrame s n) | _ => false)
    | none => false))

def dieQuiet (s : State) (n j : Nat) : Bool := (descsOn s n j).all (fun e => !e.2.triggered)

/-- The units of a plot that are not quiescent: plot-relative pavilion, ENG (15 for a Dovecote, whose unit is its die), head TAG; in the
order of R161. -/
def blockers (s : State) (n : Nat) : List (Nat × Nat × BitVec 16) :=
  ((engsOfPlot s n).filter (fun u => !engQuiet s n u)).map (fun u =>
    (relOfPav s n u.pav, u.eng, (match (engAt s u).queue with | q :: _ => q.cmd.hdr.tag | [] => 0))) ++
  ((List.range 16).filter (fun j => !dieQuiet s n j)).map (fun j => (j, 15, 0))

/-- A plot may be activated at this tick (R165, R368). -/
def mayActivate (s : State) (n : Nat) : Bool :=
  let p := plotAt s n
  !p.held && p.state != 3 && p.state != 4 && !holdPending s n && (blockers s n).isEmpty

/-- The plot needs a spray key drawn at its activation: the first since its load state was 0 (R316). -/
def needsSpray (s : State) (n : Nat) : Bool := !(plotAt s n).sprayHeld

/-- A pending activation takes place at this tick: a key that the failed entropy source cannot draw keeps it back (R165, R340). -/
def activates (s : State) (n : Nat) : Bool := mayActivate s n && !(s.gate.entropyFailed && needsSpray s n)

/-- Draw a plot's spray key from the DRBG (R316, R340). -/
def drawSpray (s : State) (n : Nat) : State :=
  if needsSpray s n then
    let k := Config.drbg s.gate.draws
    let s := { s with gate := { s.gate with draws := s.gate.draws + 1 } }
    modPlot s n (fun p => { p with sprayKey := k, sprayHeld := true, spraySerial := p.spraySerial + 1, sprayTick := s.sd.ticks })
  else s

/-- The declared counters take their values and every other counter of the pavilion 0; all flags are cleared (R165, R177). -/
def initCtrs (v : Pavilion) (ds : List CtrDecl) : Pavilion :=
  { v with vl := 512, ctrs := (List.range 64).map (fun c =>
      (c, { value := match ds.find? (fun d => d.ctr == c) with | some d => d.init | none => 0, poison := false : Counter })) }

/-- Write an image's static data: SRAM records to the pavilions of the binding, HBM records through the region (R411). -/
def writeStatics (s : State) (n : Nat) (img : Image) : State :=
  img.statics.foldl (fun s c => c.2.foldl (fun s r =>
    if r.hbm then placePut s n (.hbm n r.addr) r.data
    else match pavOfRel s n c.1 with
      | some i => placePut s n (.sram i r.addr) r.data
      | none => s) s) s

/-- The one atomic act of R165 for a plot and its shadow image. -/
def activate (s : State) (n : Nat) (img : Image) : State :=
  let s := drawSpray s n
  let s := (engsOfPlot s n).foldl (fun s u => modEng s u switchBank) s
  let s := (pavsOfPlot s n).foldl (fun s i => modPav s i (fun v =>
    initCtrs v (match img.ctrs.find? (fun c => c.1 == relOfPav s n i) with | some c => c.2 | none => []))) s
  let s := retireDescs s n
  let s := createPools s n img
  let s := placeDescs s n img
  let s := writeStatics s n img
  let s := { s with coll := { s.coll with rowStats := s.coll.rowStats.filter (fun r => r.plot != n) } }
  let s := modPlot s n (fun p => { p with
    image := some img, shadow := none, shadowDirty := false, loadState := 4, state := if p.state = 0 then 1 else p.state,
    startFrame := s.sd.ticks, dropped := 0, ctrLimits := 0, quiet := 0, runFrames := 0, heldFrames := 0, stepAdvances := 0 })
  emit s rkLoadActivated srcMgmt (some n) []

/-! ### Plot reset (R182) -/

/-- Tick T of a plot reset: waiting heads end, what other engines had issued is discarded, counters and trigger counters are poisoned, runs are abandoned, pools destroyed; HELD,
the
job seed, the shadow image and what is admitted are cleared; its shards abandon their steps (R162, R166, R181, R182, R189, R224, R266,
Table 14.3). -/
def resetPlotT (s : State) (n : Nat) : State :=
  let s := (engsOfPlot s n).foldl (poisonEngine (fun e => if e.mode == .fault then engEmpty e else engHalt e)) s
  let s := (pavsOfPlot s n).foldl (fun s i => modPav s i poisonPav) s
  let s := (List.range 16).foldl (fun s j => modDie s j (fun x => { x with
    trigs := x.trigs.map (fun t => if t.plot == n then { t with ctr := ctrPoison t.ctr } else t) })) s
  let s := abortDescs s n
  let s := destroyPools s n
  let s := resetShards s n
  modPlot s n (fun p => { p with
    state := 4, held := false, pendHold := 0, causes := 0, seed := 0, shadow := none, shadowDirty := false, image := none, loading := [],
    loadState := 0, actTicks := 0, pendingCmd := none, quiet := 0, sprayKey := 0, sprayHeld := false, resetTick := s.sd.ticks })

/-- Tick T + 1: every engine is idle with no program and its state is that of Table 4.2; the fault word stays (R182, Table 17.7). -/
def resetPlotDone (s : State) (n : Nat) : State :=
  let s := (engsOfPlot s n).foldl (fun s u => modEng s u engIdle) s
  let s := (pavsOfPlot s n).foldl (fun s i => modPav s i enginesState) s
  modPlot s n (fun p => { p with state := 0 })

end Sys2Proof.Machine
end

