-- ==== Sys2Proof/Machine/Lodge.lean ====
section
/-! DEFINITION. The Lodge (R377–R387): membership tables, accusations, rounds, commits, adoption, pulls and probes. -/

namespace Sys2Proof.Machine

/-! ### LODGE packets (Table 16.7) -/

def lDomain (p : Pkt) : BitVec 32 := p.op.extractLsb' 224 32
def lType (p : Pkt) : Nat := field p.op 220 4
def lEpoch (p : Pkt) : Nat := field p.op 204 16
def lOrigin (p : Pkt) : BitVec 24 := p.op.extractLsb' 180 24
def lOidx (p : Pkt) : Nat := field p.op 162 18
def lSubj (p : Pkt) : Nat := field p.op 144 18
def lPart (p : Pkt) : Nat := field p.op 136 8
def lLast (p : Pkt) : Bool := bitAt p.op 135

/-- The plot whose table a packet's DOMAIN matches (R379). -/
def lodgePlot (s : State) (p : Pkt) : Option Nat := allPlots.find? (fun n => (domAt s n).state != 0 && (domAt s n).id == lDomain p)

/-- The links that a plot's flooded packets leave on: every ACTIVE link of its port mask but one. -/
def floodLinks (s : State) (n : Nat) (but : Option Nat) : List Nat :=
  (List.range 128).filter (fun l => active s l && (plotAt s n).portMask.getLsbD (linkPort l) && some l != but)

/-- Send a packet on every link it floods. -/
def flood (s : State) (n : Nat) (but : Option Nat) (p : Pkt) : State := (floodLinks s n but).foldl (fun s l => handOff s l 128 p) s

def seenKey (p : Pkt) : Nat × Nat × Nat × Nat × Nat := (lType p, lEpoch p, lOidx p, lSubj p, lPart p)

/-- Flood a packet of this module, and note it as seen. -/
def originate (s : State) (n : Nat) (p : Pkt) : State := modDom (flood s n none p) n (fun d => { d with seen := addNew d.seen (seenKey p) })

/-- Forward the first copy of a flooded packet, where `ok`. -/
def forward (s : State) (n l : Nat) (p : Pkt) (ok : Bool) : State :=
  if (domAt s n).seen.contains (seenKey p) || !ok then s
  else modDom (flood s n (some l) p) n (fun d => { d with seen := addNew d.seen (seenKey p) })

/-- A LODGE packet of a type: switched where it does not end here, discarded where its DOMAIN matches no table, else taken. -/
def onLodge (s : State) (l : Nat) (p : Pkt) (type : Nat) (act : State → Nat → State) : State :=
  if lType p ≠ type then s
  else onPacket s l p [opLodge] (fun s =>
    if !endsHere s l p then switchPkt s l p
    else match lodgePlot s p with
      | none => freeRx s l p
      | some n => freeRx (act s n) l p)

/-! ### Bitmaps (R379) -/

def partBits : Nat := 30720
/-- Parts of a bitmap over the members. -/
def nParts (m : Nat) : Nat := max 1 ((m + partBits - 1) / partBits)

/-- Bytes of part `k` of the bitmap of a set. -/
def partBytes (m : Nat) (set : List Nat) (k : Nat) : List Byte :=
  (List.range ((min partBits (m - k * partBits) + 7) / 8)).map (fun i =>
    BitVec.ofNat 8 (sumN ((List.range 8).map (fun b => if set.contains (k * partBits + 8 * i + b) then 2 ^ b else 0))))

/-- The members a part names. -/
def partSet (k : Nat) (bs : List Byte) : List Nat :=
  bs.zipIdx.flatMap (fun (b, i) => (bitsSet b 8).map (fun j => k * partBits + 8 * i + j))

/-! ### Members -/

def isDead (d : Domain) (i : Nat) : Bool := d.dead.contains i
/-- Members alive at the current epoch. -/
def aliveOf (d : Domain) : List Nat := (List.range d.members.length).filter (fun i => !isDead d i)
/-- The warden: the live module member of lowest index (R380). -/
def wardenOf (d : Domain) : Option Nat := d.members.zipIdx.find? (fun (m, i) => !m.endpoint && !isDead d i) |>.map (·.2)
/-- Accused members: those with ACCUSEs from CONF distinct neighbours (R380). -/
def accused (d : Domain) : List Nat :=
  (d.members.zipIdx.filter (fun (m, i) => !isDead d i && decide (m.conf ≤ (d.accusals.filter (fun a => a.1 == i)).length))).map (·.2)
/-- The index of an endpoint id in the table. -/
def memberOf (d : Domain) (epid : BitVec 24) : Option Nat := d.members.findIdx? (fun m => m.epid == epid)

/-- The Lodge takes part in rounds for this plot. -/
def lodgeOpen (d : Domain) : Bool := d.state == 1 || d.state == 2

/-- NOQUORUM, or the epoch's end: the plot holds, keeping its epoch (R382, R385). -/
def noQuorum (s : State) (n : Nat) (st : U16) : State :=
  let s := plainHold s [n] hcNoQuorum
  let s := modDom s n (fun d => { d with state := 3, round := none })
  emit s rkLodgeNoQuorum srcModule (some n) [(16, st.toNat)]

/-- An accusation at the current epoch is held; at epoch 0xFFFE an accused member ends in NO_QUORUM (R380, R385). -/
def addAccusal (s : State) (n subj by_ : Nat) : State :=
  let s := modDom s n (fun d => { d with accusals := addNew d.accusals (subj, by_) })
  if (plotAt s n).epoch == 0xFFFE && lodgeOpen (domAt s n) && !(accused (domAt s n)).isEmpty then noQuorum s n stEpochLimit else s

/-! ### Suspicion (R378) -/

/-- The links whose partner, once ACTIVE, is a neighbour. -/
def linksTo (s : State) (epid : BitVec 24) : List Nat :=
  (s.net.links.filter (fun e => !e.2.init.isEmpty && e.2.partner.extractLsb' 0 24 == epid)).map (·.1)

/-- Four consecutive heartbeats missed on every link to the neighbour, or no link to it ACTIVE. -/
def silent (s : State) (epid : BitVec 24) : Bool :=
  let ls := linksTo s epid
  !ls.isEmpty && ls.all (fun l => !active s l || decide (4 ≤ (linkAt s l).hbMissed))

/-- ACCUSE a neighbour in one domain that lists both. -/
def accuseIn (s : State) (n : Nat) (epid : BitVec 24) : State :=
  let d := domAt s n
  if !lodgeOpen d then s
  else match memberOf d epid with
    | none => s
    | some i =>
      let s := originate s n (lodgePkt s n 0xFFFFFE 0 (plotAt s n).epoch.toNat (selfId s).toNat d.self i 0 false [])
      addAccusal s n i d.self

/-- NEIGHBOUR_SUSPECT. -/
def execNeighbourSuspect (epid : BitVec 24) (s : State) : Host.Outcome State Fault Refusal :=
  if !silent s epid || s.lodge.suspects.contains epid then done s
  else
    let s := { s with lodge := { s.lodge with suspects := s.lodge.suspects ++ [epid] } }
    let s := emit s rkLodgeSuspect srcModule none []
    done (allPlots.foldl (fun s n => accuseIn s n epid) s)

/-! ### The membership table (R377) -/

def memberOfEntry (v : Nat) : Member :=
  { epid := BitVec.ofNat 24 (fieldN v 40 24), endpoint := fieldN v 39 1 == 1, conf := fieldN v 37 2, twin := fieldN v 19 18, ps := fieldN v 18 1 == 1 }

/-- The conditions of R377 on the bytes of a table. -/
def tableOk (s : State) (bs : List Byte) : Bool :=
  let h := numAt bs 0 16
  let m := fieldN h 78 18
  let es := (pieces 8 (bs.drop 16)).map leNat
  let epoch := fieldN h 44 16
  m != 0 && bs.length == 16 + 8 * m && fieldN h 0 44 == 0 && epoch != 0 && epoch != 0xFFFF && decide (m ≤ 262143) &&
  (match es[fieldN h 60 18]? with
    | some v => fieldN v 39 1 == 0 && fieldN v 40 24 == (selfId s).toNat
    | none => false) &&
  es.all (fun v => (fieldN v 37 2 == 1 || fieldN v 37 2 == 2) && (decide (fieldN v 19 18 < m) || fieldN v 19 18 == 0x3FFFF) && fieldN v 0 18 == 0)

/-- MEMBERSHIP_TABLE_WRITE: while the plot's load state is 0; the epoch is set, the dead map cleared, and the Lodge runs. -/
def execMembershipTableWrite (q : KReq) (d : DomSeg) (s : State) : Host.Outcome State Fault Refusal :=
  done (kioskDom s q 0x9100 0x02 2097160 d (fun s x all =>
    let n := x.domSel.toNat
    let h := numAt all 0 16
    if !tableOk s all then .error stKioskRange
    else if (plotAt s n).loadState ≠ 0 then .error stKioskState
    else
      let o := domAt s n
      let new : Domain := {
        bytes := all, id := BitVec.ofNat 32 (fieldN h 96 32), self := fieldN h 60 18,
        members := ((pieces 8 (all.drop 16)).map leNat).map memberOfEntry, state := 1, claim := o.claim, drops := o.drops,
        decisions := o.decisions, lastDecision := o.lastDecision }
      .ok (modPlot (setDom s n new) n (fun p => { p with epoch := BitVec.ofNat 16 (fieldN h 44 16) }))))

/-! ### Accusations and rounds (R380, R381) -/

/-- ACCUSE: flooded on, and counted at the current epoch. -/
def execAccuse (link : Nat) (p : Pkt) (s : State) : Host.Outcome State Fault Refusal :=
  done (onLodge s link p 0 (fun s n =>
    let s := forward s n link p true
    if lEpoch p = (plotAt s n).epoch.toNat ∧ lodgeOpen (domAt s n) = true then addAccusal s n (lSubj p) (lOidx p) else s))

/-- Flood every part of a bitmap packet of a type. -/
def floodMap (s : State) (n type epoch : Nat) (set : List Nat) : State :=
  let d := domAt s n
  let k := nParts d.members.length
  (List.range k).foldl (fun s i =>
    originate s n (lodgePkt s n 0xFFFFFE type epoch (selfId s).toNat d.self 0x3FFFF i (i + 1 == k) (partBytes d.members.length set i))) s

/-- A round begins with a flooded PROPOSE for e + 1 that carries the accused members. -/
def startRound (s : State) (n : Nat) : State :=
  let d := domAt s n
  let e := (plotAt s n).epoch.toNat + 1
  let who := accused d
  let s := setDom s n { d with
    state := 2, proposed := some d.self, round := some { epoch := BitVec.ofNat 16 e, suspects := who, acks := [], started := s.sd.ticks } }
  floodMap s n 1 e who

/-- An accused member is held, and no round is open here. -/
def mayRound (s : State) (n : Nat) : Bool :=
  let d := domAt s n
  lodgeOpen d && !(accused d).isEmpty && d.round.isNone && d.coming.isNone && d.proposed.isNone && decide ((plotAt s n).epoch.toNat < 0xFFFE)

/-- ROUND_START: the warden. -/
def execRoundStart (n : Nat) (s : State) : Host.Outcome State Fault Refusal :=
  let d := domAt s n
  if mayRound s n && wardenOf d == some d.self then done (startRound s n) else done s

/-- ROUND_TAKEOVER: any other module, no PROPOSE or COMMIT having come within the takeover delay. -/
def execRoundTakeover (n : Nat) (s : State) : Host.Outcome State Fault Refusal :=
  let d := domAt s n
  if mayRound s n && wardenOf d != some d.self && decide (s.lodge.takeover.toNat ≤ d.accusedTicks) then
    done (emit (startRound s n) rkLodgeTakeover srcModule (some n) [])
  else done s

/-- A proposal of this index is the lowest so far, or a further part of it. -/
def lowest (d : Domain) (oidx : Nat) : Bool := match d.proposed with | none => true | some o => decide (oidx ≤ o)

/-- PROPOSE: forwarded and ACKed when none of a lower index has come; a proposer gives way to a lower one. -/
def execPropose (link : Nat) (p : Pkt) (s : State) : Host.Outcome State Fault Refusal :=
  done (onLodge s link p 1 (fun s n =>
    let d := domAt s n
    if lEpoch p ≠ (plotAt s n).epoch.toNat + 1 ∨ lodgeOpen d = false ∨ lowest d (lOidx p) = false then s
    else
      let new := d.proposed != some (lOidx p)
      let s := forward s n link p true
      if !new then s
      else
        let s := modDom s n (fun d => { d with proposed := some (lOidx p), round := none, state := 2 })
        sendOut s none (lodgePkt s n (lOrigin p) 2 (lEpoch p) (selfId s).toNat d.self 0x3FFFF 0 false [])))

/-- ACK: the proposer records a present member. -/
def execAck (link : Nat) (p : Pkt) (s : State) : Host.Outcome State Fault Refusal :=
  done (onLodge s link p 2 (fun s n =>
    match (domAt s n).round with
    | some r => if r.epoch.toNat = lEpoch p then modDom s n (fun d => { d with round := some { r with acks := addNew r.acks (lOidx p) } }) else s
    | none => s))

/-! ### The close (R381, R382) -/

/-- The present members: the proposer and every live member that ACKed. -/
def presentOf (d : Domain) (r : Round) : List Nat := (aliveOf d).filter (fun i => i == d.self || r.acks.contains i)

/-- Every member not accused has ACKed. -/
def allAcked (d : Domain) (r : Round) : Bool := (aliveOf d).all (fun i => i == d.self || r.suspects.contains i || r.acks.contains i)

/-- A strict majority is present, and of every live member with PS set it or its twin. -/
def quorum (d : Domain) (present : List Nat) : Bool :=
  decide ((aliveOf d).length < 2 * present.length) &&
  (aliveOf d).all (fun i => match d.members[i]? with
    | some m => !m.ps || present.contains i || present.contains m.twin
    | none => true)

/-- The nanoseconds of a period (Table 2.1). -/
def periodNs (code : Nat) : Nat := match code with | 0 => 2048 | 1 => 4096 | _ => 8192

/-- The collection window of a round is over: its microseconds have passed since the tick of its PROPOSE (R381). -/
def windowEnded (s : State) (r : Round) : Bool :=
  decide (1000 * s.lodge.window.toNat ≤ (s.sd.ticks - r.started).toNat * periodNs s.sd.periodEff.toNat)

/-- ROUND_CLOSE: at all ACKs or the window's end, COMMIT with the dead set, or NOQUORUM. -/
def execRoundClose (n : Nat) (windowOver : Bool) (s : State) : Host.Outcome State Fault Refusal :=
  let d := domAt s n
  match d.round with
  | none => done s
  | some r =>
    if !((windowOver && windowEnded s r) || allAcked d r) then done s
    else
      let present := presentOf d r
      let dead := (List.range d.members.length).filter (fun i => !present.contains i)
      let s := modDom s n (fun d => { d with round := none })
      if quorum d present then
        let c : CommitMsg := {
          epoch := r.epoch, origin := selfId s, oidx := d.self, dead := dead, parts := List.range (nParts d.members.length),
          last := some (nParts d.members.length - 1) }
        done (modDom (floodMap s n 3 r.epoch.toNat dead) n (fun d => { d with coming := some c }))
      else
        let s := originate s n (lodgePkt s n 0xFFFFFE 4 r.epoch.toNat (selfId s).toNat d.self 0x3FFFF 0 false [])
        done (noQuorum s n stNoQuorum)

/-! ### Commits (R383, R384) -/

/-- A part of a COMMIT joins the one under reception. -/
def takePart (c : Option CommitMsg) (p : Pkt) : CommitMsg :=
  let fresh : CommitMsg := { epoch := BitVec.ofNat 16 (lEpoch p), origin := lOrigin p, oidx := lOidx p, dead := [], parts := [], last := none }
  let c := match c with
    | some c => if c.epoch.toNat = lEpoch p then c else fresh
    | none => fresh
  if c.oidx ≠ lOidx p ∨ c.parts.contains (lPart p) then c
  else { c with
    dead := c.dead ++ partSet (lPart p) p.body, parts := c.parts ++ [lPart p],
    last := if lLast p then some (lPart p) else c.last }

/-- Every part of a COMMIT has come. -/
def complete (c : CommitMsg) : Bool := match c.last with | some k => (List.range (k + 1)).all (fun i => c.parts.contains i) | none => false

/-- COMMIT: flooded on, and kept for adoption. -/
def execCommit (link : Nat) (p : Pkt) (s : State) : Host.Outcome State Fault Refusal :=
  done (onLodge s link p 3 (fun s n =>
    let s := forward s n link p true
    let d := domAt s n
    if lEpoch p ≠ (plotAt s n).epoch.toNat + 1 ∨ d.state = 4 then s
    else modDom s n (fun d => { d with coming := some (takePart d.coming p) })))

/-- Provisional segments of a fenced epoch are as if retracted: those staged, and those that wait at ingress (R216). -/
def voidProvisional (s : State) (n : Nat) : State :=
  let s := { s with coll := { s.coll with psWait := s.coll.psWait.filter (fun q => q.plot.toNat != n) } }
  (List.range 16).foldl (fun s j =>
    let x := dieAt s j
    let waiting := x.held.filter (fun h => h.pkt.prov && h.pkt.plot.toNat == n)
    let s := freeBufs s ((x.descs.filter (fun e => e.2.plot == n)).flatMap (fun e => e.2.provIn.map (·.buf)))
    let s := modDie s j (fun x => { x with
      descs := x.descs.map (fun e => if e.2.plot == n then (e.1, { e.2 with provIn := [] }) else e)
      held := x.held.filter (fun h => !waiting.contains h) })
    waiting.foldl (fun s h => freeRx s h.link h.pkt) s) s

/-- This member adopts epoch e + 1: the dead set joins the dead map, the plot holds, and shards that await a dead twin compare. -/
def adoptEpoch (s : State) (n : Nat) (c : CommitMsg) : State :=
  let s := plainHold (modPlot s n (fun p => { p with epoch := c.epoch })) [n] hcMemberLost
  let s := modDom s n (fun d => { d with
    dead := c.dead.foldl addNew d.dead, state := if d.state = 2 then 1 else d.state, coming := none, accusals := [], accusedTicks := 0,
    proposed := none, round := none, seen := d.seen.filter (fun k => decide (c.epoch.toNat ≤ k.2.1)),
    kept := let k := d.kept ++ [c]; k.drop (k.length - 16), decisions := d.decisions + 1, lastDecision := s.sd.ticks })
  let s := emit (voidProvisional s n) rkLodgeCommit srcModule (some n) []
  s.shards.foldl (fun s e => if ePlot e.2.entry == n then compareShard s e.1 else s) s

/-- A complete COMMIT is adopted, or fences this member; a pending hold defers it (R368, R383). -/
def adoptNow (s : State) (n : Nat) : State :=
  let d := domAt s n
  match d.coming with
  | none => s
  | some c =>
    if !complete c || holdPending s n then s
    else if c.dead.contains d.self then
      let s := plainHold s [n] hcFenced
      let s := modDom s n (fun d => { d with state := 4, coming := none, round := none })
      emit s rkLodgeFenced srcModule (some n) []
    else adoptEpoch s n c

/-- EPOCH_ADOPT of one plot, an act of step 2 (R383). TICK performs it for every plot in its place; this row is the same act for a sender
that gives it singly (log entry 4). -/
def execEpochAdopt (n : Nat) (s : State) : Host.Outcome State Fault Refusal := done (adoptNow s n)

/-- NOQUORUM. -/
def execNoquorum (link : Nat) (p : Pkt) (s : State) : Host.Outcome State Fault Refusal :=
  done (onLodge s link p 4 (fun s n =>
    let s := forward s n link p true
    if lEpoch p = (plotAt s n).epoch.toNat + 1 ∧ lodgeOpen (domAt s n) = true then noQuorum s n stNoQuorum else s))

/-- The parts of a kept COMMIT go out on one link. -/
def resend (s : State) (n l : Nat) (c : CommitMsg) : State :=
  let m := (domAt s n).members.length
  (List.range (nParts m)).foldl (fun s i =>
    handOff s l 128 (lodgePkt s n 0xFFFFFE 3 c.epoch.toNat c.origin.toNat c.oidx 0x3FFFF i (i + 1 == nParts m) (partBytes m c.dead i))) s

/-- PULL: at a lower epoch than this module's, answered with the kept COMMITs from the sender's epoch upwards. -/
def execPull (link : Nat) (p : Pkt) (s : State) : Host.Outcome State Fault Refusal :=
  done (onLodge s link p 5 (fun s n =>
    if (plotAt s n).epoch.toNat ≤ lEpoch p then s
    else ((domAt s n).kept.filter (fun c => decide (lEpoch p < c.epoch.toNat))).foldl (fun s c => resend s n link c) s))

/-! ### Probes (R386) -/

/-- PROBE: answered with PROBE_REPLY. -/
def execProbe (link : Nat) (p : Pkt) (s : State) : Host.Outcome State Fault Refusal :=
  done (onLodge s link p 6 (fun s n =>
    let d := domAt s n
    sendOut s none (lodgePkt s n (lOrigin p) 7 (lEpoch p) (selfId s).toNat d.self (lSubj p) 0 false [])))

/-- The outcome of a probe: the claim result and LODGE_CLAIM. -/
def probeOver (s : State) (n : Nat) (r : BitVec 8) : State :=
  emit (modDom s n (fun d => { d with probe := none, claim := r })) rkLodgeClaim srcModule (some n) []

/-- PROBE_REPLY. -/
def execProbeReply (link : Nat) (p : Pkt) (s : State) : Host.Outcome State Fault Refusal :=
  done (onLodge s link p 7 (fun s n =>
    match (domAt s n).probe with
    | some (m, _) => if m = lSubj p ∧ m = lOidx p then probeOver s n 1 else s
    | none => s))

/-- PROBE_TIMEOUT: 16 ticks without an answer. -/
def execProbeTimeout (n : Nat) (s : State) : Host.Outcome State Fault Refusal :=
  match (domAt s n).probe with
  | some (_, t) => if t.toNat + 16 ≤ s.sd.ticks.toNat then done (probeOver s n 2) else done s
  | none => done s

/-- A claim that a member is dead: it is sent a PROBE. This module itself answers at once. -/
def claimDeadOn (s : State) (n m : Nat) : State :=
  let d := domAt s n
  let s := modDom s n (fun d => { d with probe := some (m, s.sd.ticks), claim := 0 })
  if m = d.self then probeOver s n 1
  else match d.members[m]? with
    | some e => sendOut s none (lodgePkt s n e.epid 6 (plotAt s n).epoch.toNat (selfId s).toNat d.self m 0 false [])
    | none => s

/-- A write of 0x9100:09 for the selected plot, by its bit 31. -/
def claimWrite (s : State) (q : KReq) (v : BitVec 32) : State :=
  kioskReq s q 0x9100 0x09 true (fun s x =>
    let n := x.domSel.toNat
    let d := domAt s n
    let m := field v 0 18
    if !ownsPlot x n then refuse s q stKioskAccess
    else if field v 18 13 ≠ 0 then refuse s q stKioskRange
    else if d.state = 0 ∨ d.members.length ≤ m then refuse s q stKioskState
    else if !bitAt v 31 then accept (claimDeadOn s n m) q
    else if isDead d m then emit (refuse s q stEpochFenced) rkLodgeClaim srcModule (some n) []
    else accept s q)

/-- CLAIM_DEAD. -/
def execClaimDead (q : KReq) (v : BitVec 32) (s : State) : Host.Outcome State Fault Refusal := done (claimWrite s q v)
/-- CLAIM_ALIVE. -/
def execClaimAlive (q : KReq) (v : BitVec 32) (s : State) : Host.Outcome State Fault Refusal := done (claimWrite s q v)

end Sys2Proof.Machine
end

