-- ==== Sys2Proof/Machine/Persist.lean ====
section
/-! DEFINITION. The persistent set (R361–R363): the RWS objects, their values as bytes, and the two journal slots. -/

namespace Sys2Proof.Machine

/-! ### RWS objects -/

/-- The RWS objects in ascending index:subindex order (Table 15.3). -/
def rwsObjects : List (Nat × Nat) :=
  [(0x1100, 0x06), (0x1100, 0x10), (0x1100, 0x11), (0x1100, 0x12), (0x1100, 0x13), (0x1100, 0x30), (0x1200, 0x01), (0x2000, 0x01), (0x2000, 0x02)] ++
  (List.range 64).flatMap (fun n => [(0x3000 + n, 0x01), (0x3000 + n, 0x03), (0x3000 + n, 0x0E), (0x3000 + n, 0x1E)]) ++
  (List.range 8).map (fun v => (0x3100, v + 1)) ++
  [(0x3200, 0x02), (0x3400, 0x03), (0x5900, 0x01), (0x5900, 0x03), (0x7000, 0x10), (0x8000, 0x10), (0x8000, 0x11), (0x9100, 0x06), (0x9100, 0x07),
    (0xA000, 0x32)]

/-- The value of a RWS object as bytes; 0x3200:02 has one byte for each plot. -/
def rwsGet (s : State) (index sub : Nat) : List Byte :=
  if 0x3000 ≤ index ∧ index ≤ 0x303F then
    let p := portAt s (index - 0x3000)
    match sub with
    | 0x01 => natLe 1 p.mode.toNat
    | 0x03 => natLe 4 p.expected.toNat
    | 0x0E => natLe 4 p.encMask.toNat
    | _ => natLe 4 p.encMaskB.toNat
  else match index, sub with
    | 0x1100, 0x06 => natLe 4 s.kiosk.idle.toNat
    | 0x1100, 0x10 => s.kiosk.anchorsSo
    | 0x1100, 0x11 => s.kiosk.anchorsFm
    | 0x1100, 0x12 => s.kiosk.anchorsPo
    | 0x1100, 0x13 => s.kiosk.anchorsOb
    | 0x1100, _ => s.kiosk.addrs
    | 0x1200, _ => natLe 1 s.sd.period.toNat
    | 0x2000, 0x01 => natLe 1 s.ar.b2Mode.toNat
    | 0x2000, _ => natLe 4 s.ar.b2Base.toNat
    | 0x3100, v => natLe 2 (s.net.credits.getD (v - 1) 0).toNat
    | 0x3200, _ => allPlots.map (fun n => (plotAt s n).window)
    | 0x3400, _ => natLe 4 s.route.self.toNat
    | 0x5900, 0x01 => natLe 4 s.coll.b2Enable.toNat
    | 0x5900, _ => natLe 2 s.coll.b2Reserve.toNat
    | 0x7000, _ => s.gate.trust
    | 0x8000, 0x10 => natLe 4 s.tele.collector.toNat
    | 0x8000, _ => natLe 1 s.tele.classes.toNat
    | 0x9100, 0x06 => natLe 4 s.lodge.window.toNat
    | 0x9100, _ => natLe 2 s.lodge.takeover.toNat
    | 0xA000, _ => natLe 1 s.power.preferred.toNat
    | _, _ => []

/-- A RWS object takes a value: what a write takes hold as, or a loaded snapshot gives. `sel` is the plot of a one-byte window. -/
def rwsPut (s : State) (index sub sel : Nat) (bs : List Byte) : State :=
  let v := leNat bs
  let u32 := BitVec.ofNat 32 v
  let u8 := BitVec.ofNat 8 v
  if 0x3000 ≤ index ∧ index ≤ 0x303F then
    let n := index - 0x3000
    let p := portAt s n
    match sub with
    | 0x01 => setPort s n { p with mode := u8 }
    | 0x03 => setPort s n { p with expected := u32 }
    | 0x0E => setPort s n { p with encMask := u32 }
    | _ => setPort s n { p with encMaskB := u32 }
  else match index, sub with
    | 0x1100, 0x06 => { s with kiosk := { s.kiosk with idle := u32 } }
    | 0x1100, 0x10 => { s with kiosk := { s.kiosk with anchorsSo := bs } }
    | 0x1100, 0x11 => { s with kiosk := { s.kiosk with anchorsFm := bs } }
    | 0x1100, 0x12 => { s with kiosk := { s.kiosk with anchorsPo := bs } }
    | 0x1100, 0x13 => { s with kiosk := { s.kiosk with anchorsOb := bs } }
    | 0x1100, _ => { s with kiosk := { s.kiosk with addrs := bs } }
    | 0x1200, _ => { s with sd := { s.sd with period := u8, periodSet := true } }
    | 0x2000, 0x01 => { s with ar := { s.ar with b2Mode := u8 } }
    | 0x2000, _ => { s with ar := { s.ar with b2Base := u32 } }
    | 0x3100, k => { s with net := { s.net with credits := s.net.credits.set (k - 1) (BitVec.ofNat 16 v) } }
    | 0x3200, _ =>
      if bs.length = 1 then modPlot s sel (fun p => { p with window := u8 })
      else bs.zipIdx.foldl (fun s (b, n) => if (plotAt s n).window == b then s else modPlot s n (fun p => { p with window := b })) s
    | 0x3400, _ => { s with route := { s.route with self := u32 } }
    | 0x5900, 0x01 => { s with coll := { s.coll with b2Enable := u32 } }
    | 0x5900, _ => { s with coll := { s.coll with b2Reserve := BitVec.ofNat 16 v } }
    | 0x7000, _ => { s with gate := { s.gate with trust := bs } }
    | 0x8000, 0x10 => { s with tele := { s.tele with collector := u32 } }
    | 0x8000, _ => { s with tele := { s.tele with classes := u8 } }
    | 0x9100, 0x06 => { s with lodge := { s.lodge with window := u32 } }
    | 0x9100, _ => { s with lodge := { s.lodge with takeover := BitVec.ofNat 16 v } }
    | 0xA000, _ => { s with power := { s.power with preferred := u8 } }
    | _, _ => s

/-- The persistent set of a state, in ascending order (R361). -/
def rwsSet (s : State) : List JEntry :=
  rwsObjects.map (fun (i, j) => { index := BitVec.ofNat 16 i, sub := BitVec.ofNat 8 j, value := rwsGet s i j : JEntry })

/-- Load a persistent set. -/
def rwsLoad (s : State) (es : List JEntry) : State := es.foldl (fun s e => rwsPut s e.index.toNat e.sub.toNat 0 e.value) s

/-- Values that take effect at a frame boundary are in effect: at power-good, before any tick. -/
def rwsInForce (s : State) : State :=
  { s with
    sd := { s.sd with periodEff := s.sd.period, periodSet := false }
    ar := { s.ar with b2ModeEff := s.ar.b2Mode, b2BaseEff := s.ar.b2Base }
    coll := { s.coll with b2ReserveEff := s.coll.b2Reserve }
    plots := s.plots.map (fun e => (e.1, { e.2 with windowEff := e.2.window })) }

/-! ### Slots (R361–R363) -/

/-- The newest valid slot, and whether it is B. -/
def newestSlot (j : Journal) : Option (Bool × JSlot) :=
  match j.a.valid, j.b.valid with
  | true, true => if j.a.seq.toNat < j.b.seq.toNat then some (true, j.b) else some (false, j.a)
  | true, false => some (false, j.a)
  | false, true => some (true, j.b)
  | false, false => none

/-- The slot a snapshot is written to: the one that does not hold the newest valid snapshot. -/
def targetB (j : Journal) : Bool := match newestSlot j with | some (b, _) => !b | none => false

def putSlot (j : Journal) (b : Bool) (x : JSlot) : Journal := if b then { j with b := x } else { j with a := x }

/-- One snapshot through the steps of Table 15.7: committed when a verify passes, on the first run or the second (R364). Otherwise the
target stays invalid and the old set in force. -/
def runSnapshot (j : Journal) (ok : Bool) (boot : BitVec 32) (zmark : Bool) (set : List JEntry) : Journal :=
  let t := targetB j
  let seq := match newestSlot j with | some (_, x) => x.seq + 1 | none => 1
  if ok then
    { putSlot j t { valid := true, seq := seq, zmark := zmark, boot := boot, payload := set } with snapshots := j.snapshots + 1, bootRetry := false }
  else putSlot j t {}

/-- The marker and the set that a snapshot commits. -/
def snapshotOf (s : State) (p : JPend) : Bool × List JEntry :=
  match p.zmark, p.entry with
  | some true, _ => (true, rwsSet s)
  | some false, _ => (false, rwsSet State.reset)
  | none, some e => (s.journal.zmark, rwsSet (rwsPut s e.index.toNat e.sub.toNat p.sel e.value))
  | none, none => (s.journal.zmark, rwsSet s)

/-- The journal when power goes with a snapshot due: the old set with the target invalid before the commit word is programmed, the new set
once it is (Table 15.7). Log entry 118. -/
def cutSnapshot (s : State) : Journal :=
  match s.journal.pend with
  | [] => s.journal
  | p :: _ =>
    let c := snapshotOf s p
    let step := Config.snapshotCut s.journal.cuts
    if step = 0 then s.journal else runSnapshot s.journal (decide (4 < step)) s.sd.boot c.1 c.2

end Sys2Proof.Machine
end

