-- ==== Sys2Proof/Machine/Shards.lean ====
section
/-! DEFINITION. The parameter service (chapter 10): shard entries, digests, twin messages, commits, commands, restores, the global norm
and the step counter. -/

namespace Sys2Proof.Machine

/-! ### Shard entries (R250) -/

/-- The byte ranges of a generation's arrays, as region offsets. -/
def genRanges (e : BitVec 512) (g : Nat) : List (Nat × Nat) := (arraySpans e).map (fun a => (eG e g + a.2.1, a.2.2))
def listRange (e : BitVec 512) : Nat × Nat := (eDlst e, 16 * nBlocks e)

def rangesMeet (a b : Nat × Nat) : Bool := decide (a.1 < b.1 + b.2) && decide (b.1 < a.1 + a.2)
def anyMeet (xs ys : List (Nat × Nat)) : Bool := xs.any (fun a => ys.any (rangesMeet a))

/-- What the written entry alone shows to be outside its permitted range (R248, R250, Table 10.1). -/
def entryInRange (e : BitVec 512) : Bool :=
  let r0 := genRanges e 0
  let r1 := genRanges e 1
  eM1 e != 3 && eM2 e != 3 && !(eFact e && (eM2 e != 0 || eFrows e == 0 || eNparam e % eFrows e != 0)) &&
  !(!eFact e && eFrows e != 0) && !(eWen e && !(eWfmt e == fFP32 || eWfmt e == fBF16 || eWfmt e == fE4M3 || eWfmt e == fE5M2)) &&
  eG e 0 % 256 == 0 && eG e 1 % 256 == 0 && eDlst e % 8 == 0 && eTthr e != 0 && eCinc e != 0 && eDpf e != 0 && decide (eDpf e ≤ 4) &&
  !anyMeet r0 r1 && !anyMeet (r0 ++ r1) [listRange e]

/-- What the present state forbids: a generation or list outside the region, an array of another shard of the plot, the hub limit, this
module as its own twin, a trigger counter another shard of the plot names (R250). -/
def entryFits (s : State) (n : Nat) (e : BitVec 512) : Bool :=
  let r := (plotAt s (ePlot e)).region
  let mine := genRanges e 0 ++ genRanges e 1 ++ [listRange e]
  let others := s.shards.filter (fun o => o.1 != n && shardValid o.2 && ePlot o.2.entry == ePlot e)
  mine.all (fun a => regIn r a.1 a.2) && decide (eDpf e ≤ hubLimit s) &&
  !others.any (fun o => anyMeet mine (genRanges o.2.entry 0 ++ genRanges o.2.entry 1)) &&
  !(eTwin e != 0xFFFFFF && s.route.self != 0x00FFFFFF && eTwin e == selfId s) &&
  !others.any (fun o => eTdie o.2.entry == eTdie e && eTctr o.2.entry == eTctr e)

/-- SHARD_ENTRY_WRITE: the entry of the selected shard. A valid one makes the shard idle at the plot's step; NPARAM 0 leaves it
invalid. -/
def execShardEntryWrite (q : KReq) (d : DomSeg) (s : State) : Host.Outcome State Fault Refusal :=
  done (kioskDom s q 0x6000 0x02 64 d (fun s x all =>
    let n := x.shardSel.toNat
    let h := shardAt s n
    let e := BitVec.ofNat 512 (leNat all)
    if all.length ≠ 64 then .error stKioskRange
    else if !(ownsPlot x (ePlot e) && (!shardValid h || ownsPlot x (ePlot h.entry))) then .error stKioskAccess
    else if field e 0 194 ≠ 0 then .error stKioskRange
    else if !entryInRange e then .error stKioskRange
    else if 1 < h.state then .error stKioskState
    else if !entryFits s n e then .error stKioskState
    else if eNparam e = 0 then .ok (setShard s n { h with entry := e, state := 0, todo := none })
    else
      let t := (plotAt s (ePlot e)).step
      .ok (setShard s n { h with
        entry := e, state := 1, gen := t.toNat % 2, step := t, cur := t, blocks := 0, local_ := [], twin := [], twinHdr := none,
        nextHdr := none, nextList := [], todo := none, cmds := [] })))

/-! ### Digest (R259–R261) -/

/-- A trigger counter that has reached its threshold: its state, when it may be taken (R130, R259). -/
def trigReady (s : State) (die plot rel thr : Nat) : Option Counter :=
  match trigAt? s die plot rel with
  | some t => if waitHolds t.ctr thr then some t.ctr else none
  | none => none

/-- Subtract a threshold from a trigger counter. -/
def trigTake (s : State) (die plot rel thr : Nat) (c : Counter) : State :=
  setTrig s die plot rel { c with value := c.value - BitVec.ofNat 16 thr }

/-- DIGEST_TRIGGER: an idle shard whose trigger counter reaches TTHR begins its digest, at the plot's step counter. -/
def execDigestTrigger (n : Nat) (s : State) : Host.Outcome State Fault Refusal :=
  let h := shardAt s n
  let e := h.entry
  let p := ePlot e
  match trigReady s (eTdie e) p (eTctr e) (eTthr e) with
  | none => done s
  | some c =>
    if h.state ≠ 1 then done s
    else
      let s := trigTake s (eTdie e) p (eTctr e) (eTthr e) c
      let cur := (plotAt s p).step
      let keep := h.hdrStep == cur
      done (setShard s n { h with
        state := 2, cur := cur, blocks := 0, local_ := [], waitTicks := 0, lateSaid := false, todo := none,
        twinHdr := if keep then h.twinHdr else none, twin := if keep then h.twin else [] })

/-- Blocks a shard has digested in the present frame. -/
def quotaOf (s : State) (h : Shard) : Nat := if h.quotaTick == s.sd.ticks then h.quotaUsed else 0

/-- The hub's digest unit may serve this shard now: its DPF and the hub limit leave room, and no shard of a lower number on the hub is
digesting with room under its DPF (R259). -/
def mayDigest (s : State) (n : Nat) : Bool :=
  let h := shardAt s n
  let hub := s.shards.filter (fun e => e.1 % 4 == n % 4)
  h.state == 2 && decide (h.blocks < nBlocks h.entry) && decide (quotaOf s h < eDpf h.entry) &&
  decide (sumN (hub.map (fun e => quotaOf s e.2)) < hubLimit s) &&
  !hub.any (fun e => decide (e.1 < n) && e.2.state == 2 && decide (e.2.blocks < nBlocks e.2.entry) && decide (quotaOf s e.2 < eDpf e.2.entry))

/-- The local copy is damaged: the digest stops, the plot holds and the twin hears of it (R260). -/
def damaged (s : State) (n a : Nat) : State :=
  let h := shardAt s n
  let p := ePlot h.entry
  let s := hbmUncorrected s a true
  let s := setShard s n { h with state := 6, record := commitRecord s h.cur 0xFFFFFFFF 0 stShardDamaged 0 }
  let s := plainHold (emit s rkPsDamaged (srcShard n) (some p) []) [p] hcShard
  sendHeader s n h.cur stShardDamaged

/-- DIGEST_BLOCK: one block of the new generation is digested and its entry written to the digest list. -/
def execDigestBlock (n : Nat) (x : Upset) (s : State) : Host.Outcome State Fault Refusal :=
  if !mayDigest s n then done s
  else
    let s := hbmUpset s x
    let h := shardAt s n
    let g := newGen h
    match blockBad s h.entry g h.blocks with
    | some a => done (damaged s n a)
    | none =>
      let d := blockDigest s h.entry g h.blocks
      let s := regWrite s (ePlot h.entry) (dlstOff h.entry g h.blocks) (natLe 8 d.toNat)
      done (setShard s n { h with
        blocks := h.blocks + 1, local_ := h.local_ ++ [d], quotaTick := s.sd.ticks, quotaUsed := quotaOf s h + 1 })

/-- DIGEST_COMPLETE: the header and list go to the twin, and the shard awaits the twin's. -/
def execDigestComplete (n : Nat) (s : State) : Host.Outcome State Fault Refusal :=
  let h := shardAt s n
  if h.state ≠ 2 ∨ h.blocks < nBlocks h.entry then done s
  else
    let s := sendList (sendHeader s n h.cur stOk) n h.cur h.local_
    done (compareShard (modShard s n (fun h => { h with state := 3, waitTicks := 0 })) n)

/-! ### Twin messages -/

/-- A digest header: of the present step or one deep (R262), or the header that opens a restore (R268). -/
def takeHeader (s : State) (p : Pkt) : State :=
  let n := mShard p
  let h := shardAt s n
  let cfg := BitVec.ofNat 512 (leNat p.body)
  if h.state = 7 then
    if cfg != eConfig h.entry then endRestore s n stTwinConfig
    else if h.restoreNew && mStep p != h.cur + 1 then endRestore s n stTwinSkew
    else checkBlocks (modShard s n (fun h => { h with
      restoreStep := some (mStep p), twinHdr := some (cfg, mStatus p), hdrStep := mStep p })) n
  else twinTake s n (mStep p) (fun h next => keepHeader h next (mStep p) cfg (mStatus p))

/-- Up to 480 entries of a digest list from POS. -/
def takeList (s : State) (p : Pkt) : State :=
  let n := mShard p
  let ds := ((pieces 8 p.body).take (mNel p)).map (fun b => BitVec.ofNat 64 (leNat b))
  if (shardAt s n).state = 7 then checkBlocks (modShard s n (fun h => { h with twin := putEntries h.twin (mPos p) ds })) n
  else twinTake s n (mStep p) (fun h next => keepList h next (mStep p) (mPos p) ds)

/-- The twin abandoned the step (R266). -/
def takeAbort (s : State) (p : Pkt) : State := twinTake s (mShard p) (mStep p) (fun h next => keepHeader h next (mStep p) 0 (mStatus p))

/-- A restore request: served, or answered with KIND 7 (R267). -/
def takeRequest (s : State) (p : Pkt) : State :=
  let n := mShard p
  match serveFrom s (shardAt s n) (bitAt (p.body.getD 0 0) 0) (mStep p) with
  | .ok st => serve s n st (if mNel p = 0 then none else some (mPos p))
  | .error e => toTwin s n 7 (mStep p) 0 0 e []

/-- Restore data: written, and each completed block digested and checked (R268). -/
def takeData (s : State) (p : Pkt) : State :=
  let n := mShard p
  if (shardAt s n).state = 7 then takeRestore s n (mStep p) (mPos p) (p.body.take (mNel p)) else s

/-- The twin's refusal ends the restore with its status. -/
def takeRefusal (s : State) (p : Pkt) : State := if (shardAt s (mShard p)).state = 7 then endRestore s (mShard p) (mStatus p) else s

/-! ### Commit (R263, R264) -/

/-- SHARD_COMMIT: at a tick at which the plot runs. -/
def execShardCommit (n : Nat) (s : State) : Host.Outcome State Fault Refusal :=
  let h := shardAt s n
  match h.todo with
  | some (st, fl) => if h.state = 4 ∧ mayCommit s (ePlot h.entry) = true then done (commitShard s n st fl) else done s
  | none => done s

/-- PS_TWIN_LATE: once per step, after 4,096 ticks. -/
def execPsTwinLate (n : Nat) (s : State) : Host.Outcome State Fault Refusal :=
  let h := shardAt s n
  if h.state ≠ 3 ∨ h.waitTicks < 4096 ∨ h.lateSaid = true then done s
  else done (emit (setShard s n { h with lateSaid := true }) rkPsTwinLate (srcShard n) (some (ePlot h.entry)) [])

/-! ### Commands (R265) -/

/-- A command of Table 10.10 for the selected shard waits for step 5. -/
def shardCommand (s : State) (q : KReq) (k : Nat) : State :=
  kioskCmd s q 0x6000 0x08 true (fun s x =>
    let n := x.shardSel.toNat
    let h := shardAt s n
    if shardValid h && !ownsPlot x (ePlot h.entry) then .error stKioskAccess
    else if !shardCmdOk h k then .error stShardState
    else .ok (setShard s n { h with cmds := h.cmds ++ [k], cmdStatus := stOk }))

/-- ADOPT_LOCAL. -/
def execAdoptLocal (q : KReq) (s : State) : Host.Outcome State Fault Refusal := done (shardCommand s q 1)
/-- ADOPT_TWIN. -/
def execAdoptTwin (q : KReq) (s : State) : Host.Outcome State Fault Refusal := done (shardCommand s q 2)
/-- ABANDON. -/
def execAbandon (q : KReq) (s : State) : Host.Outcome State Fault Refusal := done (shardCommand s q 3)
/-- RESTORE. -/
def execRestore (q : KReq) (s : State) : Host.Outcome State Fault Refusal := done (shardCommand s q 4)
/-- INVALIDATE. -/
def execInvalidate (q : KReq) (s : State) : Host.Outcome State Fault Refusal := done (shardCommand s q 5)
/-- COMMIT_DEGRADED. -/
def execCommitDegraded (q : KReq) (s : State) : Host.Outcome State Fault Refusal := done (shardCommand s q 6)

/-! ### The global norm (R254–R257) -/

def xRootId (c : BitVec 512) : BitVec 24 := c.extractLsb' 488 24
def xRplot (c : BitVec 512) : Nat := field c 483 5
def xNmod (c : BitVec 512) : Nat := field c 466 17
def xTdie (c : BitVec 512) : Nat := field c 462 4
def xTctr (c : BitVec 512) : Nat := field c 452 10
def xTthr (c : BitVec 512) : Nat := field c 440 12
def xNslot (c : BitVec 512) : Nat := field c 428 12
def xRpav (c : BitVec 512) : Nat := field c 420 8
def xRaddr (c : BitVec 512) : Nat := field c 398 22
def xRctr (c : BitVec 512) : Nat := field c 392 6
def xRinc (c : BitVec 512) : Nat := field c 388 4
def xSlist (c : BitVec 512) : Nat := field c 350 38
def xMlist (c : BitVec 512) : Nat := field c 312 38

/-- Entries of 4 bytes of a table in the plot's region. -/
def words4 (s : State) (n off k : Nat) : List Nat := (pieces 4 (regRead s n off (4 * k))).map leNat

/-- The listed slots: pavilion, if the plot has it, and slot number. -/
def normSlots (s : State) (n : Nat) (c : BitVec 512) : List (Option Nat × Nat) :=
  (words4 s n (xSlist c) (xNslot c)).map (fun v => (pavOfRel s n (fieldN v 10 8), fieldN v 0 10))

/-- A slot that R255 allows: XA640w, SQ set, B −298. -/
def normSlotOk (s : State) : Option Nat × Nat → Bool
  | (some i, k) => let t := tblGet {} (pavAt s i).slots k; t.wide && t.sq && t.base == -298
  | (none, _) => false

/-- Partials combine as R107 combines carry records: values and counts add, flags are joined. -/
def addPartial (a b : Partial) : Partial :=
  { value := a.value + b.value, count := a.count + b.count, nan := a.nan || b.nan, posInf := a.posInf || b.posInf,
    negInf := a.negInf || b.negInf, allNegZero := a.allNegZero && b.allNegZero }

/-- The partial of one slot. An escaped input makes the sum no number (R67). -/
def slotPartial (t : Slot) : Partial :=
  { value := t.value, count := t.count, nan := t.nan || t.escapes != 0, posInf := t.posInf, negInf := t.negInf, allNegZero := t.allNegZero }

/-- The plot's partial, with every listed slot cleared. -/
def collectPartial (s : State) (ks : List (Option Nat × Nat)) : State × Partial :=
  ks.foldl (fun (s, a) k => match k with
    | (some i, j) =>
      let t := tblGet {} (pavAt s i).slots j
      (modPav s i (fun v => { v with slots := tblSet v.slots j (slotClear t) }), addPartial a (slotPartial t))
    | (none, _) => (s, a)) (s, {})

/-- The 96 bytes of a KIND 0 body (R257). -/
def partialBytes (a : Partial) : List Byte :=
  natLe 96 (bit a.allNegZero + 2 * bit a.negInf + 4 * bit a.posInf + 8 * bit a.nan + 2 ^ 64 * (a.count % 2 ^ 64) + 2 ^ 128 * toN 640 a.value)
def partialOf (bs : List Byte) : Partial :=
  let v := leNat bs
  { value := (fieldN v 128 640 : Nat), count := fieldN v 64 64, nan := fieldN v 3 1 == 1, posInf := fieldN v 2 1 == 1,
    negInf := fieldN v 1 1 == 1, allNegZero := fieldN v 0 1 == 1 }

/-- The FP32 result of a total, rounded once (R256). -/
def normResultBits (a : Partial) : Nat :=
  (writeFloat fFP32 0 0 (slotResult {
    wide := true, base := -298, sq := true, value := a.value, count := a.count, nan := a.nan, posInf := a.posInf, negInf := a.negInf,
    allNegZero := a.allNegZero } none).res).bits

/-- This module is the root of the plot's norm group. -/
def isRoot (s : State) (c : BitVec 512) : Bool := xNmod c == 1 || xRootId c == selfId s

/-- Write the FP32 result at RADDR. -/
def writeNorm (s : State) (n : Nat) (c : BitVec 512) (bits : Nat) : State :=
  match pavOfRel s n (xRpav c) with
  | some i => (placeWrite s (.sram i (xRaddr c)) (natLe 4 bits)).1
  | none => s

/-- The result reaches a module: written, RCTR signalled, kept in 0x6000:22. -/
def deliverNorm (s : State) (n : Nat) (bits : Nat) : State :=
  let x := normAt s n
  let s := writeNorm s n x.config bits
  let s := signalRel s n (xRpav x.config) (xRctr x.config) (xRinc x.config) ⟨4, n⟩
  modNorm s n (fun y => { y with
    collecting := false, last := BitVec.ofNat 32 bits, doneStep := some x.step, held := y.held.filter (fun e => decide (x.step.toNat < e.1.toNat)) })

/-- The modules of the group on its root: endpoint id and plot. -/
def normMembers (s : State) (n : Nat) (c : BitVec 512) : List (BitVec 24 × Nat) :=
  if xNmod c = 1 then [(selfId s, n)]
  else (words4 s n (xMlist c) (xNmod c)).map (fun v => (BitVec.ofNat 24 (fieldN v 0 24), fieldN v 24 5))

/-- The root finishes once it holds a partial from each module of MLIST for the step, MLIST being readable (Table 11.3). -/
def finishNorm (s : State) (n : Nat) : State :=
  let x := normAt s n
  let ms := normMembers s n x.config
  let parts := ms.map (fun m => x.held.find? (fun e => e.1 == x.step && e.2.1 == m.1 && e.2.2.1 == m.2))
  let bad := if xNmod x.config = 1 then none else regBad s n (xMlist x.config) (4 * xNmod x.config)
  if !x.collecting || !isRoot s x.config then s
  else if bad.isSome then hbmUncorrected s (bad.getD 0) true
  else if parts.any Option.isNone then s
  else
    let total := (parts.filterMap id).foldl (fun a e => addPartial a e.2.2.2) {}
    let bits := normResultBits total
    let body := natLe 16 (bits + 2 ^ 64 * (total.count % 2 ^ 64))
    let s := (ms.filter (fun m => !(m.1 == selfId s && m.2 == n))).foldl (fun s m => sendOut s none (psPkt s n m.1 m.2 1 0 x.step 0 0 0 body)) s
    deliverNorm s n bits

/-- A partial is held on the root; a later one of the same module and step takes its place. -/
def holdPartial (s : State) (n : Nat) (step : BitVec 64) (src : BitVec 24) (plot : Nat) (a : Partial) : State :=
  modNorm s n (fun x => { x with held := x.held.filter (fun e => !(e.1 == step && e.2.1 == src && e.2.2.1 == plot)) ++ [(step, src, plot, a)] })

/-- NORM_TRIGGER: the plot's partial is collected at its step, and sent to the root or held there. An uncorrectable word in SLIST
leaves the norm unfinished (Table 11.3), and so does an uncorrectable error of a listed slot, which marks its pavilion failed (Table 4.8). -/
def execNormTrigger (t : NormIn) (s : State) : Host.Outcome State Fault Refusal :=
  let n := t.plot
  let x := t.upset
  let y := normAt s n
  let c := y.config
  match trigReady s (xTdie c) n (xTctr c) (xTthr c) with
  | none => done s
  | some k =>
    if xNmod c = 0 ∨ y.collecting = true then done s
    else
      let s := hbmUpset s x
      let s := trigTake s (xTdie c) n (xTctr c) (xTthr c) k
      let step := (plotAt s n).step
      let s := modNorm s n (fun x => { x with collecting := true, step := step })
      let ks := normSlots s n c
      match regBad s n (xSlist c) (4 * xNslot c) with
      | some a => done (hbmUncorrected s a true)
      | none =>
      let pav := (ks[t.slot]?).bind (·.1)
      let s := match pav with | some i => if x.corrected then pavCorrected s i else s | none => s
      if x.array && pav.isSome then done (pavFault s rkSramUncorrected (pav.getD 0))
      else if !ks.all (normSlotOk s) then
        let s := modNorm (writeNorm s n c (nanBits fFP32)) n (fun x => { x with collecting := false, doneStep := some step })
        done (containedHold (emit s rkPsNormFault (srcHub (n % 4)) (some n) []) [n] hcShard)
      else
        let (s, a) := collectPartial s ks
        if isRoot s c then done (finishNorm (holdPartial s n step (selfId s) n a) n)
        else done (sendOut s none (psPkt s n (xRootId c) (xRplot c) 0 0 step 0 0 0 (partialBytes a)))

/-- A norm message under the rule of R262 for the norm's step value: taken for it, or one deep once it has finished. -/
def normTake (s : State) (n : Nat) (step : BitVec 64) (act : State → State) : State :=
  let x := normAt s n
  let now := if x.collecting then x.step else (plotAt s n).step
  if step.toNat < now.toNat then
    emit (modNorm s n (fun x => { x with stale := x.stale + 1 })) rkPsStale (srcHub (n % 4)) (some n) []
  else if step = now then act s
  else if step.toNat = now.toNat + 1 ∧ x.collecting = false ∧ x.doneStep = some now then act s
  else containedHold (emit s rkPsTwinMismatch (srcHub (n % 4)) (some n) []) [n] hcShard

/-- A partial at the root: added exactly; the total is rounded and sent once all are held (R256). -/
def takePartial (s : State) (p : Pkt) : State :=
  let n := p.plot.toNat
  let c := (normAt s n).config
  if xNmod c = 0 ∨ isRoot s c = false then s
  else normTake s n (mStep p) (fun s => finishNorm (holdPartial s n (mStep p) (mSrc p) (mSplot p) (partialOf p.body)) n)

/-- A result from the root: written at RADDR, and RPAV's counter signalled (R256). -/
def takeResult (s : State) (p : Pkt) : State :=
  let n := p.plot.toNat
  let x := normAt s n
  if xNmod x.config = 0 ∨ mSrc p ≠ xRootId x.config ∨ mSplot p ≠ xRplot x.config then s
  else normTake s n (mStep p) (fun s =>
    if x.collecting = true ∧ mStep p = x.step then deliverNorm s n (fieldN (leNat p.body) 0 32) else s)

/-- NORM_CONFIG_WRITE: the configuration of the selected plot, while its norm is not collecting (R254, R269). -/
def execNormConfigWrite (q : KReq) (d : DomSeg) (s : State) : Host.Outcome State Fault Refusal :=
  done (kioskDom s q 0x6000 0x21 64 d (fun s x all =>
    let n := x.normSel.toNat
    let c := BitVec.ofNat 512 (leNat all)
    if all.length ≠ 64 then .error stKioskRange
    else if !ownsPlot x n then .error stKioskAccess
    else if field c 0 312 ≠ 0 then .error stKioskRange
    else if xNmod c ≠ 0 ∧ (65536 < xNmod c ∨ xTthr c = 0 ∨ xRaddr c % 4 ≠ 0 ∨ xRinc c = 0) then .error stKioskRange
    else if (normAt s n).collecting then .error stKioskState
    else .ok (modNorm s n (fun y => { y with config := c }))))

/-! ### The rows of the messages (R257, R261, R290, R314) -/

/-- What a message does to its norm, or to the shard that it names and whose twin sent it. -/
def psEffect (s : State) (p : Pkt) : State :=
  let twin (act : State → Pkt → State) : State := if fromTwin (shardAt s (mShard p)) p then act s p else s
  match mKind p with
  | 0 => takePartial s p
  | 1 => takeResult s p
  | 2 => twin takeHeader
  | 3 => twin takeList
  | 4 => twin takeRequest
  | 5 => twin takeData
  | 6 => twin takeAbort
  | 7 => twin takeRefusal
  | _ => s

/-- Provisional copies of a message wait for their CONFIRM and have no other effect; a copy with PROV clear voids them and takes effect
(R216, R261). -/
def psTake (s : State) (p : Pkt) : State :=
  if p.prov then { s with coll := { s.coll with psWait := s.coll.psWait ++ [p] } }
  else psEffect { s with coll := { s.coll with psWait := s.coll.psWait.filter (fun q => !(q.plot == p.plot && q.op == p.op)) } } p

/-- A PSMSG of a KIND: switched where it does not end here, else taken. -/
def onPs (s : State) (l : Nat) (p : Pkt) (kind : Nat) : State :=
  if mKind p ≠ kind then s
  else onPacket s l p [opPsmsg] (fun s => if endsHere s l p then freeRx (psTake s p) l p else switchPkt s l p)

/-- NORM_PARTIAL. -/
def execNormPartial (link : Nat) (p : Pkt) (s : State) : Host.Outcome State Fault Refusal := done (onPs s link p 0)
/-- NORM_RESULT. -/
def execNormResult (link : Nat) (p : Pkt) (s : State) : Host.Outcome State Fault Refusal := done (onPs s link p 1)
/-- DIGEST_HEADER. -/
def execDigestHeader (link : Nat) (p : Pkt) (s : State) : Host.Outcome State Fault Refusal := done (onPs s link p 2)
/-- DIGEST_LIST. -/
def execDigestList (link : Nat) (p : Pkt) (s : State) : Host.Outcome State Fault Refusal := done (onPs s link p 3)
/-- RESTORE_REQUEST. -/
def execRestoreRequest (link : Nat) (p : Pkt) (s : State) : Host.Outcome State Fault Refusal := done (onPs s link p 4)
/-- RESTORE_DATA. -/
def execRestoreData (link : Nat) (p : Pkt) (s : State) : Host.Outcome State Fault Refusal := done (onPs s link p 5)
/-- ABORT_NOTICE. -/
def execAbortNotice (link : Nat) (p : Pkt) (s : State) : Host.Outcome State Fault Refusal := done (onPs s link p 6)
/-- RESTORE_REFUSAL. -/
def execRestoreRefusal (link : Nat) (p : Pkt) (s : State) : Host.Outcome State Fault Refusal := done (onPs s link p 7)

/-! ### CONFIRM and RETRACT (R215, R216) -/

/-- A waiting message is the one that a CONFIRM or RETRACT names by what stands where a segment header has RANK, EOFF, RUN and KIND. -/
def psNamed (q p : Pkt) : Bool :=
  q.plot == p.plot && q.tag == p.tag && sRank q == sRank p && sEoff q == sEoff p && sRun q == sRun p && sKind q == sKind p

/-- A CONFIRM or RETRACT for this module: of a waiting message, or matched by plot and TAG on its port die. -/
def provMsg (s : State) (link : Nat) (p : Pkt) (confirmed : Bool) (cycle : BitVec 16) : State :=
  let j := linkDie link
  if !endsHere s link p then switchPkt s link p
  else match s.coll.psWait.find? (fun q => psNamed q p), findDesc s j p.plot.toNat p.tag with
    | some q, _ =>
      let s := { s with coll := { s.coll with psWait := s.coll.psWait.erase q } }
      freeRx (if confirmed then psEffect s { q with prov := false } else s) link p
    | none, none => freeRx (dropSeg s j rkCollSegInvalid stNoDescriptor p) link p
    | none, some (i, d) => freeRx (settleProv s j i d p confirmed cycle) link p

/-- CONFIRM. -/
def execConfirm (link : Nat) (p : Pkt) (cycle : BitVec 16) (s : State) : Host.Outcome State Fault Refusal :=
  done (onPacket s link p [opConfirm] (fun s => provMsg s link p true cycle))

/-- RETRACT: the written bytes are void until the copy with PROV clear comes. -/
def execRetract (link : Nat) (p : Pkt) (s : State) : Host.Outcome State Fault Refusal :=
  done (onPacket s link p [opRetract] (fun s => provMsg s link p false 0))

/-! ### The step counter (R264) -/

/-- STEP_COUNTER_WRITE: refused while any shard of the plot is in states 2 to 5, 7 or 8. -/
def execStepCounterWrite (q : KReq) (n : Nat) (v : BitVec 64) (s : State) : Host.Outcome State Fault Refusal :=
  done (kioskCmd s q (0x4000 + n) 0x05 false (fun s _ =>
    if s.shards.any (fun e => ePlot e.2.entry == n && (decide (2 ≤ e.2.state) && decide (e.2.state ≤ 8) && e.2.state != 6)) then .error stKioskState
    else .ok (modPlot s n (fun p => { p with step := v }))))

end Sys2Proof.Machine
end

