-- ==== Sys2Proof/Machine/Loader.lean ====
section
/-! DEFINITION. The loader's commands and events, self-test and the resume of a frozen engine (R156–R173). -/

namespace Sys2Proof.Machine

/-! ### Loading (R158, R159) -/

/-- The load command is not accepted while a load is verified or an activation pending (R159). -/
def loadBusy (p : Plot) : Bool := p.loadState == 1 || p.loadState == 3

/-- LOAD: the image of 0x4000+n:09 is submitted; the state goes to 1 (R158). -/
def execLoad (q : KReq) (n : Nat) (s : State) : Host.Outcome State Fault Refusal :=
  done (kioskCmd s q (0x4000 + n) 0x0A true (fun s _ =>
    if loadBusy (plotAt s n) then .error stLoadPending
    else .ok (modPlot s n (fun p => { p with loadBack := p.loadState, loadState := 1, loading := p.imageObj }))))

/-- A load is refused: its result word and LOAD_REFUSED, the load state restored (R158). -/
def refuseLoad (s : State) (n : Nat) (r : VRes) (back : Nat) : State :=
  let w := resultWord r
  emit (modPlot s n (fun p => { p with loadResult := w, loadState := back, loading := [] })) rkLoadRefused srcMgmt (some n) [(64, w.toNat)]

/-- A write of the period waits for its journal snapshot (R41, R362). -/
def periodPending (s : State) : Bool :=
  s.journal.pend.any (fun p => match p.entry with | some e => e.index == 0x1200 && e.sub == 0x01 | none => false)

/-- VERIFICATION_COMPLETE, once no period write waits for its snapshot, so that no image of the old period is held under the new one
(R41): the image goes into the shadow banks, or the load is refused with the first failure (R158, R160). -/
def execVerificationComplete (n : Nat) (s : State) : Host.Outcome State Fault Refusal :=
  let p := plotAt s n
  if p.loadState ≠ 1 || periodPending s then done s
  else match verifyImage s n p.loading with
    | .error r => done (refuseLoad s n r p.loadBack)
    | .ok img =>
      let s := loadShadow s n img
      done (modPlot s n (fun p => { p with shadow := some img, shadowDirty := false, loadState := 2, loadResult := 0, loading := [] }))

/-! ### Activation (R165, R166) -/

/-- ACTIVATE: requests activation of the shadow image; one altered by bank writes is checked again first (R165). A draw that
entropy cannot serve refuses the request (R340). -/
def execActivate (q : KReq) (n : Nat) (s : State) : Host.Outcome State Fault Refusal :=
  done (kioskReq s q (0x4000 + n) 0x0A true (fun s _ =>
    let p := plotAt s n
    if loadBusy p then refuse s q stLoadPending
    else match p.shadow with
      | none => refuse s q stKioskState
      | some img =>
        if p.loadState ≠ 2 then refuse s q stKioskState
        else if s.gate.entropyFailed && needsSpray s n then refuse s q stKioskState
        else match (if p.shadowDirty then verifyShadow s n img else none) with
          | some r => refuse (refuseLoad s n r 2) q r.status
          | none => accept (modPlot s n (fun p => { p with loadState := 3, actTicks := 0, shadowDirty := false })) q))

/-- Step 4 for a plot: its pending activation takes place if it can (R165). -/
def activateNow (s : State) (n : Nat) : State :=
  let p := plotAt s n
  match p.shadow with
  | some img => if p.loadState = 3 ∧ activates s n = true then activate s n img else s
  | none => s

/-- A request not met by its 1,024th tick lapses there, with its result and record (R166). -/
def lapseNow (s : State) (n : Nat) : State :=
  let p := plotAt s n
  if p.loadState = 3 ∧ 1024 ≤ p.actTicks ∧ activates s n = false then
    let bs := blockers s n
    let (u, e, tag) := bs.headD (0, 0, 0)
    let s := modPlot s n (fun p => { p with loadState := 2, loadResult := BitVec.setWidth 64 stLoadBlocked })
    emit s rkLoadBlocked srcMgmt (some n) [(16, bs.length), (8, u), (4, e), (16, tag.toNat)]
  else s

/-- ACTIVATION of one plot, an act of step 4: the pending activation takes place when the plot may be activated (R165). TICK performs it for
every plot in its place; this row is the same act for a sender that gives it singly (log entry 4). -/
def execActivation (n : Nat) (s : State) : Host.Outcome State Fault Refusal := done (activateNow s n)

/-- LOAD_BLOCKED, at the 1,024th tick of a request that could not be served: the request lapses (R166). TICK performs it in its place. -/
def execLoadBlocked (n : Nat) (s : State) : Host.Outcome State Fault Refusal := done (lapseNow s n)

/-- CANCEL: ends a pending request, or discards the shadow (R166). -/
def execCancel (q : KReq) (n : Nat) (s : State) : Host.Outcome State Fault Refusal :=
  done (kioskCmd s q (0x4000 + n) 0x0A true (fun s _ =>
    let p := plotAt s n
    match p.loadState with
    | 1 => .error stLoadPending
    | 3 => .ok (modPlot s n (fun p => { p with loadState := 2 }))
    | 2 =>
      let s := clearShadow s n
      .ok (modPlot s n (fun p => { p with shadow := none, shadowDirty := false, loadState := if p.image.isSome then 4 else 0 }))
    | _ => .error stKioskState))

/-! ### Bank writes (R163) -/

/-- The engine that a session's selector names (R173). -/
def selEng (x : Session) : EngRef := ⟨field x.engSel 0 8, field x.engSel 8 4⟩

/-- Words put into a bank from an index on; what lay below it and was never written reads as zero words. -/
def putWords (bank : List (BitVec 128)) (first : Nat) (ws : List (BitVec 128)) : List (BitVec 128) :=
  (bank ++ List.replicate (first - bank.length) 0).take first ++ ws ++ bank.drop (first + ws.length)

/-- The stream of a unit and engine in an image is replaced, or added. -/
def putStream (img : Image) (rel eng : Nat) (ws : List (BitVec 128)) : Image :=
  if img.streams.any (fun t => t.1 == rel && t.2.1 == eng) then
    { img with streams := img.streams.map (fun t => if t.1 == rel && t.2.1 == eng then (rel, eng, ws) else t) }
  else { img with streams := img.streams ++ [(rel, eng, ws)] }

/-- The whole value of 0x5000:0B: bank in byte 0, first index in bytes 2–3, then commands. -/
def bankWrite (s : State) (x : Session) (bs : List Byte) : Except U16 State :=
  let u := selEng x
  let e := engAt s u
  let bank := (bs.headD 0).toNat
  let first := numAt bs 2 2
  let ws := cmdsOfBytes (bs.drop 4)
  let owner := plotOfPav s u.pav
  if bs.length < 4 ∨ bs.length % 16 ≠ 4 ∨ 1 < bank ∨ bs.getD 1 0 ≠ 0 ∨ 4096 < first + ws.length then .error stKioskRange
  else if (match owner with | some n => loadBusy (plotAt s n) | none => false) then .error stLoadPending
  else
    let new := putWords (shadowBank e) first ws
    let s := modEng s u (fun e => if e.active then { e with bank0 := new } else { e with bank1 := new })
    match owner with
    | none => .ok s
    | some n => .ok (modPlot s n (fun p => match p.shadow with
      | some img => { p with shadow := some (putStream img (relOfPav s n u.pav) u.eng new), shadowDirty := true }
      | none => p))

/-- Byte 0 of the DOMAIN value that a segment belongs to: its bank. -/
def bankNamed (x : Session) (d : DomSeg) : Option Byte :=
  if d.offset = 0 then d.data.head?
  else match x.staging with
    | some g => if g.index = 0x5000 ∧ g.sub = 0x0B then g.data.head? else none
    | none => none

/-- BANK_WRITE: a write that addresses the active bank is refused before every other test of it, with its record; any other goes
into the shadow bank (R163). -/
def execBankWrite (q : KReq) (d : DomSeg) (s : State) : Host.Outcome State Fault Refusal :=
  done (kioskReq s q 0x5000 0x0B false (fun s x =>
    let u := selEng x
    match bankNamed x d with
    | some b =>
      if b.toNat = bit (engAt s u).active then
        refuse (emit s rkActiveBankWrite (srcPav u.pav) (plotOfPav s u.pav) [(4, u.eng)]) q stLoadActiveBank
      else bankSeg s q d u
    | none => bankSeg s q d u))
where
  /-- The write once its bank is not the active one. -/
  bankSeg (s : State) (q : KReq) (d : DomSeg) (u : EngRef) : State :=
    domSegment s q 0x5000 0x0B 65540 d (fun s all =>
      let x := sessAt s q.slot
      if !ownsPav s x u.pav then refuse s q stKioskAccess
      else match bankWrite s x all with
        | .ok s' => accept (bumpChange s' 0x5000 0x0B) q
        | .error st => refuse s q st)

/-! ### Self-test (R167, R168) -/

/-- A refused request for a unit that a plot owns leaves its status in 0x5000:0D (Table 6.6). -/
def selftestMapped (s : State) (q : KReq) : State := refuse { s with testResult := stSelftestMapped } q stSelftestMapped

/-- SELFTEST of the pavilion that [7:0] of the engine selector names. A disabled one has nothing to test; the spec gives no status for it,
and the model refuses it with KIOSK_RANGE (DESIGN CHOICE, log entry 98). -/
def execSelftestPavilion (q : KReq) (s : State) : Host.Outcome State Fault Refusal :=
  done (kioskReq s q 0x5000 0x0C true (fun s x =>
    let i := field x.engSel 0 8
    if s.enableMap.getLsbD i = false then refuse s q stKioskRange
    else if (pavAt s i).testing then refuse s q stSelftestBusy
    else if (maskOwner s i).isSome then selftestMapped s q
    else accept (modPav s i (fun v => { v with
      testing := true, engines := (List.range 6).map (fun e => (e, { tblGet {} v.engines e with mode := .selftest : Engine })) })) q))

/-- SELFTEST of the port die that [3:0] of the engine selector names. -/
def execSelftestPortDie (q : KReq) (s : State) : Host.Outcome State Fault Refusal :=
  done (kioskReq s q 0x5000 0x0C true (fun s x =>
    let j := field x.engSel 0 4
    if (dieAt s j).testing then refuse s q stSelftestBusy
    else if !(plotsOfDie s j).isEmpty then selftestMapped s q
    else accept (modDie s j (fun d => { d with testing := true })) q))

/-- The verdict of a test in 0x5000:0D and its record; a failing pavilion is marked failed (R168, R20). -/
def testDone (s : State) (src : Src) (pass : Bool) : State :=
  emit { s with testResult := if pass then stOk else stSelftestFail } (if pass then rkSelftestDone else rkSelftestFail) src none []

/-- SELFTEST_DONE: a test under way ends. -/
def execSelftestDone (t : TestUnit) (pass : Bool) (s : State) : Host.Outcome State Fault Refusal :=
  match t with
  | .pavilion i =>
    if !(pavAt s i).testing then done s
    else
      let s := modPav s i (fun v => { v with testing := false, engines := v.engines.map (fun e => (e.1, { e.2 with mode := .idle })) })
      let s := if pass then s else { s with failedMap := setBit s.failedMap i true }
      done (testDone s (srcPav i) pass)
  | .portDie j =>
    if !(dieAt s j).testing then done s
    else done (testDone (modDie s j (fun d => { d with testing := false })) (srcDie j) pass)

/-! ### Resume (R171) -/

/-- ENGINE_RESUME: a frozen engine runs freely with k = 0, its head passing the condition, or issues k commands. -/
def execEngineResume (q : KReq) (k : BitVec 16) (s : State) : Host.Outcome State Fault Refusal :=
  done (kioskCmd s q 0x5000 0x05 true (fun s x =>
    let u := selEng x
    if !ownsPav s x u.pav then .error stKioskAccess
    else if (engAt s u).mode != .frozen then .error stKioskState
    else .ok (modEng s u (fun e => { e with
      mode := .running, passBreak := k == 0, stepsLeft := if k == 0 then none else some k.toNat }) |>
      (fun s => match engPlot s u with | some n => moved s n | none => s))))

end Sys2Proof.Machine
end

