-- ==== Sys2Proof/Machine/Sync.lean ====
section
/-! DEFINITION. Counter commands, wait cycles, the end of a plot reset and the requests of the buffer pool manager (R174–R193, R124). -/

namespace Sys2Proof.Machine

/-! ### Counter commands (R193) -/

/-- The pavilion and counter that a session's selectors name. -/
def selCtr (x : Session) : Nat × Nat := (field x.engSel 0 8, x.ctrSel.toNat)

/-- COUNTER_ADJUST: the signed value is added under R176; a clamp names the adjust command as its source. -/
def execCounterAdjust (q : KReq) (v : BitVec 32) (s : State) : Host.Outcome State Fault Refusal :=
  done (kioskCmd s q 0x5000 0x12 true (fun s x =>
    let (i, c) := selCtr x
    if !ownsPav s x i then .error stKioskAccess
    else if 65535 < v.toInt.natAbs then .error stKioskRange
    else if (ctrAt s i c).poison then .error stKioskState
    else
      let (c', lim) := ctrAdd (ctrAt s i c) v.toInt
      let s := setCtr s i c c'
      match plotOfPav s i with
      | none => .ok s
      | some n =>
        match lim with
        | none => .ok s
        | some up =>
          let first := !(pavAt s i).limited.contains c
          let s := modPav s i (fun v => { v with limited := addNew v.limited c })
          .ok (ctrClamped s n (srcPav i) first c up ⟨3, 0⟩ 1)))

/-- COUNTER_FLAG_CLEAR: bit 0 clears OVF and bit 1 UNF (R177). -/
def execCounterFlagClear (q : KReq) (v : BitVec 8) (s : State) : Host.Outcome State Fault Refusal :=
  done (kioskCmd s q 0x5000 0x13 true (fun s x =>
    let (i, c) := selCtr x
    if !ownsPav s x i then .error stKioskAccess
    else if 3 < v.toNat then .error stKioskRange
    else
      let k := ctrAt s i c
      .ok (setCtr s i c { k with ovf := k.ovf && !v.getLsbD 0, unf := k.unf && !v.getLsbD 1 })))

/-! ### Wait cycles (R184, R185) -/

/-- An entry of Table 7.4. -/
def waitEntry (tag thr value ctr eng desc unit retired : Nat) : BitVec 128 :=
  BitVec.ofNat 128 (tag * 2 ^ 112 + thr * 2 ^ 96 + value * 2 ^ 80 + ctr * 2 ^ 70 + eng * 2 ^ 66 + desc * 2 ^ 56 + unit * 2 ^ 48 +
    retired % 2 ^ 48)

/-- The entries of the waiting heads of a plot. -/
def waitHeads (s : State) (n : Nat) : List (BitVec 128) :=
  (engsOfPlot s n).filterMap (fun u => (headWaits s u).map (fun q =>
    let k := q.cmd.hdr
    waitEntry k.tag.toNat k.wthr.toNat (ctrAt s u.pav k.wctr.toNat).value.toNat k.wctr.toNat u.eng 0 (relOfPav s n u.pav)
      (engAt s u).retired.toNat))

/-- The entries of the untriggered descriptors of a plot. -/
def waitDescs (s : State) (n : Nat) : List (BitVec 128) :=
  (List.range 16).flatMap (fun j => (sortBy (fun a b => decide (a.2.rel ≤ b.2.rel)) ((descsOn s n j).filter (fun e => !e.2.triggered))).map
    (fun e =>
      let v := match trigAt? s j n (dTctr e.2) with | some t => t.ctr.value.toNat | none => 0
      waitEntry 0 (dTthr e.2) v (dTctr e.2) 15 (e.2.rel % 1024) j 0))

/-- WAIT_CYCLE: 256 consecutive frames of a running plot have qualified: the record, the report of Table 7.4, and the hold. -/
def execWaitCycle (n : Nat) (s : State) : Host.Outcome State Fault Refusal :=
  if (plotAt s n).quiet < 256 ∨ plotRuns s n = false then done s
  else
    let s := emit s rkWaitCycle srcModule (some n) []
    let report := waitHeads s n ++ waitDescs s n
    let s := modPlot s n (fun p => { p with waitReport := report, quiet := 0 })
    done (plainHold s [n] hcWaitCycle)

/-! ### Resets and power (R124, R182) -/

/-- PLOT_RESET_COMPLETE: the tick after the one that poisoned the plot, its engines are idle with no program (R182). -/
def execPlotResetComplete (n : Nat) (s : State) : Host.Outcome State Fault Refusal :=
  let p := plotAt s n
  if p.state = 4 ∧ p.resetTick.toNat < s.sd.ticks.toNat then done (emit (resetPlotDone s n) rkResetDone srcModule (some n) [(8, 0)]) else done s

/-- QUARTER_POWER_UP: a quarter under power-up is powered; its pavilions are seen at the next frame boundary (R124). -/
def execQuarterPowerUp (core quarter : Nat) (s : State) : Host.Outcome State Fault Refusal :=
  let k := 4 * core + quarter
  if s.powering.getLsbD k then done { s with powering := setBit s.powering k false, powered := setBit s.powered k true } else done s

/-! ### The buffer pool manager (R190–R192) -/

/-- A request whose pool belongs to another plot than the one it carries (Table 14.4). -/
def poolForeign (s : State) (n : Nat) : State :=
  let s := emit { s with gate := { s.gate with violations := s.gate.violations + 1 } } rkPlotViolation srcModule (some n) []
  containedHold s [n] hcIsolation

/-- The pool of another plot than the request carries. -/
def foreignPool (s : State) (r : PoolReq) (id : Nat) : Bool := match poolAt? s id with | some p => p.plot != r.plot | none => false

def answerPool (s : State) (r : PoolReq) (st : U16) (h : U32) : State := { s with out := s.out ++ [.pool r st h] }

/-- A request that meets an uncorrected error in the manager's state is not served: the error is uncontained (R367). -/
def hubFault (s : State) (id : Nat) : State := uncontained (emit s rkHubUncorrected (srcHub (id % 4)) none [])

/-- POOL_ALLOC. -/
def execPoolAlloc (r : PoolReq) (pool : Nat) (s : State) : Host.Outcome State Fault Refusal :=
  if r.upset then done (hubFault s pool)
  else if foreignPool s r pool then done (answerPool (poolForeign s r.plot) r stPlotViolation 0)
  else let (s, a) := poolAlloc s pool; done (answerPool s r a.status a.handle)

/-- POOL_ACQUIRE. -/
def execPoolAcquire (r : PoolReq) (h : BitVec 32) (s : State) : Host.Outcome State Fault Refusal :=
  if r.upset then done (hubFault s (hPool h))
  else if foreignPool s r (hPool h) then done (answerPool (poolForeign s r.plot) r stPlotViolation h)
  else let (s, st) := poolAcquire s h; done (answerPool s r st h)

/-- POOL_RELEASE. -/
def execPoolRelease (r : PoolReq) (h : BitVec 32) (s : State) : Host.Outcome State Fault Refusal :=
  if r.upset then done (hubFault s (hPool h))
  else if foreignPool s r (hPool h) then done (answerPool (poolForeign s r.plot) r stPlotViolation h)
  else let (s, st) := poolRelease s h; done (answerPool s r st h)

/-- A buffer command of the Kiosk: its response carries the status of R190 (R191, R193). -/
def bufferCmd (s : State) (q : KReq) (h : BitVec 32) (f : State → State × U16) : State :=
  kioskReq s q 0x6900 0x0C true (fun s x =>
    if x.role == .po && (match poolAt? s (hPool h) with | some p => p.plot != x.plot | none => false) then refuse s q stKioskAccess
    else
      let (s, st) := f s
      respond s q st 0 [])

/-- BUFFER_ACQUIRE. -/
def execBufferAcquire (q : KReq) (h : BitVec 32) (s : State) : Host.Outcome State Fault Refusal :=
  done (bufferCmd s q h (fun s => poolAcquire s h))

/-- BUFFER_RELEASE. -/
def execBufferRelease (q : KReq) (h : BitVec 32) (s : State) : Host.Outcome State Fault Refusal :=
  done (bufferCmd s q h (fun s => poolRelease s h))

end Sys2Proof.Machine
end

