-- ==== Sys2Proof/Machine/Objects.lean ====
section
/-! DEFINITION. What every object of the dictionary reads as (the object tables of chapters 02 to 17): the bytes of its value for a
session, whose selectors choose among units (R349, R350). -/

namespace Sys2Proof.Machine

/-- ASCII text as the bytes of a STR32 (Table 15.2). -/
def str32 (t : List Nat) : List Byte := padTo 32 (t.map (BitVec.ofNat 8))
def le32 (v : Nat) : List Byte := natLe 4 v
def le64 (v : Nat) : List Byte := natLe 8 v
def leInt (v : Int) : List Byte := natLe 4 (toN 32 v)

/-- The version of the running firmware image (0x100A). -/
def runningVersion (s : State) : BitVec 32 := if s.power.running = 0 then s.power.versionA else s.power.versionB

/-- 0x10xx: identity and elapsed time. -/
def read10 (s : State) (index sub : Nat) : List Byte :=
  match index with
  | 0x1000 => le32 0x00010000
  | 0x1008 => str32 [0x56, 0x53, 0x2D, 0x4C, 0x58, 0x36, 0x34, 0x2D, 0x41]
  | 0x1009 => natLe 2 Config.stepping.toNat
  | 0x100A => le32 (runningVersion s).toNat
  | 0x1010 => natLe 32 Config.serial.toNat
  | 0x1018 => le64 s.sd.ticks.toNat
  | 0x1019 => le32 s.sd.boot.toNat
  | _ => natLe 32 (Config.certificates sub).toNat

def transportCode : Transport → Nat
  | .tls0 => 0
  | .tls1 => 1
  | .inband => 2
  | .i3c => 3
def roleCode : Role → Nat
  | .so => 0
  | .fm => 1
  | .po => 2
  | .ob => 3

/-- Session info of the selected slot: 0 for a closed one, and for a PO that reads another role's or plot's (R366). -/
def sessionInfo (s : State) (x : Session) : Nat :=
  let y := sessAt s x.sessSel.toNat
  if !y.isOpen || (x.role == .po && !(y.role == .po && y.plot == x.plot)) then 0
  else y.sid.toNat * 2 ^ 48 + transportCode y.transport * 2 ^ 40 + roleCode y.role * 2 ^ 38 + y.plot * 2 ^ 33 + 2 ^ 32 + y.opened.toNat

/-- 0x1100: sessions, anchors, journal. -/
def read11 (s : State) (x : Session) (slot sub : Nat) : List Byte :=
  match sub with
  | 0x01 => natLe 1 (openSessions s)
  | 0x02 => natLe 1 x.sessSel.toNat
  | 0x03 => le64 (sessionInfo s x)
  | 0x04 => natLe 1 slot
  | 0x07 => le64 s.kiosk.refusals.toNat
  | 0x20 => le64 (match newestSlot s.journal with | some (_, j) => j.seq.toNat | none => 0)
  | 0x21 => natLe 1 (match newestSlot s.journal with | some (b, _) => bit b | none => 0)
  | 0x22 => le64 s.journal.snapshots.toNat
  | 0x23 => natLe 1 s.journal.recovery.toNat
  | _ => rwsGet s 0x1100 sub

/-- 0x1200: the sundial. -/
def read12 (s : State) (sub : Nat) : List Byte :=
  match sub with
  | 0x01 => natLe 1 s.sd.period.toNat
  | 0x02 => le32 s.sd.master.toNat
  | 0x03 => le32 s.sd.err.toNat
  | 0x04 => le64 s.sd.frame.toNat
  | 0x05 => natLe 1 s.sd.parent.toNat
  | 0x06 => le32 s.sd.holdover.toNat
  | 0x07 => le64 s.sd.overruns.toNat
  | 0x08 => le64 s.sd.refreshes.toNat
  | 0x09 => le64 s.sd.retried.toNat
  | _ => natLe 1 s.sd.align

/-- 0x2000: arithmetic. -/
def read20 (s : State) (sub : Nat) : List Byte :=
  match sub with
  | 0x01 => natLe 1 s.ar.b2Mode.toNat
  | 0x02 => le32 s.ar.b2Base.toNat
  | 0x05 => le64 s.ar.escapes.toNat
  | 0x06 => le64 s.ar.limits.toNat
  | _ => le32 0x00010000

/-- The link objects that half b holds again at 0x10 above, by the subindex of half a (Table 12.10). -/
def readLink (s : State) (l sub : Nat) : List Byte :=
  let x := linkAt s l
  match sub with
  | 0x04 => natLe 1 x.state
  | 0x05 => le32 x.partner.toNat
  | 0x06 => le32 x.rtt.toNat
  | 0x07 => le32 x.capacity.toNat
  | 0x08 => natLe 2 x.spared.toNat
  | 0x09 => le64 x.retried.toNat
  | 0x0A => le64 x.fecOk.toNat
  | 0x0B => le64 x.fecBad.toNat
  | 0x0C => le64 x.dropped.toNat
  | 0x0D => natLe 2 x.downCause.toNat
  | 0x0E => le32 (if linkHalf l = 1 then (portAt s (linkPort l)).encMaskB else (portAt s (linkPort l)).encMask).toNat
  | _ => le64 x.authFails.toNat

/-- 0x3000+n: port n. Half b reads 0 for a port in whole mode (R306). -/
def read30 (s : State) (n sub : Nat) : List Byte :=
  match sub with
  | 0x01 => natLe 1 (portAt s n).mode.toNat
  | 0x03 => le32 (portAt s n).expected.toNat
  | 0x10 => natLe 1 (freeSpares s (n / 4))
  | _ =>
    if sub < 0x10 then readLink s (2 * n) sub
    else if splitPort s n then readLink s (2 * n + 1) (sub - 0x10)
    else (readLink s (2 * n + 1) (sub - 0x10)).map (fun _ => 0)

/-- 0x3100 to 0x36xx: credits, windows, routing, scheduler, keys. -/
def routeBytes (e : RouteEntry) : List Byte :=
  natLe 32 (e.lo.toNat * 2 ^ 232 + e.hi.toNat * 2 ^ 208 + bit e.spray * 2 ^ 207 + e.links.toNat)
/-- The route table as written: a header with the entry count, and the entries; empty before the first write (R313). -/
def routeObject (s : State) : List Byte :=
  if !s.route.written then []
  else natLe 16 (s.route.table.length * 2 ^ 112) ++ s.route.table.flatMap routeBytes
def read3x (s : State) (x : Session) (index sub : Nat) : List Byte :=
  match index, sub with
  | 0x3100, v => natLe 2 (s.net.credits.getD (v - 1) 0).toNat
  | 0x3200, 0x01 => natLe 1 x.winSel.toNat
  | 0x3200, 0x02 => natLe 1 (plotAt s x.winSel.toNat).window.toNat
  | 0x3200, 0x03 => le64 s.net.windowDrops.toNat
  | 0x3200, _ => le64 s.net.pairStalls.toNat
  | 0x3400, 0x01 => routeObject s
  | 0x3400, 0x02 => natLe 32 s.route.dir.toNat
  | 0x3400, 0x03 => le32 s.route.self.toNat
  | 0x3400, 0x04 => le32 s.route.gen.toNat
  | 0x3400, 0x05 => le64 s.route.noRoute.toNat
  | 0x3400, 0x06 => le64 s.route.turns.toNat
  | 0x3400, _ => le32 s.route.stallLimit.toNat
  | 0x3500, 0x01 => natLe 1 x.subSel.toNat
  | 0x3500, 0x02 => natLe 2 (tblGet (0x0100 : BitVec 16) s.route.weights x.subSel.toNat).toNat
  | 0x3500, 0x03 => le64 (tblGet (0x010001000100 : BitVec 64) s.route.clsWeights x.subSel.toNat).toNat
  | 0x3500, 0x04 => le32 s.route.starveLimit.toNat
  | 0x3500, 0x05 => natLe 1 x.linkSel.toNat
  | 0x3500, 0x06 => le64 (linkAt s x.linkSel.toNat).sfq.v.toNat
  | 0x3500, 0x07 => le32 (capOn s x.linkSel.toNat)
  | 0x3500, 0x08 => le64 s.route.notices.toNat
  | 0x3500, _ => le64 (tblGet (0 : BitVec 64) (linkAt s x.linkSel.toNat).served x.subSel.toNat).toNat
  | _, 0x01 => natLe 1 x.keySel.toNat
  | _, 0x02 => le32 (plotAt s x.keySel.toNat).ilvSerial.toNat
  | _, 0x03 => le64 (plotAt s x.keySel.toNat).ilvTick.toNat
  | _, 0x04 => le32 (plotAt s x.keySel.toNat).spraySerial.toNat
  | _, _ => le64 (plotAt s x.keySel.toNat).sprayTick.toNat

/-- 0x4000+n: plot n. -/
def read40 (s : State) (n sub : Nat) : List Byte :=
  let p := plotAt s n
  match sub with
  | 0x01 => natLe 1 (p.state + 8 * bit p.held)
  | 0x02 => natLe 32 p.pavMask.toNat
  | 0x03 => le64 p.portMask.toNat
  | 0x04 => le64 p.region.toNat
  | 0x05 => le64 p.step.toNat
  | 0x07 => natLe 2 p.epoch.toNat
  | 0x08 => le32 p.energy.toNat
  | 0x0B => le64 p.loadResult.toNat
  | 0x0C => natLe 1 p.loadState
  | 0x0D => p.waitReport.flatMap (fun w => natLe 16 w.toNat)
  | 0x0E => le64 p.dropped.toNat
  | 0x0F => le64 p.ctrLimits.toNat
  | _ => []

def modeCode : EngMode → Nat
  | .idle => 0
  | .running => 1
  | .waiting => 2
  | .gated => 3
  | .frozen => 4
  | .fault => 5
  | .selftest => 6

/-- 0x5000: the selected engine and counter. -/
def read50 (s : State) (x : Session) (sub : Nat) : List Byte :=
  let e := engAt s (selEng x)
  match sub with
  | 0x01 => le32 x.engSel.toNat
  | 0x02 => natLe 1 e.breakEn.toNat
  | 0x03 => le64 e.breakCount.toNat
  | 0x04 => le32 e.breakTag.toNat
  | 0x06 => natLe 1 (modeCode e.mode)
  | 0x07 => le64 e.retired.toNat
  | 0x08 => le64 e.faultWord.toNat
  | 0x09 => natLe 2 (match e.queue.head? with | some q => q.cmd.hdr.tag.toNat | none => 0)
  | 0x0A => natLe 1 (bit e.active)
  | 0x0D => natLe 2 s.testResult.toNat
  | 0x10 => natLe 1 x.ctrSel.toNat
  | 0x11 => le32 (ctrWord (ctrAt s (selCtr x).1 (selCtr x).2))
  | _ => []

/-- The descriptor that a session's selector names (R226). -/
def selDie (x : Session) : Nat := field x.descSel 0 4
def selDesc (s : State) (x : Session) : Option Desc := descAt? s (selDie x) (field x.descSel 4 10)

/-- The trigger counter that a session's selector names: of a PO's own plot, and for the others of the plot of their descriptor. -/
def selTrig (s : State) (x : Session) : Nat :=
  let plot := if x.role == .po then some x.plot else (selDesc s x).map (·.plot)
  match plot.bind (fun n => trigAt? s (field x.trigSel 0 4) n (field x.trigSel 4 10)) with
  | some t => ctrWord t.ctr
  | none => 0

/-- 0x5800:02: absent, armed, triggered, or held with its plot. -/
def descState (s : State) : Option Desc → Nat
  | none => 0
  | some d => if (plotAt s d.plot).held || (plotAt s d.plot).state == 3 then 3 else if d.triggered then 2 else 1

def selRows (s : State) (x : Session) : RowStats :=
  let n := field x.layerSel 12 5
  let l := field x.layerSel 0 12
  (s.coll.rowStats.find? (fun r => r.plot == n && r.layer == l)).getD { plot := n, layer := l }

/-- Arrivals of the current or last run, one entry a rank; of a member not yet arrived, the 48 bits of the tick count all ones (R221, log
entry 109). -/
def arrivalBytes (d : Desc) : List Byte :=
  (List.range (dNmem d)).flatMap (fun r => match d.prog.arrivals.find? (fun a => a.1 == r) with
    | some a => le64 (a.2.1.toNat % 2 ^ 48 * 2 ^ 16 + a.2.2.toNat)
    | none => le64 (0xFFFFFFFFFFFF * 2 ^ 16))

/-- 0x5800 and 0x5900: collectives. -/
def read58 (s : State) (x : Session) (sub : Nat) : List Byte :=
  let d := selDesc s x
  match sub with
  | 0x01 => natLe 2 x.descSel.toNat
  | 0x02 => natLe 1 (descState s d)
  | 0x03 => natLe 2 (match d with | some d => d.run.toNat | none => 0)
  | 0x04 => natLe 2 (s.coll.dies.map (fun e => (e.2.descs.filter (fun f => f.2.triggered)).length)).sum
  | 0x05 => (match d with | some d => natLe 64 d.img.toNat | none => [])
  | 0x06 => le32 s.coll.relay.toNat
  | 0x07 => le64 s.coll.retractions.toNat
  | 0x08 => le64 s.coll.dropped.toNat
  | 0x09 => le64 s.coll.stalls.toNat
  | 0x10 => le64 (match d with | some d => d.laggard.toNat | none => 0)
  | 0x11 => (match d with | some d => arrivalBytes d | none => [])
  | 0x12 => natLe 2 x.trigSel.toNat
  | 0x13 => le32 (selTrig s x)
  | 0x20 => le32 x.layerSel.toNat
  | 0x21 => le64 (selRows s x).runs.toNat
  | 0x22 => le64 (selRows s x).sent.toNat
  | 0x23 => le64 (selRows s x).cut.toNat
  | 0x24 => le64 (selRows s x).used.toNat
  | 0x25 => le64 (selRows s x).hits.toNat
  | 0x26 => le64 (selRows s x).misses.toNat
  | 0x27 => le64 (selRows s x).unused.toNat
  | _ => le32 (selRows s x).recallVal.toNat
def read59 (s : State) (sub : Nat) : List Byte :=
  match sub with
  | 0x01 => le32 s.coll.b2Enable.toNat
  | 0x02 => s.coll.b2Groups
  | 0x03 => natLe 2 s.coll.b2Reserve.toNat
  | 0x04 => le64 s.coll.b2Launches.toNat
  | _ => le64 s.coll.b2Refusals.toNat

/-- The state of a shard as 0x6000:03 shows it: an idle shard whose trigger counter the active image does not declare is unarmed (Table
10.6). -/
def shardState (s : State) (h : Shard) : Nat :=
  let n := ePlot h.entry
  if h.state = 1 ∧ ((plotAt s n).image.isNone ∨ (trigAt? s (eTdie h.entry) n (eTctr h.entry)).isNone) then 9 else h.state

/-- Messages dropped as stale since power-good, by shards and by norms. -/
def staleMessages (s : State) : Nat := sumN (s.shards.map (fun e => e.2.stale.toNat)) + sumN (s.norms.map (fun e => e.2.stale.toNat))

/-- 0x6000: the selected shard and norm. -/
def read60 (s : State) (x : Session) (sub : Nat) : List Byte :=
  let h := shardAt s x.shardSel.toNat
  let y := normAt s x.normSel.toNat
  match sub with
  | 0x01 => natLe 2 x.shardSel.toNat
  | 0x02 => natLe 64 h.entry.toNat
  | 0x03 => natLe 1 (shardState s h)
  | 0x04 => natLe 1 h.gen
  | 0x05 => natLe 32 h.record.toNat
  | 0x06 => h.local_.flatMap (fun d => le64 d.toNat)
  | 0x07 => if h.twin.isEmpty then [] else (List.range (nBlocks h.entry)).flatMap (fun b => le64 (tblGet (0 : BitVec 64) h.twin b).toNat)
  | 0x09 => le64 h.divergences.toNat
  | 0x0A => le64 h.degraded.toNat
  | 0x0B => le64 h.commits.toNat
  -- the messages of shards and of norms together: the object has no norm of its own (R262, log entry 112)
  | 0x0C => le64 (staleMessages s)
  | 0x0D => le32 h.progress.toNat
  | 0x0E => natLe 2 h.cmdStatus.toNat
  | 0x20 => natLe 1 x.normSel.toNat
  | 0x21 => natLe 64 y.config.toNat
  | 0x22 => le32 y.last.toNat
  | _ => []

/-- 0x6800: the selected stack. -/
def read68 (s : State) (x : Session) (sub : Nat) : List Byte :=
  let k := stackAt s x.stackSel.toNat
  match sub with
  | 0x01 => natLe 1 x.stackSel.toNat
  | 0x02 => natLe 1 k.state
  | 0x03 => le64 k.corrected.toNat
  | 0x04 => le64 k.uncorrected.toNat
  | 0x05 => le64 k.lastError.toNat
  | 0x06 => natLe 1 (bit k.doubled)
  | 0x07 => natLe 2 k.ratio.toNat
  | 0x08 => le64 k.notices.toNat
  | _ => le64 0x7F0000000

/-- 0x6900:04: the SRAM address, buffer-memory offset or module address of buffer 0. -/
def poolBase (s : State) (p : Pool) : Nat :=
  if p.loc = 2 then (regTranslate (plotAt s p.plot).region p.base).getD 0 else p.base

/-- 0x6900: the selected pool. -/
def read69 (s : State) (x : Session) (sub : Nat) : List Byte :=
  match sub with
  | 0x01 => natLe 2 s.pools.length
  | 0x02 => natLe 1 x.poolSel.toNat
  | _ =>
    match poolAt? s x.poolSel.toNat with
    | none => natLe (if sub = 0x03 ∨ sub = 0x04 ∨ sub = 0x0B then 8 else 4) 0
    | some p =>
      match sub with
      | 0x03 => le64 (2 ^ 63 + p.plot * 2 ^ 58 + p.loc * 2 ^ 56 + p.unit * 2 ^ 48 + p.size * 2 ^ 43 + p.count * 2 ^ 26)
      | 0x04 => le64 (poolBase s p)
      | 0x05 => le32 (p.count - heldCount p)
      | 0x06 => le32 p.high
      | 0x07 => le32 p.nEmpty.toNat
      | 0x08 => le32 p.nDouble.toNat
      | 0x09 => le32 p.nLimit.toNat
      | 0x0A => le32 p.nInvalid.toNat
      | 0x0B => le64 p.lastError.toNat
      | _ => []

/-- 0x7000: security. -/
def read70 (s : State) (sub : Nat) : List Byte :=
  match sub with
  | 0x01 => le32 (s.gate.state * 2 ^ 24 + s.gate.status.toNat)
  | 0x02 => le32 s.gate.rollback.toNat
  | 0x10 => s.gate.trust
  | 0x11 => Config.identityChain
  | 0x21 => le64 s.gate.foreign.toNat
  | 0x22 => le64 s.gate.violations.toNat
  | 0x31 => s.gate.report
  | 0x32 => natLe 1 s.gate.target.toNat
  | _ => []

/-- A loss ledger entry of 40 bytes (R375). -/
def ledgerBytes (e : Ledger) : List Byte :=
  natLe 2 e.src.idx ++ natLe 1 e.src.kind ++ List.replicate 5 0 ++ le64 e.a.toNat ++ le64 e.b.toNat ++ le64 e.c.toNat ++ le64 e.d.toNat

/-- 0x8000: telemetry and progress. -/
def read80 (s : State) (x : Session) (sub : Nat) : List Byte :=
  let t := s.tele
  let p := plotAt s x.progSel.toNat
  match sub with
  | 0x01 => t.ringA.flatMap (fun r => recBytes r.rec_)
  | 0x02 => t.ringB.flatMap (fun r => recBytes r.rec_)
  | 0x03 => t.ringC.flatMap (fun r => recBytes r.rec_)
  | 0x04 => t.ringD.flatMap (fun r => recBytes r.rec_)
  | 0x10 => le32 t.collector.toNat
  | 0x11 => natLe 1 t.classes.toNat
  | 0x12 => le64 t.emitted.toNat
  | 0x14 => le64 t.skips.toNat
  | 0x20 => t.ledger.flatMap ledgerBytes
  | 0x21 => le64 t.lossA.toNat
  | 0x22 => le64 t.lossB.toNat
  | 0x23 => le64 t.lossC.toNat
  | 0x24 => le64 t.lossD.toNat
  | 0x30 => natLe 1 x.progSel.toNat
  | 0x31 => le64 p.runFrames.toNat
  | 0x32 => le64 p.heldFrames.toNat
  | 0x33 => le64 p.stepAdvances.toNat
  | _ => le64 p.lastAdvance.toNat

/-- 0x9000 and 0x9100: faults and the Lodge. -/
def read90 (s : State) (sub : Nat) : List Byte :=
  match sub with
  | 0x01 => s.tele.kept.flatMap recBytes
  | 0x03 => le64 s.tele.contained.toNat
  | 0x04 => le64 s.tele.uncontained.toNat
  | n => le32 (plotAt s (n - 0x20)).causes.toNat
def read91 (s : State) (x : Session) (sub : Nat) : List Byte :=
  let d := domAt s x.domSel.toNat
  match sub with
  | 0x01 => natLe 1 x.domSel.toNat
  | 0x02 => d.bytes
  | 0x03 => natLe 1 d.state
  | 0x04 => natLe ((d.members.length + 7) / 8) (d.dead.map (2 ^ ·)).sum
  | 0x05 => le32 ((wardenOf d).getD 0)
  | 0x06 => le32 s.lodge.window.toNat
  | 0x07 => natLe 2 s.lodge.takeover.toNat
  | 0x0A => natLe 1 d.claim.toNat
  | 0x0B => le64 d.drops.toNat
  | 0x0C => le64 d.decisions.toNat
  | 0x0D => le64 d.lastDecision.toNat
  | _ => []

/-- 0xA000: power, start-up and firmware. -/
def readA0 (s : State) (x : Session) (sub : Nat) : List Byte :=
  let p := s.power
  match sub with
  | 0x01 => natLe 1 p.step
  | 0x02 => natLe 2 p.status.toNat
  | 0x03 => p.durations.flatMap (fun d => le32 d.toNat)
  | 0x04 => le32 p.millivolts.toNat
  | 0x05 => le32 p.milliwatts.toNat
  | 0x06 => le32 p.energy.toNat
  | 0x07 => leInt p.hottest
  | 0x08 => natLe 1 p.hotSensor
  | 0x09 => leInt p.inlet
  | 0x0A => le32 p.flow.toNat
  | 0x0B => le32 p.thermalHolds.toNat
  | 0x0D => le64 p.energyOver.toNat
  | 0x0E => le32 p.cutoffs.toNat
  | 0x10 => natLe 1 x.sensSel.toNat
  | 0x11 => leInt (tblGet 0 p.sensors x.sensSel.toNat)
  | 0x31 => natLe 1 p.update
  | 0x32 => natLe 1 p.preferred.toNat
  | 0x33 => le32 p.versionA.toNat
  | 0x34 => le32 p.versionB.toNat
  | 0x35 => natLe 1 p.running.toNat
  | _ => []

/-- The value of an object that has an entry of its own in the object tables. -/
def readNamed (s : State) (x : Session) (slot index sub : Nat) : List Byte :=
  if index < 0x1100 then read10 s index sub
  else if index < 0x1200 then read11 s x slot sub
  else if index < 0x2000 then read12 s sub
  else if index < 0x2100 then read20 s sub
  else if index = 0x2100 then natLe 32 s.enableMap.toNat
  else if index = 0x2101 then natLe 32 s.failedMap.toNat
  else if index < 0x3100 then read30 s (index - 0x3000) sub
  else if index < 0x4000 then read3x s x index sub
  else if index < 0x5000 then read40 s (index - 0x4000) sub
  else if index < 0x5800 then read50 s x sub
  else if index < 0x5900 then read58 s x sub
  else if index < 0x6000 then read59 s sub
  else if index < 0x6800 then read60 s x sub
  else if index < 0x6900 then read68 s x sub
  else if index < 0x7000 then read69 s x sub
  else if index < 0x8000 then read70 s sub
  else if index < 0x9000 then read80 s x sub
  else if index < 0x9100 then read90 s sub
  else if index < 0xA000 then read91 s x sub
  else readA0 s x sub

/-- What a session reads from an object; subindex 0 of an index with others is the highest subindex (R349). -/
def readObject (s : State) (x : Session) (slot index sub : Nat) : List Byte :=
  if sub == 0 && indexHasSubs index then natLe 1 (highestSub index) else readNamed s x slot index sub

end Sys2Proof.Machine
end

