-- ==== Sys2Proof/Machine/Plots.lean ====
section
/-! DEFINITION. Plots, their masks and commands, and the Gatehouse (R330–R348, R369, R397). -/

namespace Sys2Proof.Machine

/-! ### Masks (R331, R332) -/

/-- The quarter of a pavilion, as a bit of the power maps: 4k + q. -/
def quarterOf (i : Nat) : Nat := i / 8

/-- Pavilions of a plot's mask that it sees: those of powered quarters (R124). -/
def seenMask (mask : BitVec 256) (powered : BitVec 32) : BitVec 256 :=
  BitVec.ofNat 256 (((List.range 256).filter (fun i => mask.getLsbD i && powered.getLsbD (quarterOf i))).map (2 ^ ·)).sum

/-- Quarters that some plot's mask needs; the others are gated (R30). -/
def neededQuarters (s : State) : List Nat :=
  (List.range 32).filter (fun k => (List.range 8).any (fun i => (maskOwner s (8 * k + i)).isSome))

/-- Power-up starts for quarters that a mask has come to need, and quarters that none needs are gated (R30, R124). -/
def powerQuarters (s : State) : State :=
  let need := neededQuarters s
  (List.range 32).foldl (fun s k =>
    if need.contains k then (if s.powered.getLsbD k then s else { s with powering := setBit s.powering k true })
    else { s with powered := setBit s.powered k false, powering := setBit s.powering k false }) s

/-- Why a pavilion mask is refused (R18, R168, R331). -/
def maskRefusal (s : State) (n : Nat) (v : BitVec 256) : Option U16 :=
  let named := bitsSet v 256
  let old := (plotAt s n).pavMask
  if named.any (fun i => !s.enableMap.getLsbD i) then some stKioskRange
  else if (plotAt s n).loadState ≠ 0 then some stKioskState
  else if named.any (fun i => s.failedMap.getLsbD i || (match maskOwner s i with | some m => m != n | none => false)) then some stKioskState
  else if named.any (fun i => !old.getLsbD i && (pavAt s i).testing) then some stSelftestBusy
  else none

/-- The mask takes its value: pavilions it drops are reset first and are seen no more; those it adds are seen from the first frame boundary
that follows both the write and the power-up of their quarter (R124). -/
def setPavMask (s : State) (n : Nat) (v : BitVec 256) : State :=
  let old := (plotAt s n).pavMask
  let s := ((bitsSet old 256).filter (fun i => !v.getLsbD i)).foldl resetPav s
  powerQuarters (modPlot s n (fun p => { p with pavMask := v, pavSeen := p.pavSeen &&& v }))

/-- PAVILION_MASK_WRITE. -/
def execPavilionMaskWrite (q : KReq) (n : Nat) (v : BitVec 256) (s : State) : Host.Outcome State Fault Refusal :=
  done (kioskCmd s q (0x4000 + n) 0x02 false (fun s _ =>
    match maskRefusal s n v with
    | some st => .error st
    | none => .ok (setPavMask s n v)))

/-- Some reservation of an admitted image passes the cap of a link of port `p` (R321). -/
def portOver (s : State) (p : Nat) : Bool :=
  [2 * p, 2 * p + 1].any (fun l => decide (capOn s l < demandOn s l false) || decide (capOn s l < demandOn s l true))

/-- PORT_MASK_WRITE. -/
def execPortMaskWrite (q : KReq) (n : Nat) (v : BitVec 64) (s : State) : Host.Outcome State Fault Refusal :=
  done (kioskCmd s q (0x4000 + n) 0x03 false (fun s _ =>
    let p := plotAt s n
    let old := p.portMask
    let added := (bitsSet v 64).filter (fun j => !old.getLsbD j)
    let kept := (bitsSet old 64).all (fun j => v.getLsbD j && added.all (fun a => decide (j < a)))
    let t := modPlot s n (fun p => { p with portMask := v })
    if p.loadState ≠ 0 ∧ kept = false then .error stKioskState
    else if added.any (portOver t) then .error stKioskState
    else if added.any (fun j => (dieAt s (j / 4)).testing) then .error stSelftestBusy
    else .ok t))

/-! ### Plot commands (R334, R369) -/

/-- A plot command waits for step 3 of the next tick. -/
def plotCommand (s : State) (q : KReq) (n : Nat) (c : PlotCmd) (allowed : State → Bool) : State :=
  kioskCmd s q (0x4000 + n) 0x10 true (fun s _ =>
    let busy := (plotAt s n).pendingCmd.isSome && !(c == .reset && allowed s)
    if busy then .error stKioskPending
    else if !allowed s then .error stKioskState
    else .ok (modPlot s n (fun p => { p with pendingCmd := some c })))

/-- START, in state 1, but not while the Lodge is fenced or without quorum (R369). -/
def execPlotStart (q : KReq) (n : Nat) (s : State) : Host.Outcome State Fault Refusal :=
  done (plotCommand s q n .start (fun s => (plotAt s n).state == 1 && (domAt s n).state != 3 && (domAt s n).state != 4))

/-- SUSPEND. -/
def execSuspend (q : KReq) (n : Nat) (s : State) : Host.Outcome State Fault Refusal :=
  done (plotCommand s q n .suspend (fun s => (plotAt s n).state == 2))

/-- RESUME. -/
def execPlotResume (q : KReq) (n : Nat) (s : State) : Host.Outcome State Fault Refusal :=
  done (plotCommand s q n .resume (fun s => (plotAt s n).state == 3))

/-- RESET. -/
def execPlotReset (q : KReq) (n : Nat) (s : State) : Host.Outcome State Fault Refusal :=
  done (plotCommand s q n .reset (fun s => decide ((plotAt s n).state ≤ 3)))

/-- The links that a plot's reservations and member tables name (Table 16.2). -/
def namedLinks (s : State) (n : Nat) : List Nat :=
  let rs := match (plotAt s n).image with
    | some img => img.rsvs.flatMap (fun sec => sec.2.filterMap (fun e => rsvLink s n sec.1 e.half))
    | none => []
  let ms := (List.range 16).flatMap (fun j => (descsOn s n j).flatMap (fun e => (List.range (dNmem e.2)).filterMap (memberLink s e.2)))
  (rs ++ ms).eraseDups

/-- A link is ACTIVE with the plot's keys installed, if its packets there are encrypted (Table 16.2, R342). -/
def linkReady (s : State) (n l : Nat) : Bool :=
  let x := linkAt s l
  x.state == 6 && (!x.encMask.getLsbD n || (x.keyx == .agreed && !x.keys.any (fun k => k.plot == n && k.stopped)))

/-- Release is accepted for a cause (Table 16.2). -/
def mayRelease (s : State) (n cause : Nat) : Bool :=
  match cause with
  | 0 => (engsOfPlot s n).all (fun u => (engAt s u).mode != .fault)
  | 1 => false
  | 2 => (regStacks (plotAt s n).region).all (fun k => (stackAt s k).state != 2)
  | 3 | 4 | 5 | 6 => true
  | 7 => (namedLinks s n).all (linkReady s n)
  | 8 => s.sd.align == 1 || s.sd.align == 2
  | 9 => s.shards.all (fun e => !(field e.2.entry 507 5 == n && (e.2.state == 5 || e.2.state == 6)))
  | 10 => decide (1024 ≤ s.power.coolTicks)
  | 11 => true
  | _ => false

/-- RELEASE_HOLD: accepted when every cause in force may be released (R369). -/
def execReleaseHold (q : KReq) (n : Nat) (s : State) : Host.Outcome State Fault Refusal :=
  done (plotCommand s q n .release (fun s =>
    (plotAt s n).held && (bitsSet (plotAt s n).causes 32).all (mayRelease s n)))

/-! ### Settings of a plot -/

/-- JOB_SEED_WRITE: 16 bytes, while STATE is 0 or 1 (R341). -/
def execJobSeedWrite (q : KReq) (n : Nat) (d : DomSeg) (s : State) : Host.Outcome State Fault Refusal :=
  done (kioskDom s q (0x4000 + n) 0x06 16 d (fun s _ all =>
    if all.length ≠ 16 then .error stKioskRange
    else if 1 < (plotAt s n).state then .error stKioskState
    else .ok (modPlot s n (fun p => { p with seed := BitVec.ofNat 128 (leNat all) }))))

/-- The largest energy that an image declares for a frame. -/
def energyPeak (img : Image) : Nat :=
  (img.budget.map (fun f => sumN ((f.filter (fun i => i.res == 4)).map (·.value)))).foldl max 0

/-- ENERGY_BUDGET_WRITE (R397). -/
def execEnergyBudgetWrite (q : KReq) (n : Nat) (v : BitVec 32) (s : State) : Host.Outcome State Fault Refusal :=
  done (kioskCmd s q (0x4000 + n) 0x08 false (fun s _ =>
    if moduleEnergy s.sd.period.toNat < v.toNat then .error stKioskRange
    else if (admitted (plotAt s n)).any (fun i => decide (v.toNat < energyPeak i)) then .error stKioskState
    else .ok (modPlot s n (fun p => { p with energy := v }))))

/-! ### Zeroisation (R346) -/

/-- ZEROISE: 0x5A; the marker goes to the journal, and the steps run at its commit. -/
def execZeroise (q : KReq) (v : BitVec 8) (s : State) : Host.Outcome State Fault Refusal :=
  done (kioskReq s q 0x7000 0x20 true (fun s _ =>
    if v ≠ 0x5A then refuse s q stKioskRange
    else
      let p : JPend := { slot := some q.slot, seq := q.seq, entry := none, zmark := some true }
      { s with journal := { s.journal with pend := s.journal.pend ++ [p] } }))

/-- The bytes of the reserved region stay; all plot space is zeroed. -/
def zeroPlotSpace (h : Hbm) : Hbm :=
  { h with mem := h.mem.filter (fun c => inReserved c.1), badWords := h.badWords.filter (fun w => inReserved (32 * w)) }

/-- Steps 2 to 5 of R346, the marker having been written; the marker is then to be cleared, with every persistent object at its
default. -/
def zeroiseAll (s : State) : State :=
  let s := allPlots.foldl resetPlotT s
  let s := { s with
    plots := s.plots.map (fun e => (e.1, { e.2 with seed := 0, ilvKey := 0, sprayKey := 0, sprayHeld := false }))
    gate := { s.gate with reporting := false, nonce := none } }
  let s := ((List.range 128).filter (fun l => (linkAt s l).state == 6 && (linkAt s l).encMask != 0)).foldl
    (fun s l => linkDown s l stLinkCommanded true true) s
  let s := { s with
    pavs := s.pavs.map (fun e => (e.1, { e.2 with sram := [], badWords := [] }))
    coll := { s.coll with dies := s.coll.dies.map (fun e => (e.1, { e.2 with mem := [], badWords := [] })) }
    hbm := zeroPlotSpace s.hbm
    gate := { s.gate with trust := [], state := 2, status := 0 }
    kiosk := { s.kiosk with anchorsSo := [], anchorsFm := [], anchorsPo := [], anchorsOb := [] } }
  let s := emit s rkZeroise srcGate none []
  let p : JPend := { slot := none, seq := 0, entry := none, zmark := some false }
  { s with journal := { s.journal with pend := s.journal.pend ++ [p] } }

/-! ### Attestation (R347) -/

/-- ATTESTATION_REQUEST: a 32-byte nonce. -/
def execAttestationRequest (q : KReq) (d : DomSeg) (s : State) : Host.Outcome State Fault Refusal :=
  done (kioskDom s q 0x7000 0x30 32 d (fun s _ all =>
    if all.length ≠ 32 then .error stKioskRange
    else .ok { s with gate := { s.gate with nonce := some all, reporting := true } }))

/-- What CFGHASH covers (Table 14.9). -/
def cfgBytes (s : State) (plot : Option Nat) : List Byte :=
  match plot with
  | some n =>
    let p := plotAt s n
    natLe 32 p.pavMask.toNat ++ natLe 8 p.portMask.toNat ++ natLe 8 p.region.toNat ++
      (List.range 64).map (fun k => BitVec.ofNat 8 (bit ((portAt s k).encMask.getLsbD n)))
  | none => natLe 32 s.enableMap.toNat ++ natLe 32 s.route.dir.toNat ++ natLe 4 s.route.self.toNat

/-- IMGHASH: the active image of a plot whose STATE is not 0. -/
def imgHash (s : State) (plot : Option Nat) : Nat :=
  match plot with
  | some n => match (plotAt s n).image with
    | some img => if (plotAt s n).state = 0 then 0 else (Config.sha384 img.bytes).toNat
    | none => 0
  | none => 0

/-- The report body of Table 14.9. -/
def reportBody (s : State) (nonce : List Byte) : List Byte :=
  let t := s.gate.target
  let plot : Option Nat := if t.getLsbD 5 then some (field t 0 5) else none
  let n := plot.getD 0
  let epoch := match plot with | some n => (plotAt s n).epoch.toNat | none => 0
  natLe 256 (0x41545354 * 2 ^ 2016 + 1 * 2 ^ 2000 + bit plot.isSome * 2 ^ 1992 + n * 2 ^ 1987 + s.power.svn.toNat * 2 ^ 1952 +
    s.sd.boot.toNat * 2 ^ 1920 + s.sd.ticks.toNat * 2 ^ 1856 + epoch * 2 ^ 1840 + s.power.running.toNat * 2 ^ 1832 + 1 * 2 ^ 1824 +
    leNat nonce * 2 ^ 1568 + (Config.fwHash s.power.running.toNat).toNat * 2 ^ 1184 + (Config.sha384 (cfgBytes s plot)).toNat * 2 ^ 800 +
    Config.serial.toNat % 2 ^ 128 * 2 ^ 672 + s.enableMap.toNat * 2 ^ 416 + imgHash s plot * 2 ^ 32)

/-- ATTESTATION_REPORT_READY: the body with its two signatures, 4,979 bytes. -/
def execAttestationReportReady (s : State) : Host.Outcome State Fault Refusal :=
  match s.gate.nonce with
  | some nonce =>
    if s.gate.reporting then
      let b := reportBody s nonce
      let s := { s with gate := { s.gate with
        reporting := false, report := b ++ padTo 96 (Config.ecdsaP384 b) ++ padTo 4627 (Config.mlDsa87 b) } }
      done (bumpChange s 0x7000 0x31)
    else done s
  | none => done s

/-! ### Faults of the Gatehouse -/

/-- ENTROPY_FAIL: every later draw fails until power-good (R340). -/
def execEntropyFail (s : State) : Host.Outcome State Fault Refusal :=
  if s.gate.entropyFailed then done s
  else done (emit { s with gate := { s.gate with entropyFailed := true } } rkEntropyFail srcGate none [])

/-- LOCKSTEP_FAIL: an uncontained error (R339, Table 16.1). -/
def execLockstepFail (s : State) : Host.Outcome State Fault Refusal :=
  done (uncontained (emit s rkLockstepFail srcGate none []))

end Sys2Proof.Machine
end

