-- ==== Sys2Proof/Machine/Sessions.lean ====
section
/-! DEFINITION. Kiosk sessions and what runs for them: opening, authentication and closing, subscriptions, ring reads, journal snapshots
and the export of records (R354–R364, R372–R375). -/

namespace Sys2Proof.Machine

/-! ### Opening a session (R354, R355) -/

/-- The anchor list of a role. -/
def anchorsOf (s : State) : Role → List Byte
  | .so => s.kiosk.anchorsSo
  | .fm => s.kiosk.anchorsFm
  | .po => s.kiosk.anchorsPo
  | .ob => s.kiosk.anchorsOb

/-- The role, and the plot of a PO, that a chain binds: the first list in the order SO, FM, PO, OB that it leads to (R354). -/
def bindRole (s : State) (c : ChainVerdict) : Option (Role × Nat) :=
  if !c.signed then none
  else match ([Role.so, .fm, .po, .ob] : List Role).find? (fun r => c.leads.contains r && anchorsOf s r != []) with
    | some .po => match c.plot with
      | some n => if n < 32 then some (.po, n) else none
      | none => none
    | some r => some (r, 0)
    | none => none

/-- The lowest free slot of 0 to 6. -/
def freeSlot (s : State) : Option Nat := (List.range 7).find? (fun k => !(sessAt s k).isOpen)

/-- An OPEN is refused: it has no session, so its answer goes straight back. -/
def refuseOpen (s : State) (q : KReq) (st : U16) : State :=
  let s := countRefusal s
  { s with out := s.out ++ [.kiosk q.slot { notify := false, seq := q.seq, status := st }] }

/-- Open a slot. -/
def openSlot (s : State) (k : Nat) (x : Session) : State :=
  let s := { s with kiosk := { s.kiosk with sids := s.kiosk.sids + 1 } }
  setSess s k { x with isOpen := true, sid := Config.sessionId s.kiosk.sids, opened := s.sd.ticks.extractLsb' 0 32 }

/-- PARAM of the response: slot, role and plot (Table 15.5). -/
def openParam (k : Nat) (r : Role) (n : Nat) : BitVec 32 := BitVec.ofNat 32 (k + 8 * roleCode r + 32 * n)

/-- OPEN_SESSION. -/
def execOpenSession (q : KReq) (t : Transport) (link : Nat) (c : ChainVerdict) (s : State) : Host.Outcome State Fault Refusal :=
  if t == .inband && !active s link then done s
  else if !q.wellFormed then done (refuseOpen s q stKioskMalformed)
  else if t == .i3c then done (refuseOpen s q stKioskAccess)
  else if !kioskReady s then done (refuseOpen s q stKioskNotReady)
  else match freeSlot s with
    | none => done (refuseOpen (emit s rkSessionRefused srcMgmt none []) q stSessionLimit)
    | some k =>
      if t == .inband then
        if s.gate.state == 2 then done (refuseOpen s q stKioskAuth)
        else if s.gate.entropyFailed then done (refuseOpen s q stKioskState)
        else
          let nonce : BitVec 256 := Config.drbg s.gate.draws ++ Config.drbg (s.gate.draws + 1)
          let s := { s with gate := { s.gate with draws := s.gate.draws + 2 } }
          let s := openSlot s k { transport := t, link := link, nonce := nonce }
          done (respond s { q with slot := k } stOk (openParam k .ob 0) (natLe 32 nonce.toNat))
      else match bindRole s c with
        | none => done (refuseOpen s q stKioskAuth)
        | some (r, n) =>
          let s := openSlot s k { transport := t, role := r, plot := n }
          done (respond s { q with slot := k } stOk (openParam k r n) [])

/-- AUTH: an in-band session that has not been bound takes its role, or is refused and waits for its time to end. -/
def execAuth (q : KReq) (c : ChainVerdict) (s : State) : Host.Outcome State Fault Refusal :=
  let x := sessAt s q.slot
  if !q.wellFormed then done (refuse s q stKioskMalformed)
  else if !x.isOpen then done (discardReq s q)
  else if x.transport == .i3c then done (refuse s q stKioskAccess)
  else if !kioskReady s then done (refuse s q stKioskNotReady)
  else if x.transport != .inband || x.authed then done (refuse s q stKioskState)
  else match bindRole s c with
    | none => done (refuse s q stKioskAuth)
    | some (r, n) => done (accept (modSess s q.slot (fun x => { x with role := r, plot := n, authed := true })) q)

/-! ### Closing (R356) -/

/-- AUTH_TIMEOUT: an in-band session with no AUTH within 1 s. -/
def execAuthTimeout (slot : Nat) (s : State) : Host.Outcome State Fault Refusal :=
  let x := sessAt s slot
  if x.isOpen && x.transport == .inband && !x.authed then done (closeSlot s slot) else done s

/-- A request of a session that names no object: header, session and MAC, transport and readiness. -/
def sessionReq (s : State) (q : KReq) (act : State → Session → State) : State :=
  match gateSession s q with
  | .pass =>
    let s := heardReq s q
    if (sessAt s q.slot).transport == .i3c then refuse s q stKioskAccess
    else if !kioskReady s then refuse s q stKioskNotReady
    else act s (sessAt s q.slot)
  | .refuse st => refuse s q st
  | .discard => discardReq s q

/-- CLOSE. -/
def execClose (q : KReq) (s : State) : Host.Outcome State Fault Refusal :=
  done (sessionReq s q (fun s _ => closeSlot (accept s q) q.slot))

/-- SESSION_TIMEOUT: an idle session. -/
def execSessionTimeout (slot : Nat) (s : State) : Host.Outcome State Fault Refusal :=
  if (sessAt s slot).isOpen then done (closeSlot s slot) else done s

/-- CLOSE_SESSION: 0x1100:05 closes a slot of 0 to 6. -/
def execCloseSession (q : KReq) (v : BitVec 8) (s : State) : Host.Outcome State Fault Refusal :=
  done (kioskReq s q 0x1100 0x05 true (fun s _ =>
    if 6 < v.toNat then refuse s q stKioskRange
    else if !(sessAt s v.toNat).isOpen then refuse s q stKioskState
    else closeSlot (accept s q) v.toNat))

/-- TLS_CONNECTION_END. -/
def execTlsConnectionEnd (slot : Nat) (s : State) : Host.Outcome State Fault Refusal :=
  let x := sessAt s slot
  if x.isOpen && (x.transport == .tls0 || x.transport == .tls1) then done (closeSlot s slot) else done s

/-! ### Subscriptions (R360) -/

/-- The object may be subscribed to: it exists, the session may read it, and it is no DOMAIN. -/
def subscribable (x : Session) (index sub : Nat) : Except U16 Unit :=
  if !objExists index sub then .error stKioskNoObject
  else if !(objAcc index sub x.role x.plot).reads then .error stKioskAccess
  else if (objFind index sub).any (fun e => e.ty == .domain) then .error stKioskType
  else .ok ()

/-- SUBSCRIBE. -/
def execSubscribe (q : KReq) (index : BitVec 16) (sub : BitVec 8) (period : BitVec 32) (s : State) : Host.Outcome State Fault Refusal :=
  done (sessionReq s q (fun s x =>
    match subscribable x index.toNat sub.toNat with
    | .error st => refuse s q st
    | .ok _ =>
      let others := x.subs.filter (fun u => !(u.index == index && u.sub == sub))
      if period ≠ 0 ∧ period.toNat < 256 then refuse s q stKioskRange
      else if 32 ≤ others.length then refuse s q stSubLimit
      else
        let v := readObject s x q.slot index.toNat sub.toNat
        accept (modSess s q.slot (fun x => { x with
          subs := others ++ [{ index := index, sub := sub, period := period, since := s.sd.ticks, lastValue := v }] })) q))

/-- UNSUBSCRIBE. -/
def execUnsubscribe (q : KReq) (index : BitVec 16) (sub : BitVec 8) (s : State) : Host.Outcome State Fault Refusal :=
  done (sessionReq s q (fun s x =>
    if x.subs.any (fun u => u.index == index && u.sub == sub) then
      accept (modSess s q.slot (fun x => { x with subs := x.subs.filter (fun u => !(u.index == index && u.sub == sub)) })) q
    else refuse s q stKioskState))

/-- A subscription is due: its value has changed, or its period has passed. -/
def subDue (s : State) (u : Sub) (v : List Byte) : Bool :=
  if u.period = 0 then v != u.lastValue else decide (u.since.toNat + u.period.toNat ≤ s.sd.ticks.toNat)

/-- A due notification joins the queue of its session, takes the place of the one of the same subscription there, or is dropped. -/
def queueNote (x : Session) (u : Sub) (v : List Byte) : Session :=
  let m : KMsg := { notify := true, seq := 0, index := u.index, sub := u.sub, param := u.missed, body := v }
  let next := if u.period = 0 then u.since else u.since + BitVec.setWidth 64 u.period
  let same (k : KMsg) : Bool := k.notify && k.index == u.index && k.sub == u.sub
  let setSub (f : Sub → Sub) (x : Session) : Session := { x with subs := x.subs.map (fun w => if w.index == u.index && w.sub == u.sub then f w else w) }
  if x.outq.length < 64 then
    setSub (fun w => { w with since := next, lastValue := v, missed := 0 }) { x with
      outq := x.outq ++ [m], mctrOut := if x.transport == .inband then x.mctrOut + 1 else x.mctrOut }
  else if x.outq.any same then
    setSub (fun w => { w with since := next, lastValue := v }) { x with outq := x.outq.map (fun k => if same k then { m with param := k.param } else k) }
  else setSub (fun w => { w with since := next, missed := w.missed + 1 }) x

/-- NOTIFY, after step 5 of a tick. -/
def execNotify (slot : Nat) (index : BitVec 16) (sub : BitVec 8) (s : State) : Host.Outcome State Fault Refusal :=
  let x := sessAt s slot
  match x.subs.find? (fun u => u.index == index && u.sub == sub) with
  | none => done s
  | some u =>
    let v := readObject s x slot index.toNat sub.toNat
    if x.isOpen && subDue s u v then done (setSess s slot (queueNote x u v)) else done s

/-! ### Rings (R372, R375) -/

/-- The most body bytes of a message on a transport (Table 15.4). -/
def bodyLimit : Transport → Nat
  | .tls0 | .tls1 => 65024
  | .inband => 3824
  | .i3c => 224

/-- Records become read in their ring. -/
def markRead (t : Tele) (c : Nat) (p : Nat → RingRec → Bool) : Tele :=
  setRing t c ((ringOf t c).zipIdx.map (fun (r, i) => if p i r then { r with read := true } else r))

/-- The rings answer once the Kiosk is ready, and over I3C from step 10 (R400). -/
def ringReadable (s : State) (x : Session) : Bool := kioskReady s || (x.transport == .i3c && decide (10 ≤ s.power.step))

/-- RING_READ: records from a byte offset on; those whose last byte is returned become read. -/
def execRingRead (q : KReq) (cls offset len : Nat) (s : State) : Host.Outcome State Fault Refusal :=
  match gateSession s q with
  | .refuse st => done (refuse s q st)
  | .discard => done (discardReq s q)
  | .pass =>
    let s := heardReq s q
    let x := sessAt s q.slot
    if !ringReadable s x then done (refuse s q stKioskNotReady)
    else
      let all := (ringOf s.tele cls).flatMap (fun r => recBytes r.rec_)
      let n := min len (bodyLimit x.transport)
      let body := sliceB all offset n
      let fin := offset + body.length
      let s := { s with tele := markRead s.tele cls (fun i _ => decide (offset < 32 * i + 32) && decide (32 * i + 32 ≤ fin)) }
      done (sendMsg s q.slot {
        notify := false, seq := q.seq, index := 0x8000, sub := BitVec.ofNat 8 (cls + 1), status := stOk,
        param := tblGet 0 s.tele.ringPuts cls, last := decide (all.length ≤ fin), body := body })

/-- The TELEMETRY packet of some records. -/
def telemetryPkt (s : State) (rs : List Rec) : Pkt :=
  {
    vc := 6, cls := 3, dest := s.tele.collector.extractLsb' 0 24, opc := opTelemetry, len := BitVec.ofNat 5 ((32 * rs.length + 239) / 240),
    body := rs.flatMap recBytes }

/-- TELEMETRY_EXPORT: up to 120 of the oldest records not yet taken go to the collector in one packet, and are read. -/
def execTelemetryExport (link : Option Nat) (s : State) : Host.Outcome State Fault Refusal :=
  let rs := s.tele.toSend.take 120
  if s.tele.collector = 0x00FFFFFF ∨ rs = [] then done s
  else
    let p := telemetryPkt s rs
    if link.any (fun l => routeOf s none p != .out l) then done s
    else
      let t := { s.tele with toSend := s.tele.toSend.drop 120 }
      let t := (List.range 4).foldl (fun t c => markRead t c (fun _ r => rs.contains r.rec_)) t
      done (sendOut { s with tele := t } none p)

/-- INCIDENT_END: 4,096 ticks without an A record end an incident, and its tail window leaves through staging. -/
def execIncidentEnd (plot : Option Nat) (s : State) : Host.Outcome State Fault Refusal :=
  match s.tele.incidents.find? (fun i => i.plot == plot) with
  | none => done s
  | some i =>
    if i.last.toNat + 4096 ≤ s.sd.ticks.toNat then
      let t := { s.tele with incidents := s.tele.incidents.filter (fun j => j.plot != plot) }
      done { s with tele := i.tail.foldl (fun t r => collectTele (stageRec t r)) t }
    else done s

/-! ### Snapshots (R362, R364) -/

/-- Answer the writer of a snapshot, if its session is still there. -/
def answerPend (s : State) (p : JPend) (st : U16) : State :=
  match p.slot with
  | some k => if (sessAt s k).isOpen then respond s { slot := k, seq := p.seq, len := 0 } st 0 [] else s
  | none => s

/-- A snapshot that failed twice (R364). -/
def failPend (s : State) (p : JPend) (set : List JEntry) : State :=
  let s := { s with journal := runSnapshot s.journal false s.sd.boot s.journal.zmark set }
  answerPend (emit s rkJournalWriteFail srcMgmt none []) p stJournalFail

/-- What a snapshot commits: the marker with the set, the defaults with the marker cleared, or the set with one new value; then its effect. -/
def commitPend (s : State) (p : JPend) : State :=
  let c := snapshotOf s p
  let j (s : State) : Journal := { runSnapshot s.journal true s.sd.boot c.1 c.2 with zmark := c.1 }
  match p.zmark, p.entry with
  | some true, _ => answerPend (zeroiseAll { s with journal := j s }) p stOk
  | some false, _ => answerPend { s with journal := j s } p stOk
  | none, some e =>
    let s := rwsPut s e.index.toNat e.sub.toNat p.sel e.value
    let s := { s with journal := j s }
    let s := if (objFind e.index.toNat e.sub.toNat).any (fun o => o.ty == .domain) then bumpChange s e.index.toNat e.sub.toNat else s
    answerPend s p stOk
  | none, none => s

/-- SNAPSHOT: the first that waits runs the steps of Table 15.7, and once more into the same slot if its verify fails. -/
def execSnapshot (o : FlashObs) (s : State) : Host.Outcome State Fault Refusal :=
  match s.journal.pend with
  | [] => done s
  | p :: rest =>
    let s := { s with journal := { s.journal with pend := rest } }
    if o.first || o.second then done (commitPend s p) else done (failPend s p (rwsSet s))

end Sys2Proof.Machine
end

