-- ==== Sys2Proof/Machine/Writes.lean ====
section
/-! DEFINITION. OBJECT_WRITE: writes and commands of the objects, or of the values of an object, that have no row of their own in the
table of operations (R359 with the object tables of chapters 02 to 17). -/

namespace Sys2Proof.Machine

/-! ### Objects and values with a row of their own -/

/-- A WRITE that has a row of its own. -/
def writeRow (index sub : Nat) : Bool :=
  if 0x3000 ≤ index ∧ index ≤ 0x303F then sub == 0x01
  else if 0x4000 ≤ index ∧ index ≤ 0x401F then [0x02, 0x03, 0x04, 0x05, 0x06, 0x08].contains sub
  else [(0x1200, 0x01), (0x3400, 0x01), (0x3400, 0x02), (0x5000, 0x0B), (0x6000, 0x02), (0x6000, 0x21), (0x7000, 0x30), (0x9100, 0x02),
    (0xA000, 0x30), (0xA000, 0x32)].contains (index, sub)

/-- A COMMAND whose value has a row of its own. -/
def commandRow (index sub v : Nat) : Bool :=
  if 0x3000 ≤ index ∧ index ≤ 0x303F then sub == 0x02 && [1, 2, 0x81, 0x82].contains v
  else if 0x4000 ≤ index ∧ index ≤ 0x401F then (sub == 0x0A && [1, 2, 3].contains v) || (sub == 0x10 && [1, 2, 3, 4, 5].contains v)
  else match index, sub with
    | 0x1100, 0x05 => true
    | 0x5000, 0x05 => true
    | 0x5000, 0x0C => v == 1 || v == 2
    | 0x5000, 0x12 => true
    | 0x5000, 0x13 => true
    | 0x6000, 0x08 => decide (1 ≤ v) && decide (v ≤ 6)
    | 0x6900, 0x0C => v / 2 ^ 32 == 1 || v / 2 ^ 32 == 2
    | 0x7000, 0x20 => true
    | 0x9100, 0x09 => true
    | 0xA000, 0x20 => decide (1 ≤ v) && decide (v ≤ 4)
    | _, _ => false

/-! ### Conditions -/

def rangeIf (b : Bool) : Option U16 := if b then some stKioskRange else none
def stateIf (b : Bool) : Option U16 := if b then some stKioskState else none
def accessIf (b : Bool) : Option U16 := if b then some stKioskAccess else none
/-- A PO selects only its own plot (KIOSK_ACCESS). -/
def poOther (x : Session) (n : Nat) : Option U16 := accessIf (x.role == .po && x.plot != n)

/-- A selector of the session takes its value. -/
def selWrite (s : State) (q : KReq) (index sub : Nat) (check : State → Session → Option U16) (f : Session → Session) : State :=
  kioskCmd s q index sub false (fun s x => match check s x with
    | some st => .error st
    | none => .ok (modSess s q.slot f))

/-- An RW object takes its value. -/
def rwWrite (s : State) (q : KReq) (index sub : Nat) (check : State → Session → Option U16) (f : State → Session → State) : State :=
  kioskCmd s q index sub false (fun s x => match check s x with
    | some st => .error st
    | none => .ok (f s x))

/-- An RWS object that is a DOMAIN: its whole value waits for its snapshot. -/
def domRws (s : State) (q : KReq) (index sub limit : Nat) (d : DomSeg) : State :=
  kioskReq s q index sub false (fun s _ => domSegment s q index sub limit d (fun s all => journalWrite s q index sub 0 all))

/-! ### The objects, by index -/

/-- 0x1100. -/
def write11 (s : State) (q : KReq) (sub : Nat) (d : DomSeg) (v : Nat) : State :=
  match sub with
  | 0x02 => selWrite s q 0x1100 sub (fun _ _ => rangeIf (decide (7 < v))) (fun x => { x with sessSel := BitVec.ofNat 8 v })
  | 0x06 => kioskRws s q 0x1100 sub 0 (natLe 4 v) (fun _ _ => rangeIf (decide (v < 1000) || decide (3600000 < v)))
  | 0x30 => domRws s q 0x1100 sub 256 d
  | _ => domRws s q 0x1100 sub 16384 d

/-- The end of an excursion above 20 ns: SUNDIAL_ALIGN, once, with its peak (R47): the greatest absolute error in ns, 32 bits without a
sign (DESIGN CHOICE, log entry 80). -/
def endExcursion (s : State) : State :=
  match s.sd.excursion with
  | some p => emit { s with sd := { s.sd with excursion := none } } rkSundialAlign (srcHub 0) none [(32, p)]
  | none => s

/-- The alignment state that the master and parent objects give (R45): a master is aligned to itself, a module with neither runs free, and
one that has been given a parent begins to align. -/
def sundialRole (s : State) : State :=
  let master := s.sd.master != 0x00FFFFFF && s.sd.master == s.route.self
  let parent := s.sd.parent.toNat < 128 && (linkHalf s.sd.parent.toNat == 0 || splitPort s (linkPort s.sd.parent.toNat))
  if master then (let s := endExcursion s; { s with sd := { s.sd with align := 2, hops := 0, err := 0, missed := 0 } })
  else if parent then (if s.sd.align = 0 then { s with sd := { s.sd with align := 1 } } else s)
  else (let s := endExcursion s; { s with sd := { s.sd with align := 0, hops := 0xFF, missed := 0 } })

/-- 0x1200: master and parent port (R43, R45). -/
def write12 (s : State) (q : KReq) (sub : Nat) (v : Nat) : State :=
  match sub with
  | 0x02 => rwWrite s q 0x1200 sub (fun _ _ => rangeIf (decide (2 ^ 24 ≤ v)))
      (fun s _ => sundialRole { s with sd := { s.sd with master := BitVec.ofNat 32 v } })
  | _ => rwWrite s q 0x1200 sub (fun s _ => rangeIf (decide (128 ≤ v) && v != 255) <|>
        stateIf (decide (v < 128) && linkHalf v == 1 && !splitPort s (linkPort v)))
      (fun s _ => sundialRole { s with sd := { s.sd with parent := BitVec.ofNat 8 v, missed := 0 } })

/-- 0x2000: the modes of B2 launches (R91). -/
def write20 (s : State) (q : KReq) (sub : Nat) (v : Nat) : State :=
  match sub with
  | 0x01 => kioskRws s q 0x2000 sub 0 (natLe 1 v) (fun _ _ => rangeIf (decide (3 < v)))
  | _ => kioskRws s q 0x2000 sub 0 (natLe 4 v) (fun _ _ =>
      rangeIf (decide (signedN 32 v < -1074) || decide (417 < signedN 32 v)))

/-- 0x3000+n: expected partner and encryption masks; other link commands are reserved. -/
def write30 (s : State) (q : KReq) (index sub : Nat) (v : Nat) : State :=
  match sub with
  | 0x03 => kioskRws s q index sub 0 (natLe 4 v) (fun _ _ => rangeIf (decide (2 ^ 24 ≤ v)))
  | 0x0E => kioskRws s q index sub 0 (natLe 4 v) (fun _ _ => none)
  | 0x1E => kioskRws s q index sub 0 (natLe 4 v) (fun s _ => stateIf (!splitPort s (index - 0x3000)))
  | _ => kioskReq s q index sub true (fun s _ => refuse s q stKioskRange)

/-- The minima of all VCs but one. -/
def otherMins (v : Nat) : Nat := sumN (((List.range 8).filter (· != v)).map initMin)

/-- The allocations with every accepted write that waits for its snapshot (R291, R362). -/
def creditsDue (s : State) : List (BitVec 16) :=
  s.journal.pend.foldl (fun cs p => match p.entry with
    | some e => if e.index == 0x3100 then cs.set (e.sub.toNat - 1) (BitVec.ofNat 16 (leNat e.value)) else cs
    | none => cs) s.net.credits

/-- 0x3100: a VC's allocation is at least its minimum and all total at most 12,288 flits (R291); a value that leaves the other VCs less
than their minima is out of range whatever they hold (R352). -/
def write31 (s : State) (q : KReq) (sub : Nat) (v : Nat) : State :=
  kioskRws s q 0x3100 sub 0 (natLe 2 v) (fun s _ =>
    rangeIf (decide (v < initMin (sub - 1)) || decide (12288 < v + otherMins (sub - 1))) <|>
    stateIf (decide (12288 < sumN (((creditsDue s).set (sub - 1) (BitVec.ofNat 16 v)).map (·.toNat)))))

/-- 0x3200, 0x3400, 0x3500, 0x3600: window, own id, thresholds, weights and selectors. -/
def write3x (s : State) (q : KReq) (index sub : Nat) (v : Nat) : State :=
  match index, sub with
  | 0x3200, 0x01 => selWrite s q index sub (fun _ x => poOther x v <|> rangeIf (decide (31 < v))) (fun x => { x with winSel := BitVec.ofNat 8 v })
  | 0x3200, _ => kioskRws s q index sub (sessAt s q.slot).winSel.toNat (natLe 1 v) (fun _ _ => none)
  | 0x3400, 0x03 => kioskRws s q index sub 0 (natLe 4 v) (fun _ _ => rangeIf (decide (2 ^ 24 ≤ v)))
  | 0x3400, _ => rwWrite s q index sub (fun _ _ => rangeIf (v == 0)) (fun s _ => { s with route := { s.route with stallLimit := BitVec.ofNat 32 v } })
  | 0x3500, 0x01 => selWrite s q index sub (fun _ x => poOther x v <|> rangeIf (decide (32 < v))) (fun x => { x with subSel := BitVec.ofNat 8 v })
  | 0x3500, 0x02 => rwWrite s q index sub (fun _ _ => none)
      (fun s x => { s with route := { s.route with weights := tblSet s.route.weights x.subSel.toNat (BitVec.ofNat 16 v) } })
  | 0x3500, 0x03 => rwWrite s q index sub (fun _ x => poOther x x.subSel.toNat <|> rangeIf (decide (2 ^ 48 ≤ v)))
      (fun s x => { s with route := { s.route with clsWeights := tblSet s.route.clsWeights x.subSel.toNat (BitVec.ofNat 64 v) } })
  | 0x3500, 0x04 => rwWrite s q index sub (fun _ _ => rangeIf (v == 0)) (fun s _ => { s with route := { s.route with starveLimit := BitVec.ofNat 32 v } })
  | 0x3500, _ => selWrite s q index sub (fun _ _ => rangeIf (decide (127 < v))) (fun x => { x with linkSel := BitVec.ofNat 8 v })
  | _, _ => selWrite s q index sub (fun _ x => poOther x v <|> rangeIf (decide (31 < v))) (fun x => { x with keySel := BitVec.ofNat 8 v })

/-- 0x4000+n: the image object, and load and plot commands of other values. -/
def write40 (s : State) (q : KReq) (n sub : Nat) (d : DomSeg) : State :=
  match sub with
  | 0x09 => kioskDom s q (0x4000 + n) 0x09 (64 * 2 ^ 20) d (fun s _ all => .ok (modPlot s n (fun p => { p with imageObj := all })))
  | 0x0A => kioskReq s q (0x4000 + n) 0x0A true (fun s _ => refuse s q (if loadBusy (plotAt s n) then stLoadPending else stKioskRange))
  | _ => kioskReq s q (0x4000 + n) sub true (fun s _ => refuse s q stKioskRange)

/-- A debug object acts on an engine that a PO owns (R173). -/
def ownEng (s : State) (x : Session) : Option U16 := accessIf (!ownsPav s x (selEng x).pav)

/-- 0x5000: engine and counter selectors, break settings; other self-test codes are reserved. -/
def write50 (s : State) (q : KReq) (sub : Nat) (v : Nat) : State :=
  match sub with
  | 0x01 => selWrite s q 0x5000 sub (fun s x => accessIf (x.role == .po && !ownsPav s x (fieldN v 0 8)) <|>
        rangeIf (decide (2 ^ 12 ≤ v) || decide (5 < fieldN v 8 4) || !s.enableMap.getLsbD (fieldN v 0 8)))
      (fun x => { x with engSel := BitVec.ofNat 32 v })
  | 0x02 => rwWrite s q 0x5000 sub (fun s x => ownEng s x <|> rangeIf (decide (3 < v)))
      (fun s x => modEng s (selEng x) (fun e => { e with breakEn := BitVec.ofNat 8 v }))
  | 0x03 => rwWrite s q 0x5000 sub (fun s x => ownEng s x) (fun s x => modEng s (selEng x) (fun e => { e with breakCount := BitVec.ofNat 64 v }))
  | 0x04 => rwWrite s q 0x5000 sub (fun s x => ownEng s x) (fun s x => modEng s (selEng x) (fun e => { e with breakTag := BitVec.ofNat 32 v }))
  | 0x10 => selWrite s q 0x5000 sub (fun _ _ => rangeIf (decide (63 < v))) (fun x => { x with ctrSel := BitVec.ofNat 8 v })
  | _ => kioskReq s q 0x5000 sub true (fun s _ => refuse s q stKioskRange)

/-- 0x5800: selectors and the provisional relay enable (R226, R247). -/
def write58 (s : State) (q : KReq) (sub : Nat) (v : Nat) : State :=
  match sub with
  | 0x01 => selWrite s q 0x5800 sub (fun s x => accessIf (x.role == .po && !(descAt? s (fieldN v 0 4) (fieldN v 4 10)).any (fun d => d.plot == x.plot)) <|>
        rangeIf (decide (2 ^ 14 ≤ v)))
      (fun x => { x with descSel := BitVec.ofNat 16 v })
  | 0x06 => rwWrite s q 0x5800 sub (fun _ _ => none) (fun s _ => { s with coll := { s.coll with relay := BitVec.ofNat 32 v } })
  | 0x12 => selWrite s q 0x5800 sub (fun _ _ => rangeIf (decide (2 ^ 14 ≤ v))) (fun x => { x with trigSel := BitVec.ofNat 16 v })
  | _ => selWrite s q 0x5800 sub (fun _ x => poOther x (fieldN v 12 5) <|> rangeIf (decide (2 ^ 17 ≤ v))) (fun x => { x with layerSel := BitVec.ofNat 32 v })

/-- 0x5900:02 as it may be written: groups to the end of the value, home endpoint ids of 24 bits, and member entries whose reserved bits
are zero and whose HALF is none that is reserved (R10, Table 8.3, log entry 24). -/
def groupsOk (bs : List Byte) : Bool :=
  let gs := b2Groups bs
  (gs.map (fun g => 8 + 8 * g.2.length)).sum == bs.length &&
    gs.zipIdx.all (fun g => decide (numAt bs (4 + ((gs.take g.2).map (fun e => 8 + 8 * e.2.length)).sum) 4 < 2 ^ 24) &&
      g.1.2.all (fun e => fieldN e 0 32 == 0 && fieldN e 38 2 != 1))

/-- 0x5900: B2 enable, groups and reserve; a reserve that takes a die past 1,024 descriptors with those of every admitted image is refused
(R201, R226). -/
def write59 (s : State) (q : KReq) (sub : Nat) (d : DomSeg) (v : Nat) : State :=
  match sub with
  | 0x01 => kioskRws s q 0x5900 sub 0 (natLe 4 v) (fun _ _ => none)
  | 0x02 => kioskDom s q 0x5900 sub (2 ^ 24) d (fun s _ all =>
      if groupsOk all then .ok { s with coll := { s.coll with b2Groups := all } } else .error stKioskRange)
  | _ => kioskRws s q 0x5900 sub 0 (natLe 2 v) (fun s _ => rangeIf (decide (1024 < v)) <|>
      stateIf ((List.range 16).any (fun j => decide (1024 < totalWith (loadBeside s 32) (.descs j) 0 + v))))

/-- 0x6000, 0x6800, 0x6900: selectors; other shard and buffer commands are reserved (R269, R283, R193). -/
def write60 (s : State) (q : KReq) (index sub : Nat) (v : Nat) : State :=
  match index, sub with
  | 0x6000, 0x01 => selWrite s q index sub (fun s x => accessIf (x.role == .po && shardValid (shardAt s v) && ePlot (shardAt s v).entry != x.plot) <|>
        rangeIf (decide (4095 < v)))
      (fun x => { x with shardSel := BitVec.ofNat 16 v })
  | 0x6000, 0x20 => selWrite s q index sub (fun _ x => poOther x v <|> rangeIf (decide (31 < v))) (fun x => { x with normSel := BitVec.ofNat 8 v })
  | 0x6800, 0x01 => selWrite s q index sub (fun _ _ => rangeIf (decide (7 < v))) (fun x => { x with stackSel := BitVec.ofNat 8 v })
  | 0x6900, 0x02 => selWrite s q index sub (fun s x => accessIf (x.role == .po && !(poolAt? s v).any (fun p => p.plot == x.plot)))
      (fun x => { x with poolSel := BitVec.ofNat 8 v })
  | _, _ => kioskReq s q index sub true (fun s _ => refuse s q stKioskRange)

/-- 0x7000: trust anchors and the attestation target (R347). -/
def write70 (s : State) (q : KReq) (sub : Nat) (d : DomSeg) (v : Nat) : State :=
  match sub with
  | 0x10 => domRws s q 0x7000 sub 16384 d
  | _ => rwWrite s q 0x7000 sub (fun _ x => accessIf (x.role == .po && v != 32 + x.plot) <|> rangeIf (decide (63 < v)))
      (fun s _ => { s with gate := { s.gate with target := BitVec.ofNat 8 v } })

/-- 0x8000, 0x9100 and 0xA000: the collector, Lodge timing and selectors; other reset commands are reserved (R392, R409). -/
def write80 (s : State) (q : KReq) (index sub : Nat) (v : Nat) : State :=
  match index, sub with
  | 0x8000, 0x10 => kioskRws s q index sub 0 (natLe 4 v) (fun _ _ => rangeIf (decide (2 ^ 24 ≤ v)))
  | 0x8000, 0x11 => kioskRws s q index sub 0 (natLe 1 v) (fun _ _ => rangeIf (decide (15 < v)))
  | 0x8000, _ => selWrite s q index sub (fun _ x => poOther x v <|> rangeIf (decide (31 < v))) (fun x => { x with progSel := BitVec.ofNat 8 v })
  | 0x9100, 0x01 => selWrite s q index sub (fun _ x => poOther x v <|> rangeIf (decide (31 < v))) (fun x => { x with domSel := BitVec.ofNat 8 v })
  | 0x9100, 0x06 => kioskRws s q index sub 0 (natLe 4 v) (fun _ _ => rangeIf (decide (v < 100) || decide (1500 < v)))
  | 0x9100, _ => kioskRws s q index sub 0 (natLe 2 v) (fun _ _ => rangeIf (decide (v < 1) || decide (32 < v)))
  | 0xA000, 0x10 => selWrite s q index sub (fun _ _ => rangeIf (decide (67 < v))) (fun x => { x with sensSel := BitVec.ofNat 8 v })
  | _, _ => kioskReq s q index sub true (fun s _ => refuse s q stKioskRange)

/-- A write or command that has passed the checks of R359 up to its type. -/
def writeNamed (s : State) (q : KReq) (index sub : Nat) (d : DomSeg) : State :=
  let v := leNat d.data
  if index < 0x1200 then write11 s q sub d v
  else if index < 0x2000 then write12 s q sub v
  else if index < 0x3000 then write20 s q sub v
  else if index < 0x3100 then write30 s q index sub v
  else if index < 0x3200 then write31 s q sub v
  else if index < 0x4000 then write3x s q index sub v
  else if index < 0x5000 then write40 s q (index - 0x4000) sub d
  else if index < 0x5800 then write50 s q sub v
  else if index < 0x5900 then write58 s q sub v
  else if index < 0x6000 then write59 s q sub d v
  else if index < 0x7000 then write60 s q index sub v
  else if index < 0x8000 then write70 s q sub d v
  else write80 s q index sub v

/-- OBJECT_WRITE. What has a row of its own is left to that row (log entry 2). -/
def execObjectWrite (q : KReq) (index : BitVec 16) (sub : BitVec 8) (command : Bool) (d : DomSeg) (s : State) : Host.Outcome State Fault Refusal :=
  let i := index.toNat
  let j := sub.toNat
  if (if command then commandRow i j (leNat d.data) else writeRow i j) then done s
  else if gateObj s q i j command false == .pass then done (writeNamed s q i j d)
  else done (kioskReq s q i j command (fun s _ => s))

end Sys2Proof.Machine
end

