-- ==== Sys2Proof/Machine/Boot.lean ====
section
/-! DEFINITION. Power, start-up and the module resets (R54, R344–R346, R363, R364, R400–R406, Table 17.7). The outcome of every test that
start-up makes is an operand of the event (log entry 12). -/

namespace Sys2Proof.Machine

/-! ### Loss of package power -/

/-- What is left when package power goes, a snapshot in progress being cut where Table 15.7 says: the carrier flash (journal slots, boot tally, image slots, latched trip), the fuses, and what has
already been handed to the outside. The commands that wait stay waiting, and the numbering of the free draws goes on. -/
def unpowered (s : State) : State :=
  { State.reset with
    pending := s.pending
    out := s.out
    enableMap := s.enableMap
    gate := { State.reset.gate with rollback := s.gate.rollback, draws := s.gate.draws, keyxSent := s.gate.keyxSent }
    journal := (let j := cutSnapshot s
      { State.reset.journal with a := j.a, b := j.b, tally := j.tally, tallyLen := j.tallyLen, cuts := j.cuts + 1 })
    power := { State.reset.power with
      cutoffs := s.power.cutoffs, tripLatched := s.power.tripLatched, thermtripN := s.power.thermtripN, versionA := s.power.versionA,
      versionB := s.power.versionB } }

/-- A start-up stops: its status, STARTUP_FAIL, and every data port down (R401). -/
def stopStart (s : State) (st : U16) : State :=
  let s := emit { s with power := { s.power with stopped := true, status := st } } rkStartupFail srcModule none []
  { s with net := { s.net with links := s.net.links.map (fun e => (e.1, { clearLink e.2 with state := 0 })) } }

/-! ### The steps of Table 17.5 -/

/-- Step 3: known-answer and entropy tests (R345). -/
def step3 (s : State) (env : StartEnv) : State :=
  if env.katFail then
    stopStart (emit { s with gate := { s.gate with state := 1, status := stKatFail } } rkKatFail srcGate none []) stKatFail
  else env.aesFailDies.foldl (fun s j => modDie s j (fun d => { d with failed := true })) s

/-- The status with which a slot fails, if it does (Table 14.7). -/
def slotStatus (s : State) : BootVerdict → Option U16
  | .good _ svn => if svn.toNat < s.gate.rollback.toNat then some stRollback else none
  | .badSignature => some stImageAuthFail
  | .rollback => some stRollback

def verdictVersion (old : BitVec 32) : BootVerdict → BitVec 32
  | .good v _ => v
  | .badSignature => 0
  | .rollback => old
def verdictSvn : BootVerdict → BitVec 32
  | .good _ n => n
  | _ => 0

/-- The slot of 0xA000:32 in the newest journal slot, 0 where there is none (R408). -/
def preferredSlot (s : State) : Nat :=
  match newestSlot s.journal with
  | some (_, j) => (match j.payload.find? (fun e => e.index == 0xA000 && e.sub == 0x32) with
    | some e => if leNat e.value = 1 then 1 else 0
    | none => 0)
  | none => 0

/-- Step 4: the preferred slot, then the other (R344, R408). -/
def step4 (s : State) (env : StartEnv) : State :=
  let s := { s with power := { s.power with
    versionA := verdictVersion s.power.versionA env.slotA, versionB := verdictVersion s.power.versionB env.slotB } }
  let first := preferredSlot s
  let verdict (k : Nat) : BootVerdict := if k = 0 then env.slotA else env.slotB
  let run (s : State) (k : Nat) : State := { s with power := { s.power with running := BitVec.ofNat 8 k, svn := verdictSvn (verdict k) } }
  let fail (s : State) : State := emit s rkBootImageFail srcGate none []
  match slotStatus s (verdict first) with
  | none => run s first
  | some _ =>
    let s := fail s
    match slotStatus s (verdict (1 - first)) with
    | none => run s (1 - first)
    | some b => stopStart (fail s) b

/-- The journal is loaded and the outcome kept (R363). -/
def loadJournal (s : State) : State :=
  let two := s.journal.a.valid && s.journal.b.valid
  match newestSlot s.journal with
  | none =>
    emit { s with journal := { s.journal with recovery := 2 } } rkJournalLost srcMgmt none (if s.journal.tally.isNone then [(64, 1)] else [])
  | some (_, j) =>
    let s := rwsLoad s j.payload
    if two then { s with journal := { s.journal with recovery := 0 } }
    else emit { s with journal := { s.journal with recovery := 1 } } rkJournalRecovered srcMgmt none []

/-- A zeroisation whose marker stands in the journal is completed before the Kiosk is ready; the marker is cleared last (R346, R363). -/
def completeZeroise (s : State) (env : StartEnv) : State :=
  match newestSlot s.journal with
  | some (_, j) =>
    if j.zmark then
      let s := { s with
        gate := { s.gate with trust := [], state := 2, status := 0 }
        kiosk := { s.kiosk with anchorsSo := [], anchorsFm := [], anchorsPo := [], anchorsOb := [] }
        journal := { s.journal with recovery := 3 } }
      let s := emit s rkZeroise srcGate none []
      { s with journal := runSnapshot s.journal env.snapshotOk j.boot false (rwsSet State.reset) }
    else s
  | none => s

/-- Step 5: fuses and journal. A module warm reset keeps the RWS objects and loads nothing (Table 17.7). -/
def step5 (s : State) (env : StartEnv) (cold : Bool) : State :=
  if !env.fuseOk then stopStart s stStartupFuse
  else
    if cold then rwsInForce (completeZeroise (loadJournal s) env) else s

/-- Step 6: BIST of the enabled pavilions, hubs and port dies (R18, R20), and of every lane: a SerDes that fails loopback is spared while
its die has a spare (R287). -/
def step6 (s : State) (env : StartEnv) : State :=
  let s := { s with failedMap := (env.bistPavs.filter (fun i => s.enableMap.getLsbD i)).foldl (fun m i => setBit m i true) s.failedMap }
  let s := env.bistDies.foldl (fun s j => modDie s j (fun d => { d with failed := true })) s
  let s := env.bistLanes.foldl (fun s e => (spareLanes s e.1 (sortNat e.2)).1) s
  if env.bistHub then stopStart s stStartupHub else s

/-- Step 7: stacks train, and all plot space holds zeros (R337). -/
def step7 (s : State) (env : StartEnv) : State :=
  let s := (List.range 8).foldl (fun s k => modStack s k (fun t => { t with state := if env.badStacks.contains k then 2 else 1 })) s
  { s with hbm := zeroPlotSpace s.hbm }

/-- An attempt that fails in step 8: the link goes on trying under R303 (R403). -/
def startFail (s : State) (l : Nat) (cause : U16) : State := modLink (trainFail s l cause) l (fun x => { x with attempts := some 3 })

/-- A link that completes its bring-up within step 8, or ends its attempt (R302, R403). -/
def startLink (s : State) (g : StartLink) : State :=
  let l := g.link
  if (linkAt s l).state ≠ 1 then s
  else match laneCheck s l g.lanes with
    | (s, some e) => startFail s l e
    | (s, none) =>
      let s := { s with out := s.out ++ [.wire l (paramBytes s l)] }
      if paramOk s l g.param then linkActive (modLink s l (fun x => { x with rtt := g.rtt })) l g.param else startFail s l stLinkPartner

/-- Step 8: bring-up starts on every port whose die passed BIST (R403). -/
def step8 (s : State) (env : StartEnv) : State :=
  let s := (List.range 128).foldl (fun s l =>
    if (dieAt s (linkDie l)).failed || !linkExists s l then s else modLink s l (fun x => { x with state := 1 })) s
  env.links.foldl startLink s

/-- The set whose sender step 9 follows: of those on ACTIVE links with STATE 2 and HOPS below 0xFF, the one of lowest HOPS, the lowest link
index among equals (R404). -/
def phaseSource (s : State) (ps : List PhaseSet) : Option PhaseSet :=
  (sortBy (fun a b => decide (a.hops.toNat < b.hops.toNat) || (a.hops == b.hops && decide (a.link ≤ b.link)))
    (ps.filter (fun p => active s p.link && p.state == 2 && p.hops != 0xFF))).head?

/-- Step 9: the phase step, if a qualifying sundial set came: the next tick moves by it, and the frame number is the sender's (R38, R404).
Otherwise the module runs free from frame 0. -/
def step9 (s : State) (env : StartEnv) : State :=
  match phaseSource s env.phase with
  | some p => { s with sd := { s.sd with nextFrame := some (p.frame + 1), phaseStep := p.cycles } }
  | none => { s with sd := { s.sd with frame := 0 } }

/-- The boot count in force: one more than the larger of the two stored, 0 where neither is valid (R54, R364). -/
def nextBoot (s : State) : BitVec 32 :=
  let j := (newestSlot s.journal).map (fun e => e.2.boot.toNat)
  match j, s.journal.tally.map (·.toNat) with
  | none, none => 0
  | some a, none => BitVec.ofNat 32 (sat32 (a + 1))
  | none, some b => BitVec.ofNat 32 (sat32 (b + 1))
  | some a, some b => BitVec.ofNat 32 (sat32 (max a b + 1))

/-- What a boot snapshot holds: the set in force, or after a zeroisation every object at its default. -/
def bootSet (s : State) : List JEntry := if s.gate.state = 2 then rwsSet State.reset else rwsSet s

/-- The boot-count snapshot (R364). -/
def bootSnapshot (s : State) (ok : Bool) : State :=
  let s := { s with journal := runSnapshot s.journal ok s.sd.boot s.journal.zmark (bootSet s) }
  if ok then s else emit { s with journal := { s.journal with bootRetry := true } } rkJournalWriteFail srcMgmt none []

/-- The boot-count record of the tally; a record that fails leaves the count before it. -/
def bootRecord (s : State) (ok : Bool) : State :=
  { s with journal := { s.journal with tallyLen := s.journal.tallyLen + 1, tally := if ok then some s.sd.boot else s.journal.tally } }

/-- The boot count is committed to journal and tally; a full tally is erased only after the snapshot has committed (R364). -/
def commitBoot (s : State) (env : StartEnv) : State × Bool :=
  let s := { s with sd := { s.sd with boot := nextBoot s } }
  if s.journal.tallyLen < 16384 then
    (bootSnapshot (bootRecord s env.tallyOk) env.snapshotOk, env.tallyOk || env.snapshotOk)
  else
    let s := bootSnapshot s env.snapshotOk
    if env.snapshotOk then (bootRecord { s with journal := { s.journal with tally := none, tallyLen := 0 } } env.tallyOk, true)
    else (s, false)

/-- Kiosk ready: STARTUP_DONE, a latched trip is reported, the fused count advances, and a reset is complete (R344, R399, R401, R405). -/
def kioskUp (s : State) (env : StartEnv) (kind : Option Nat) : State :=
  let s := { s with power := { s.power with step := 11, status := stOk, durations := env.durations } }
  let s := emit s rkStartupDone srcModule none [(32, sumN ((env.durations.drop 1).map (·.toNat)))]
  let s := if s.power.tripLatched then
      emit { s with power := { s.power with tripLatched := false, cutoffs := s.power.cutoffs + 1 } } rkThermalCutoff srcModule none []
    else s
  let s := if s.gate.rollback.toNat < s.power.svn.toNat then { s with gate := { s.gate with rollback := s.power.svn } } else s
  match kind with
  | some k => emit s rkResetDone srcModule none [(8, k)]
  | none => s

/-- Step 10. A module warm reset keeps the boot count. -/
def step10 (s : State) (env : StartEnv) (cold : Bool) : State :=
  if cold then
    let (s, ok) := commitBoot s env
    if ok then kioskUp { s with power := { s.power with coldPending := false } } env (if s.power.coldPending then some 4 else none)
    else stopStart s stStartupCount
  else kioskUp s env (some 1)

/-- One step of Table 17.5, unless start-up has stopped or has not come to it. The step still in progress when the event ends is only
entered; a junction above 105 °C stops it (R401). -/
def startStep (env : StartEnv) (cold : Bool) (s : State) (k : Nat) : State :=
  if s.power.stopped || decide (env.reached < k) then s
  else
    let s := { s with power := { s.power with step := k } }
    if env.reached = k then (if env.hotJunction && decide (k ≤ 9) then stopStart s stStartupThermal else s)
    else
      let s := match k with
        | 3 => step3 s env
        | 4 => step4 s env
        | 5 => step5 s env cold
        | 6 => step6 s env
        | 7 => step7 s env
        | 8 => step8 s env
        | 9 => step9 s env
        | _ => step10 s env cold
      if s.power.stopped then s else { s with power := { s.power with status := stOk } }

/-- The steps from one on. -/
def startFrom (s : State) (env : StartEnv) (cold : Bool) (first : Nat) : State :=
  (List.range (11 - first)).foldl (fun s i => startStep env cold s (first + i)) s

/-- POWER_GOOD: main power within range, from step 2 on. The boot count in force is that of R54 from here on, so that no stamp of the
start-up repeats one of an earlier power-good; step 10 commits it. Log entry 85. -/
def execPowerGood (env : StartEnv) (s : State) : Host.Outcome State Fault Refusal :=
  if s.power.pg || decide (env.reached < 3) then done s
  else done (startFrom { s with
    sd := { s.sd with boot := nextBoot s }
    power := { s.power with pg := true, step := 2, status := stOk, stopped := false } } env true 3)

/-- STARTUP_TIMEOUT: the step in progress overran its bound. -/
def execStartupTimeout (s : State) : Host.Outcome State Fault Refusal :=
  if s.power.pg && decide (3 ≤ s.power.step) && decide (s.power.step ≤ 10) && !s.power.stopped then done (stopStart s stStartupTimeout) else done s

/-! ### Module warm reset (Table 17.7) -/

/-- A link in a module warm reset: down, with its counts and its spare lanes. -/
def warmLink (x : Link) : Link :=
  { spared := x.spared, retried := x.retried, fecOk := x.fecOk, fecBad := x.fecBad, dropped := x.dropped, downCause := x.downCause,
    authFails := x.authFails, served := x.served }

def warmShard (h : Shard) : Shard := { divergences := h.divergences, degraded := h.degraded, commits := h.commits, stale := h.stale }
def warmPlot (p : Plot) : Plot :=
  { window := p.window, windowEff := p.window, ilvSerial := p.ilvSerial, ilvTick := p.ilvTick, spraySerial := p.spraySerial, sprayTick := p.sprayTick }
def warmStack (t : Stack) : Stack :=
  { corrected := t.corrected, uncorrected := t.uncorrected, lastError := t.lastError, doubled := t.doubled, ratio := t.ratio, notices := t.notices }
def warmDomain (d : Domain) : Domain := { drops := d.drops, decisions := d.decisions, lastDecision := d.lastDecision }

/-- What a module warm reset leaves of the state: RWS objects, counts since power-good, kept records, the I3C session, spare lanes, the
Gatehouse's state and the flash. -/
def warmState (s : State) : State :=
  { s with
    sd := { s.sd with
      master := 0x00FFFFFF, parent := 0xFF, err := 0, align := 0, excursion := none, missed := 0, heard := false, hops := 0xFF, slew := 0,
      nextFrame := none }
    powered := 0
    powering := 0
    pavs := []
    sigs := []
    plots := s.plots.map (fun e => (e.1, warmPlot e.2))
    coll := { s.coll with
      dies := s.coll.dies.map (fun e => (e.1, ({ failed := e.2.failed } : Dovecote))), relay := 0, relayEff := 0, psWait := [], b2Groups := [],
      b2ReserveEff := s.coll.b2Reserve, rowStats := [] }
    pools := []
    shards := s.shards.map (fun e => (e.1, warmShard e.2))
    norms := s.norms.map (fun e => (e.1, { stale := e.2.stale }))
    hbm := { zeroPlotSpace s.hbm with stks := s.hbm.stks.map (fun e => (e.1, warmStack e.2)) }
    net := { s.net with links := s.net.links.map (fun e => (e.1, warmLink e.2)) }
    route := { s.route with
      table := [], written := false, tableEff := [], dir := 0, dirEff := 0, dirty := false, stallLimit := 4096, sprays := [], weights := [], weightsEff := [],
      clsWeights := [], clsWeightsEff := [], starveLimit := 4096 }
    gate := { s.gate with nonce := none, reporting := false, report := [], target := 0 }
    tele := { s.tele with moduleHeld := false }
    lodge := { s.lodge with domains := s.lodge.domains.map (fun e => (e.1, warmDomain e.2)), suspects := [] }
    power := { s.power with warm := none, pavResets := [], engResets := [], stopped := false, hot := false, coolTicks := 0 } }

/-- Close every session but I3C's. -/
def closeSessions (s : State) : State := (List.range 7).foldl (fun s k => if (sessAt s k).isOpen then closeSlot s k else s) s

/-- The module warm reset of a tick: an open excursion ends, links are taken down, the state is reset, and steps 5 to 10 run again
(R405). A period that is due takes effect at step 5 of the same tick (R41). -/
def warmReset (s : State) (env : StartEnv) : State :=
  let s := endExcursion s
  let s := ((List.range 128).filter (active s)).foldl (fun s l => linkDown s l stLinkCommanded true true) s
  startFrom (warmState (closeSessions s)) env false 5

/-! ### Cold resets and loss of power -/

/-- RESET_N overrides everything (R406). -/
def execResetN (s : State) : Host.Outcome State Fault Refusal :=
  if s.power.pg then done (let t := unpowered s; { t with power := { t.power with coldPending := true } }) else done s

/-- POWER_LOSS: the carrier removes package power and deasserts PG (Table 17.3). -/
def execPowerLoss (_ : PowerCause) (s : State) : Host.Outcome State Fault Refusal := if s.power.pg then done (unpowered s) else done s

/-- THERMTRIP: above 115 °C the comparator removes power, and the carrier latches the trip (R399). -/
def execThermtrip (r : Reading) (s : State) : Host.Outcome State Fault Refusal :=
  if s.power.pg && decide (115000 < r.mC) then
    done (let t := unpowered s; { t with power := { t.power with tripLatched := true, thermtripN := false } })
  else done s

/-- VAUX_REMOVED: THERMTRIP_N is released (Table 17.2). -/
def execVauxRemoved (s : State) : Host.Outcome State Fault Refusal := done { s with power := { s.power with thermtripN := true } }

/-- COLD_RESET: command 4 of 0xA000:20, from the SO or the FM, also when zeroised. -/
def execColdReset (q : KReq) (s : State) : Host.Outcome State Fault Refusal :=
  match gateObj s q 0xA000 0x20 true true with
  | .pass =>
    let s := heardReq s q
    if (sessAt s q.slot).role == .po then done (refuse s q stKioskAccess)
    else if s.power.warm.isSome then done (refuse s q stResetPending)
    else done (let t := unpowered (accept s q); { t with power := { t.power with coldPending := true } })
  | .refuse st => done (refuse (heardReq s q) q st)
  | .discard => done (discardReq s q)

end Sys2Proof.Machine
end

