-- ==== Sys2Proof/Machine/Memory.lean ====
section
/-! DEFINITION. HBM (chapter 11): regions, scrubbing, refresh, patrol scrub, pressure and stack failures. -/

namespace Sys2Proof.Machine

/-- The 64 MiB units of a region, as (stack, unit). -/
def regUnits (r : U64) : List (Nat × Nat) := (regStacks r).flatMap (fun k => (List.range (regSize r)).map (fun i => (k, regBase r + i)))

/-- What the written value alone shows to be outside its range (R274). -/
def regionInRange (r : U64) : Bool := field r 0 38 == 0 && decide (regBase r ≤ 507) && decide (regBase r + regSize r ≤ 508)

/-- The slices of two regions overlap on some stack. -/
def regionsMeet (a b : U64) : Bool :=
  regMask a &&& regMask b != 0 && decide (0 < regSize a) && decide (0 < regSize b) &&
  decide (regBase a < regBase b + regSize b) && decide (regBase b < regBase a + regSize a)

/-- What the present state forbids: a load state other than 0, a shard of the plot, another plot's slice, a failed stack, a unit under
scrub that the write would add (R274, R337). -/
def regionFits (s : State) (n : Nat) (r : U64) : Bool :=
  let old := regUnits (plotAt s n).region
  (plotAt s n).loadState == 0 && !s.shards.any (fun e => shardValid e.2 && ePlot e.2.entry == n) &&
  !allPlots.any (fun m => m != n && regionsMeet r (plotAt s m).region) &&
  !((regStacks r).any (fun k => decide (0 < regSize r) && (stackAt s k).state == 2)) &&
  !((regUnits r).any (fun u => !old.contains u && (stackAt s u.1).scrubbing.contains u.2))

/-- Units that leave a region are under scrub until they are zeroed. -/
def scrubUnits (s : State) (us : List (Nat × Nat)) : State :=
  us.foldl (fun s u => modStack s u.1 (fun t => { t with scrubbing := addNew t.scrubbing u.2 })) s

/-- A new interleave key for a plot (R276). -/
def drawIlv (s : State) (n : Nat) : State :=
  let k := Config.drbg s.gate.draws
  let s := { s with gate := { s.gate with draws := s.gate.draws + 1 } }
  modPlot s n (fun p => { p with ilvKey := k, ilvSerial := p.ilvSerial + 1, ilvTick := s.sd.ticks })

/-- REGION_WRITE: checked, in effect at once, with a new interleave key; the units it removes are scrubbed. -/
def execRegionWrite (q : KReq) (n : Nat) (v : BitVec 64) (s : State) : Host.Outcome State Fault Refusal :=
  done (kioskCmd s q (0x4000 + n) 0x04 false (fun s _ =>
    if !regionInRange v then .error stKioskRange
    else if !regionFits s n v || s.gate.entropyFailed then .error stKioskState
    else
      let gone := (regUnits (plotAt s n).region).filter (fun u => !(regUnits v).contains u)
      .ok (drawIlv (modPlot (scrubUnits s gone) n (fun p => { p with region := v })) n)))

/-- Bytes of a unit zeroed, each of its words written whole. -/
def zeroUnit (h : Hbm) (k u : Nat) : Hbm :=
  let a := k * 2 ^ 35 + u * 2 ^ 26
  { h with mem := memZero h.mem a (2 ^ 26), badWords := h.badWords.filter (fun w => !(decide (a ≤ 32 * w) && decide (32 * w < a + 2 ^ 26))) }

/-- SCRUB_COMPLETE: a unit under scrub is zero. -/
def execScrubComplete (stack unit : Nat) (s : State) : Host.Outcome State Fault Refusal :=
  if !(stackAt s stack).scrubbing.contains unit then done s
  else
    let s := { s with hbm := zeroUnit s.hbm stack unit }
    done (modStack s stack (fun t => { t with scrubbing := t.scrubbing.filter (fun u => u != unit) }))

/-- REFRESH: a bank of a pseudo-channel is blocked for 100 ns, and counted (R278). -/
def execRefresh (stack channel bank : Nat) (s : State) : Host.Outcome State Fault Refusal :=
  if (stackAt s stack).state ≠ 1 then done s
  else
    let s := modStack s stack (fun t => { t with refreshing := some (channel, bank) })
    done { s with sd := { s.sd with refreshes := s.sd.refreshes + 1 } }

/-- PATROL_SCRUB: a word is read; an uncorrectable one is reported and holds no plot, or is uncontained in the reserved region (R280). -/
def execPatrolScrub (addr : Nat) (o : ScrubObs) (s : State) : Host.Outcome State Fault Refusal :=
  if (stackAt s (addr / 2 ^ 35)).state ≠ 1 then done s
  else if s.hbm.badWords.contains (addr / 32) then done (hbmUncorrected s addr false)
  else match o with
    | .clean => done s
    | .corrected => done (hbmCorrectedAt s addr)
    | .onDie => done (hbmOnDie s addr)
    | .uncorrectable =>
      done (hbmUncorrected { s with hbm := { s.hbm with badWords := addNew s.hbm.badWords (addr / 32) } } addr false)

/-- HBM_PRESSURE: after 4,096 qualifying frames above 2.0, once until 4,096 frames at or below it (R281). -/
def execHbmPressure (stack : Nat) (s : State) : Host.Outcome State Fault Refusal :=
  let t := stackAt s stack
  if t.above < 4096 ∨ t.armed = false then done s
  else
    let s := setStack s stack { t with armed := false, notices := t.notices + 1, below := 0 }
    done (emit s rkHbmPressure (srcStack stack) (some t.topPlot) [(16, t.ratio.toNat)])

/-- HBM_STACK_FAIL: the stack is marked failed, and every plot with a slice on it holds (Table 11.3). -/
def execHbmStackFail (stack : Nat) (s : State) : Host.Outcome State Fault Refusal :=
  if (stackAt s stack).state ≠ 1 then done s
  else
    let s := emit (modStack s stack (fun t => { t with state := 2 })) rkHbmStackFail (srcStack stack) none []
    let ns := allPlots.filter (fun n => let r := (plotAt s n).region; (regStacks r).contains stack && decide (0 < regSize r))
    done (containedHold s ns hcMemory)

/-- STACK_TEMPERATURE: above 85 °C the refresh rate is doubled (R278). -/
def execStackTemperature (stack : Nat) (mC : Int) (s : State) : Host.Outcome State Fault Refusal :=
  done (modStack s stack (fun t => { t with doubled := decide (85000 < mC) }))

end Sys2Proof.Machine
end

