-- ==== Sys2Proof/Machine/Move.lean ====
section
/-! DEFINITION. The MOVE engines (R119, R120, R151–R153) and the arrival of remote signals (R176, R180, R183). -/

namespace Sys2Proof.Machine

/-- One side of a transfer: the places of its rows, or the check it fails. -/
def moveSide (s : State) (n : Nat) (u : EngRef) (isDst : Bool) (w : AddrWord) (len rows stride : Nat) : Except Fail (List Place) :=
  let offs := (List.range rows).map (· * stride)
  match w with
  | .bad => .error .malformed
  | .own a => if offs.all (fun o => sramIn (a + o) len) then .ok (offs.map (fun o => .sram u.pav (a + o))) else .error .bounds
  | .hbm o0 => if offs.all (fun o => regIn (plotAt s n).region (o0 + o) len) then .ok (offs.map (fun o => .hbm n (o0 + o)))
    else .error .ownership
  | .other rel a =>
    if !isDst then .error .malformed
    else match pavOfRel s n rel with
      | none => .error .ownership
      | some p => if offs.all (fun o => sramIn (a + o) len) then .ok (offs.map (fun o => .sram p (a + o))) else .error .bounds
  | .pool h off =>
    match poolAt? s (hPool h) with
    | none => .error (.handle h)
    | some p =>
      if p.plot ≠ n then .error .ownership
      else if !handleValid p h || (bufAt p (hIdx h)).ref == 0 then .error (.handle h)
      else if offs.all (fun o => decide (off + o + len ≤ 2 ^ p.size)) then .ok (offs.map (fun o => bufPlace p h (off + o)))
      else .error (.handle h)

/-- MCOPY: every check before any byte moves, then the rows (R152). Log entry 16: overlapping sides. -/
def effMcopy (u : EngRef) (k : CmdHdr) (mda : BitVec 22) (iter : Nat) (s : State) : Eff :=
  let v := pavAt s u.pav
  let a := advance k.laa mda.toNat 32 iter
  if a % 32 ≠ 0 ∨ sramIn a 32 = false then .fail .bounds s
  else match sramBad v a 32 with
    | some w => .fail (.sram w) s
    | none =>
      let b := moveBlk (sramRead v a 32)
      let sw := addrWord b.src
      let dw := addrWord b.dst
      let isOwn (w : AddrWord) : Bool := match w with | .own _ => true | _ => false
      if b.rsvd ≠ 0 ∨ 2 ^ 22 < b.len ∨ sw = .bad ∨ dw = .bad ∨ (isOwn sw || isOwn dw) = false then .fail .malformed s
      else if b.len = 0 ∨ b.rows = 0 then .ok s
      else match engPlot s u with
        | none => .fail .ownership s
        | some n =>
          match moveSide s n u false sw b.len b.rows b.sstr, moveSide s n u true dw b.len b.rows b.dstr with
          | .error e, _ => .fail e s
          | _, .error e => .fail e s
          | .ok ss, .ok ds =>
            match placeReads s (ss.map (fun p => (p, b.len))) with
            | .error e => .fail e s
            | .ok data =>
              let (s', e) := placeWrites s (ds.zip data)
              match e with
              | some e => .fail e s'
              | none => .ok s'

def execMcopy (u : EngRef) (x : Upset) (k : CmdHdr) (mda : BitVec 22) (s : State) : Host.Outcome State Fault Refusal :=
  issueOp u x k (.mcopy mda) (effMcopy u k mda) s

/-- The target of an MSIG, or the ownership refusal (R153). -/
def msigTarget (s : State) (n : Nat) (o : MsigOps) : Option SigTarget :=
  if o.kind == 0 then (pavOfRel s n o.pav.toNat).map (fun p => .pav p o.ctr.toNat)
  else if (trigAt? s o.die.toNat n o.ctr.toNat).isSome && (plotsOfDie s o.die.toNat).contains n then some (.die o.die.toNat n o.ctr.toNat)
  else none

/-- MSIG: the remote signal leaves the engine (R153, R120). -/
def effMsig (u : EngRef) (o : MsigOps) (_ : Nat) (s : State) : Eff :=
  if 1 < o.kind.toNat ∨ o.inc = 0 ∨ (o.kind = 0 ∧ (63 < o.ctr.toNat ∨ o.die ≠ 0)) ∨ (o.kind = 1 ∧ o.pav ≠ 0) then .fail .malformed s
  else match engPlot s u with
    | none => .fail .ownership s
    | some n => match msigTarget s n o with
      | none => .fail .ownership s
      | some t =>
        let k := (engAt s u).nsig + 1
        .ok { modEng s u (fun e => { e with nsig := k }) with sigs := s.sigs ++ [⟨.engine u, t, o.inc, k⟩] }

def execMsig (u : EngRef) (x : Upset) (k : CmdHdr) (o : MsigOps) (s : State) : Host.Outcome State Fault Refusal :=
  done (issueCmd u x ⟨k, .msig o⟩ .onTheWay (effMsig u o) s)

/-! ### Arrival (R176, R180) -/

/-- The destination of a target: signals of one sender to one destination arrive in issue order (R120, R180). -/
def sameDest : SigTarget → SigTarget → Bool
  | .pav p _, .pav q _ => p == q
  | .die j _ _, .die k _ _ => j == k
  | _, _ => false

/-- Take the sender's oldest signal to a destination, if it goes to this counter with this increment. -/
def takeSig (sigs : List RemoteSig) (t : SigTarget) (src : SigSource) (inc : BitVec 4) : Option (RemoteSig × List RemoteSig) :=
  match sigs.find? (fun g => g.src == src && sameDest g.target t) with
  | some g => if g.target == t && g.inc == inc then some (g, sigs.erase g) else none
  | none => none

/-- The signals of the list of senders that are on the way, and those left. -/
def takeSigs (t : SigTarget) : List RemoteSig → List (SigSource × BitVec 4) → List RemoteSig × List RemoteSig
  | sigs, [] => (sigs, [])
  | sigs, (src, inc) :: r =>
    match takeSig sigs t src inc with
    | none => takeSigs t sigs r
    | some (g, sigs') => let (l, got) := takeSigs t sigs' r; (l, g :: got)

/-- Mark the flight of the MSIG whose signal has arrived; the signal of a discarded MSIG has none. -/
def markFlight (st : SigState) (id : Nat) (fs : List Flight) : List Flight :=
  fs.map (fun f => if f.sig == .onTheWay && f.sigId == id then { f with sig := st } else f)

/-- A signal as its counter takes it: the increment and the source that records name, an MSIG by the plot-relative pavilion of its
sender, a Dovecote by its port die (R176). -/
def sigOf (s : State) (g : RemoteSig) : Nat × CtrSrc :=
  (g.inc.toNat, match g.src with
    | .engine u => ⟨1, match engPlot s u with | some n => relOfPav s n u.pav | none => u.pav⟩
    | .dovecote d => ⟨2, d⟩)

/-- REMOTE_SIGNAL_ARRIVAL: the signals that reach one counter in one cycle are added as one total and clamped once; at a poisoned
counter they are dropped (R176, R180, R183). A parity error in the counter leaves it unsignalled (Table 4.8, R34). -/
def execRemoteSignalArrival (t : SigTarget) (senders : List (SigSource × BitVec 4)) (x : Upset) (s : State) :
    Host.Outcome State Fault Refusal :=
  let (left, got) := takeSigs t s.sigs senders
  if got.isEmpty then done s
  else
    let s := { s with sigs := left }
    let gs := got.map (sigOf s)
    let (s, st) := match t with
      | .pav p c => if x.parity then (pavFault s rkQueueParity p, SigState.applied) else signalPav s p c gs
      | .die j n c =>
        if x.parity then (containedHold (emit s rkQueueParity (srcDie j) (some n) []) (plotsOfDie s j) hcCollective, SigState.applied)
        else signalTrig s j n c gs
    done (got.foldl (fun s g => match g.src with
      | .engine u => modEng s u (fun e => { e with inflight := markFlight st g.sigId e.inflight })
      | .dovecote _ => s) s)

end Sys2Proof.Machine
end

