-- ==== Sys2Proof/Machine/Power.lean ====
section
/-! DEFINITION. Input power, temperature, the reset commands and firmware update (R395–R399, R405–R409), and the sundial's own events and
period (R37–R47, R298). -/

namespace Sys2Proof.Machine

/-- ALERT_N: low while any plot is held or the module is held (Table 17.2). -/
def alertN (s : State) : Bool := !(s.tele.moduleHeld || allPlots.any (fun n => (plotAt s n).held))

/-- A record that is made at most once per 4,096 ticks is due. -/
def sayDue (s : State) (said : Option (BitVec 64)) : Bool :=
  match said with
  | none => true
  | some t => decide (t.toNat + 4096 ≤ s.sd.ticks.toNat)

/-! ### Input and coolant (R395, R398) -/

/-- VIN_RANGE: 44–48 V or 60–62 V. -/
def execVinRange (millivolts : BitVec 32) (s : State) : Host.Outcome State Fault Refusal :=
  let v := millivolts.toNat
  if s.power.pg && ((decide (44000 ≤ v) && decide (v < 48000)) || (decide (60000 < v) && decide (v ≤ 62000))) then
    let s := { s with power := { s.power with millivolts := millivolts } }
    if sayDue s s.power.vinSaid then
      done (emit { s with power := { s.power with vinSaid := some s.sd.ticks } } rkVinRange srcModule none [(32, v)])
    else done s
  else done s

/-- COOLANT_WARN: an inlet above 40 °C or a flow below 3.0 L/min. -/
def execCoolantWarn (inlet : Int) (flow : BitVec 32) (s : State) : Host.Outcome State Fault Refusal :=
  if !s.power.pg then done s
  else
    let s := { s with power := { s.power with inlet := inlet, flow := flow } }
    if (decide (40000 < inlet) || decide (flow.toNat < 3000)) && sayDue s s.power.coolantSaid then
      done (emit { s with power := { s.power with coolantSaid := some s.sd.ticks } } rkCoolantWarn srcModule none [])
    else done s

/-! ### Junction temperature (R399, R401) -/

/-- The hottest of the 68 sensors, the lowest number among equals. -/
def hottestOf (t : Tbl Int) : Nat × Int :=
  (List.range 68).foldl (fun b k => if b.2 < tblGet 0 t k then (k, tblGet 0 t k) else b) (0, tblGet 0 t 0)

/-- Sensors take their readings. -/
def takeReadings (s : State) (rs : List Reading) : State :=
  let t := rs.foldl (fun t r => if r.sensor < 68 then tblSet t r.sensor r.mC else t) s.power.sensors
  let h := hottestOf t
  { s with power := { s.power with
    sensors := t, hotSensor := h.1, hottest := h.2,
    coolTicks := if rs.any (fun r => decide (95000 < r.mC)) then 0 else s.power.coolTicks } }

/-- SENSOR_CONVERSION: above 105 °C every plot holds with cause THERMAL, or a start-up in steps 3 to 9 stops. -/
def execSensorConversion (rs : List Reading) (s : State) : Host.Outcome State Fault Refusal :=
  if !s.power.pg then done s
  else
    let s := takeReadings s rs
    match rs.find? (fun r => decide (r.sensor < 68) && decide (105000 < r.mC)) with
    | none => done s
    | some r =>
      if kioskReady s then
        let s := plainHold s allPlots hcThermal
        if s.power.hot then done s
        else
          let s := { s with power := { s.power with hot := true, thermalHolds := s.power.thermalHolds + 1 } }
          done (emit s rkThermalHold srcModule none [(8, r.sensor), (32, toN 32 r.mC)])
      else if !s.power.stopped && decide (3 ≤ s.power.step) && decide (s.power.step ≤ 9) then done (stopStart s stStartupThermal)
      else done s

/-! ### Reset commands (R405, R406) -/

/-- MODULE_WARM_RESET: command 1, from the SO or the FM; it begins at step 3 of the next tick. -/
def execModuleWarmReset (q : KReq) (env : StartEnv) (s : State) : Host.Outcome State Fault Refusal :=
  done (kioskCmd s q 0xA000 0x20 true (fun s x =>
    if x.role == .po then .error stKioskAccess
    else if s.power.warm.isSome then .error stResetPending
    else .ok { s with power := { s.power with warm := some env } }))

/-- PAVILION_RESET: command 2, of the pavilion that the selector names. -/
def execPavilionReset (q : KReq) (selftestPasses : Bool) (s : State) : Host.Outcome State Fault Refusal :=
  done (kioskCmd s q 0xA000 0x20 true (fun s x =>
    let i := (selEng x).pav
    if !ownsPav s x i then .error stKioskAccess
    else if (pavAt s i).testing then .error stSelftestBusy
    else .ok { s with power := { s.power with pavResets := s.power.pavResets ++ [(i, selftestPasses)] } }))

/-- ENGINE_RESET: command 3, of the engine that the selector names. -/
def execEngineReset (q : KReq) (s : State) : Host.Outcome State Fault Refusal :=
  done (kioskCmd s q 0xA000 0x20 true (fun s x =>
    let u := selEng x
    if !ownsPav s x u.pav then .error stKioskAccess
    else if (pavAt s u.pav).testing then .error stSelftestBusy
    else .ok { s with power := { s.power with engResets := s.power.engResets ++ [u] } }))

/-! ### Firmware update (R407, R408) -/

/-- The version of a slot takes a value. -/
def setVersion (s : State) (slot : Nat) (v : BitVec 32) : State :=
  if slot = 0 then { s with power := { s.power with versionA := v } } else { s with power := { s.power with versionB := v } }
/-- The slot that an update writes: the one that does not run. -/
def otherSlot (s : State) : Nat := 1 - s.power.running.toNat

/-- FIRMWARE_IMAGE_WRITE: the whole image is checked as at boot; then the other slot is erased and programmed (Table 17.8). -/
def execFirmwareImageWrite (q : KReq) (d : DomSeg) (v : BootVerdict) (s : State) : Host.Outcome State Fault Refusal :=
  done (kioskReq s q 0xA000 0x30 false (fun s _ =>
    if s.power.update = 1 ∨ s.power.update = 2 then refuse s q stKioskState
    else domSegment s q 0xA000 0x30 (32 * 2 ^ 20) d (fun s _ =>
      match slotStatus s v with
      | some st => refuse { s with power := { s.power with update := 4 } } q st
      | none =>
        let s := setVersion s (otherSlot s) 0
        let s := { s with power := { s.power with update := 2, updateVersion := verdictVersion 0 v } }
        accept (bumpChange s 0xA000 0x30) q)))

/-- UPDATE_DONE: the valid word of the other slot is programmed. -/
def execUpdateDone (s : State) : Host.Outcome State Fault Refusal :=
  if s.power.update = 2 then
    let s := setVersion s (otherSlot s) s.power.updateVersion
    done (emit { s with power := { s.power with update := 3 } } rkUpdateDone srcMgmt none [])
  else done s

/-- PREFERRED_SLOT_WRITE: a valid slot, journalled (R408). -/
def execPreferredSlotWrite (q : KReq) (v : BitVec 8) (s : State) : Host.Outcome State Fault Refusal :=
  done (kioskRws s q 0xA000 0x32 0 (natLe 1 v.toNat) (fun s _ =>
    rangeIf (decide (1 < v.toNat)) <|> stateIf (if v = 0 then s.power.versionA == 0 else s.power.versionB == 0)))

/-- MANAGEMENT_LINK_UP: the addresses of 0x1100:30 are in force for the port. -/
def execManagementLinkUp (port : Nat) (s : State) : Host.Outcome State Fault Refusal :=
  done { s with kiosk := { s.kiosk with addrsEff := tblSet s.kiosk.addrsEff port s.kiosk.addrs } }

/-! ### The sundial (R41, R43–R47, R298) -/

/-- PERIOD_WRITE: only while every plot's load state is 0; in effect at the next tick. -/
def execPeriodWrite (q : KReq) (v : BitVec 8) (s : State) : Host.Outcome State Fault Refusal :=
  done (kioskRws s q 0x1200 0x01 0 (natLe 1 v.toNat) (fun s _ =>
    rangeIf (decide (2 < v.toNat)) <|> stateIf (allPlots.any (fun n => (plotAt s n).loadState != 0))))

/-- The module is the sundial master (R45). -/
def isMaster (s : State) : Bool := s.sd.master != 0x00FFFFFF && s.sd.master == s.route.self

/-- The parent link; a half-port that its port's mode has removed is none (0x1200:05). -/
def parentLink (s : State) : Option Nat :=
  let l := s.sd.parent.toNat
  if !isMaster s && decide (l < 128) && linkExists s l then some l else none

/-- Ten times E, the core cycles of a period (Table 2.1). -/
def cycles10 (code : Nat) : Nat := match code with | 0 => 36864 | 1 => 73728 | _ => 147456

/-- A phase difference in tenths of a cycle, reduced into (−E/2, E/2] (R298). -/
def reducePhase (e x : Int) : Int :=
  let r := x % e
  if e < 2 * r then r - e else r

/-- Every plot that owns at least one port holds with cause SUNDIAL (Table 2.3). -/
def holdPortOwners (s : State) : State := plainHold s (allPlots.filter (fun n => (plotAt s n).portMask != 0)) hcSundial

/-- The alignment state that a measured error gives (Table 2.3); an error above 71 ns is SUNDIAL_LOST's to report. -/
def alignBy (s : State) (err : Int) : State :=
  let a := err.natAbs
  if a ≤ 20 then endExcursion { s with sd := { s.sd with align := 2 } }
  else if a ≤ 71 then { s with sd := { s.sd with align := 1, excursion := some (max a (s.sd.excursion.getD 0)) } }
  else s

/-- The set came from the parent link: it ends a holdover (Table 2.3), and gives the next frame number, the hops, and the offset where the
round trip is known (R298). -/
def fromParent (s : State) (b : SundialBody) (rtt : Option Int) (prx : Nat) : State × Option Int :=
  let s := { s with sd := { s.sd with
    align := if s.sd.align = 3 then 1 else s.sd.align, heard := true, missed := 0, nextFrame := some (b.frame + 1), hops := if b.hops = 0xFF then 0xFF else b.hops + 1 } }
  match rtt with
  | none => (s, none)
  | some r =>
    let x := reducePhase (cycles10 s.sd.periodEff.toNat) (10 * b.phase.toNat + 5 * r - 10 * prx)
    let err := x.tdiv 18 + b.err.toInt
    ({ s with sd := { s.sd with err := BitVec.ofInt 32 err } }, some err)

/-- A set that carries another period code: state lost, with its record and hold once (Table 2.3, any ordered set received). -/
def periodMismatch (s : State) : State :=
  if s.sd.align = 4 then s
  else
    let s := endExcursion s
    holdPortOwners (emit { s with sd := { s.sd with align := 4 } } rkPeriodMismatch (srcHub 0) none [])

/-- SUNDIAL: every set measures its link, and one from the parent the module's own offset (R298). -/
def execSundial (link : Nat) (b : SundialBody) (trx : BitVec 64) (prx : Nat) (s : State) : Host.Outcome State Fault Refusal :=
  if !active s link then done s
  else
    let rtt : Option Int := if b.echots = BitVec.allOnes 64 then none else some ((trx - b.echots).toNat - b.hold.toNat)
    let s := modLink s link (fun x => { x with
      lastSundial := some (b.txs, trx), rtt := match rtt with | some r => BitVec.ofNat 32 (r.toNat * 10 / 18) | none => x.rtt })
    let (s, err) := if parentLink s == some link then fromParent s b rtt prx else (s, none)
    if b.period ≠ s.sd.periodEff then done (periodMismatch s)
    else match err with
      | some e => done (alignBy s e)
      | none => done s

/-- SUNDIAL_HOLDOVER: four consecutive sets missed on the parent port (R47). Table 2.3 does not say which row stands for a module that is
lost already: it stays in state 4 (DESIGN CHOICE, log entry 80). -/
def execSundialHoldover (s : State) : Host.Outcome State Fault Refusal :=
  if (parentLink s).isSome && decide (4 ≤ s.sd.missed) && s.sd.align != 3 && s.sd.align != 4 then
    done (emit { endExcursion s with sd := { (endExcursion s).sd with align := 3, holdover := 0 } } rkSundialHoldover (srcHub 0) none [])
  else done s

/-- Frames of holdover before the sundial is lost (Table 2.3). -/
def holdoverLimit (code : Nat) : Nat := match code with | 0 => 96 | 1 => 48 | _ => 24

/-- SUNDIAL_LOST: an error above 71 ns, or holdover beyond its limit. -/
def execSundialLost (s : State) : Host.Outcome State Fault Refusal :=
  let late := s.sd.align == 3 && decide (holdoverLimit s.sd.periodEff.toNat < s.sd.holdover.toNat)
  let far := (parentLink s).isSome && s.sd.align != 4 && s.sd.align != 3 && decide (71 < s.sd.err.toInt.natAbs)
  if late || far then
    let s := endExcursion s
    done (holdPortOwners (emit { s with sd := { s.sd with align := 4 } } rkSundialLost (srcHub 0) none []))
  else done s

end Sys2Proof.Machine
end

