-- ==== Sys2Proof/Machine/Tick.lean ====
section
/-! DEFINITION. The sundial tick (R38, R41, R42, R46, Table 2.2): what the frame just ended shows, and the steps of a tick in their order,
epoch adoption (R383), activations and lapsed requests (R165, R166) among them. What the spec ties to a tick but Table 2.2 does not list
(commits, the end of a plot reset, notices) is its own row's command, placed by the sender after this one (log entry 4). -/

namespace Sys2Proof.Machine

/-! ### The frame just ended -/

/-- A command that has issued but whose transfer or remote signal is still pending (R184). -/
def stillMoving (f : Flight) : Bool :=
  match f.cmd.op with
  | .mcopy _ => true
  | .msig _ => f.sig == .notSent || f.sig == .onTheWay
  | _ => false

/-- The engines of a plot that have a program and have not completed HALT (R184). -/
def liveEngines (s : State) (n : Nat) : List EngRef :=
  (engsOfPlot s n).filter (fun u => (engAt s u).program && !(engAt s u).halted)

/-- A remote signal of the plot is on its way (R184). -/
def plotSignals (s : State) (n : Nat) : Bool :=
  s.sigs.any (fun g => match g.src with
    | .engine u => plotOfPav s u.pav == some n
    | .dovecote _ => match g.target with
      | .pav p _ => plotOfPav s p == some n
      | .die _ m _ => m == n)

/-- The frame qualifies for WAIT_CYCLE (R184, R263). -/
def qualifies (s : State) (n : Nat) : Bool :=
  let us := liveEngines s n
  plotRuns s n && !(plotAt s n).moved && !us.isEmpty && !plotSignals s n && !shardsBusy s n &&
  us.all (fun u =>
    let e := engAt s u
    e.mode != .frozen && e.mode != .fault && (headWaits s u).isSome && !e.inflight.any stillMoving)

/-- The counts of a plot over the frame (R184, R390). -/
def framePlot (s : State) (n : Nat) : State :=
  let p := plotAt s n
  setPlot s n { p with
    quiet := if qualifies s n then p.quiet + 1 else 0
    moved := false
    runFrames := if p.image.isSome && p.state == 2 && !p.held then p.runFrames + 1 else p.runFrames
    heldFrames := if p.image.isSome && p.held then p.heldFrames + 1 else p.heldFrames }

/-- The source of a unit's records. -/
def workSrc (u : WorkUnit) : Src :=
  match u with
  | .engine e => srcPav e.pav
  | .dovecote j => srcDie j
  | .combiner j => srcDie j
  | .port l => srcLink l

/-- The engines of a running plot whose work of the frame just ended is not complete: alive, and no FRAME has moved pf past that frame
(R51, R52, R139). -/
def lateEngines (s : State) (n : Nat) : List EngRef :=
  if plotRuns s n && (plotAt s n).image.isSome then
    (engsOfPlot s n).filter (fun u => engAlive (engAt s u) && engPlot s u == some n && decide ((engAt s u).pf ≤ programFrame s n))
  else []

/-- The plot whose work a Dovecote has in hand at the tick: a chunk staged and not fed, or a segment held for a buffer (R51). Log entry 99. -/
def lateDovecote (s : State) (j : Nat) : Option Nat :=
  let d := dieAt s j
  match d.descs.find? (fun e => !e.2.prog.staged.isEmpty || d.held.any (fun h => h.idx == e.1)) with
  | some e => some e.2.plot
  | none => none

/-- The plot for which an edge combiner has contributions in hand whose results are not released (R51, R121). Log entry 99. -/
def lateCombiner (s : State) (j : Nat) : Option Nat :=
  match (dieAt s j).descs.find? (fun e => e.2.triggered && !e.2.prog.comb.isEmpty) with
  | some e => some e.2.plot
  | none => none

/-- The plot for which a port has a packet due under a reservation of the frame just ended (R51, R320). -/
def latePort (s : State) (l : Nat) : Option Nat :=
  let x := linkAt s l
  if active s l then (x.txq.find? (fun t => (rsvDue s l x t).isSome)).map (·.pkt.plot.toNat) else none

/-- The units that overran, each once, with the plot (R51): engines by plot, then Dovecotes, edge combiners and ports. -/
def overran (s : State) : List (WorkUnit × Nat) :=
  allPlots.flatMap (fun n => (lateEngines s n).map (fun u => (.engine u, n))) ++
  (List.range 16).filterMap (fun j => (lateDovecote s j).map (fun n => (.dovecote j, n))) ++
  (List.range 16).filterMap (fun j => (lateCombiner s j).map (fun n => (.combiner j, n))) ++
  (List.range 128).filterMap (fun l => (latePort s l).map (fun n => (.port l, n)))

/-- The causes of Table 2.6 that the state shows: a frozen engine, a segment held for lack of a pool buffer. -/
def causesOf (s : State) : WorkUnit → BitVec 7
  | .engine u => if (engAt s u).mode == .frozen then 0x20 else 0
  | .dovecote j => if (dieAt s j).held.isEmpty then 0 else 0x10
  | _ => 0

/-- FRAME_OVERRUN of one unit, with the figures observed of it; it is counted, and the work goes on (R51). -/
def overrun (obs : List OverrunObs) (s : State) (w : WorkUnit × Nat) : State :=
  let o := (obs.find? (fun o => o.unit == w.1)).getD ⟨w.1, 0, 0, 0, 0⟩
  emit { s with sd := { s.sd with overruns := s.sd.overruns + 1 } } rkFrameOverrun (workSrc w.1) (some w.2)
    [(16, o.cycles.toNat), (7, (o.causes ||| causesOf s w.1).toNat), (16, o.refresh.toNat), (16, o.retry.toNat)]

/-- The energy of the frame, with the input's voltage and power (R396). -/
def frameEnergy (s : State) (env : TickEnv) : State :=
  let s := { s with power := { s.power with energy := env.energy, millivolts := env.millivolts, milliwatts := env.milliwatts } }
  if moduleEnergy s.sd.periodEff.toNat < env.energy.toNat then
    let s := { s with power := { s.power with energyOver := s.power.energyOver + 1 } }
    if sayDue s s.power.energySaid then
      emit { s with power := { s.power with energySaid := some s.sd.ticks } } rkEnergyOver srcModule none []
    else s
  else s

/-- The pressure ratio of a stack in units of 1/256, saturating (R281). -/
def pressure (busiest ways total : Nat) : Nat := min 0xFFFF (busiest * ways * 256 / total)

/-- What a stack served in the frame, piece by piece: pseudo-channel, plot and bytes (R281). -/
def servedOn (s : State) (served : List HbmServed) (k : Nat) : List (Nat × Option Nat × Nat) :=
  (served.flatMap chunkPieces).filterMap (fun o => if o.1 / 2 ^ 35 = k then some (channelOf s o.1, plotOfAddr s o.1, o.2) else none)

/-- The key with the greatest count of a list of candidates, the first among equals, with its count. -/
def greatest (count : Nat → Nat) (ks : List Nat) : Nat × Nat :=
  ks.foldl (fun b k => if b.2 < count k then (k, count k) else b) (0, 0)

/-- A stack's pressure over a frame in which it served at least half of its budgetable bytes (R281). -/
def frameStack (served : List HbmServed) (s : State) (k : Nat) : State :=
  let ps := servedOn s served k
  let total := sumN (ps.map (·.2.2))
  if 2 * total < stackBytes s.sd.periodEff.toNat then s
  else
    let (c, busiest) := greatest (fun c => sumN ((ps.filter (fun p => p.1 == c)).map (·.2.2))) (List.range 64)
    let (plot, _) := greatest (fun n => sumN ((ps.filter (fun p => p.1 == c && p.2.1 == some n)).map (·.2.2))) allPlots
    let r := BitVec.ofNat 16 (pressure busiest 64 total)
    modStack s k (fun t =>
      if 2 * total < 64 * busiest then { t with ratio := r, above := t.above + 1, below := 0, topPlot := plot }
      else { t with ratio := r, above := 0, below := t.below + 1, armed := t.armed || decide (4096 ≤ t.below + 1) })

/-- The candidate links of a SPRAY entry, whatever their state (R314, R317). -/
def sprayLinks (s : State) (k : Nat) : List Nat :=
  match s.route.tableEff[k]? with
  | some e => if e.spray then bitsSet e.links 128 else []
  | none => []

/-- The capacity of a link, 0 where it is not ACTIVE (R321). -/
def capacityNow (s : State) (l : Nat) : Nat := if active s l then (linkAt s l).capacity.toNat else 0

/-- Sprayed flits that a link sent in the frame for an entry, of one plot or of all. -/
def sprayedOn (s : State) (e : Nat) (plot : Option Nat) (l : Nat) : Nat :=
  sumN (((linkAt s l).sprayed.filter (fun u => u.1 == e && (plot.isNone || some u.2.1 == plot))).map (·.2.2))

/-- A SPRAY entry's pressure over a frame in which its links carried at least half of their capacity (R317). -/
def frameSpray (s : State) (e : Nat) : State :=
  let ls := sprayLinks s e
  let total := sumN (ls.map (sprayedOn s e none))
  if ls.isEmpty || decide (2 * total < sumN (ls.map (capacityNow s))) || total == 0 then s
  else
    let p := tblGet {} s.route.sprays e
    let (l, busiest) := greatest (sprayedOn s e none) ls
    let (plot, _) := greatest (fun n => sprayedOn s e (some n) l) allPlots
    let r := pressure busiest ls.length total
    let p' : SprayState :=
      if 2 * total < ls.length * busiest then { p with above := p.above + 1, below := 0, ratio := r, plot := plot }
      else { p with above := 0, below := p.below + 1, ratio := r, armed := p.armed || decide (4096 ≤ p.below + 1) }
    { s with route := { s.route with sprays := tblSet s.route.sprays e p' } }

/-- The SPRAY entries under which flits went out in the frame. -/
def sprayedEntries (s : State) : List Nat := (s.net.links.flatMap (fun e => e.2.sprayed.map (·.1))).eraseDups

/-- Ticks with every junction sensor at 95 °C or less; 1,024 of them end a thermal episode (R399). -/
def frameCool (s : State) : State :=
  let k := if s.power.sensors.all (fun e => decide (e.2 ≤ 95000)) then s.power.coolTicks + 1 else 0
  { s with power := { s.power with coolTicks := k, hot := s.power.hot && decide (k < 1024) } }

/-- A VC on which flits wait for credits (R312). -/
def waitsForCredit (x : Link) (v : Nat) : Bool := x.txq.any (fun t => t.pkt.vc.toNat == v) && !hasCredit x v

/-- A link's counts over the frame: heartbeats missed (R378), VCs without credit (R312), and what is said or counted once per frame
(R296, R309, R320). -/
def frameLink (s : State) (l : Nat) : State :=
  let s := sendAcks s l
  let x := linkAt s l
  let vs := (List.range 8).filter (waitsForCredit x)
  setLink s l { x with
    hbMissed := if x.state == 6 then (if x.hbHeard then 0 else x.hbMissed + 1) else x.hbMissed
    hbHeard := false
    stall := vs.map (fun v => (v, tblGet 0 x.stall v + 1))
    stallSaid := x.stallSaid.filter (fun v => vs.contains v)
    rsvUsed := []
    sprayed := []
    saidCodes := []
    windowSaid := [] }

/-- The sundial's counts over the frame (R47). -/
def frameSundial (s : State) : State :=
  { s with sd := { s.sd with
      holdover := if s.sd.align = 3 then s.sd.holdover + 1 else s.sd.holdover
      missed := if (parentLink s).isSome && !s.sd.heard then s.sd.missed + 1 else s.sd.missed } }

/-- Everything that the frame just ended shows, stamped with its own tick count (R55). -/
def frameEnd (s : State) (env : TickEnv) : State :=
  let s := (s.plots.map (·.1)).foldl framePlot s
  let s := { s with
    pavs := s.pavs.map (fun e => (e.1, { e.2 with limited := [] }))
    coll := { s.coll with dies := s.coll.dies.map (fun e => (e.1, { e.2 with limited := [] })) } }
  let s := (overran s).foldl (overrun env.overruns) s
  let s := frameEnergy s env
  let s := if env.hbmServed.isEmpty then s else (List.range 8).foldl (frameStack env.hbmServed) s
  let s := (sprayedEntries s).foldl frameSpray s
  let s := frameCool s
  let s := (s.net.links.map (·.1)).foldl frameLink s
  settle (frameSundial s)

/-! ### Steps 1 and 2 -/

/-- The nominal length of frame n in core cycles (R38). -/
def nominalLength (code n : Nat) : Nat := (n + 1) * cycles10 code / 10 - n * cycles10 code / 10

/-- Step 1: the first tick after power-good is tick 0; every later one advances the counts. A slew and the start-up phase step move the
tick itself (R38, R53, R298, R404). -/
def stepCount (s : State) : State :=
  if s.sd.ticking then
    let len : Int := nominalLength s.sd.periodEff.toNat s.sd.ticks.toNat + s.sd.slew + s.sd.phaseStep
    { s with sd := { s.sd with
        ticks := s.sd.ticks + 1
        frame := s.sd.nextFrame.getD (s.sd.frame + 1)
        nextFrame := none
        phaseStep := 0
        tickCycle := s.sd.tickCycle + BitVec.ofInt 64 len } }
  else
    { s with sd := { s.sd with
        ticking := true, frame := s.sd.nextFrame.getD s.sd.frame, nextFrame := none, phaseStep := 0,
        tickCycle := BitVec.ofInt 64 s.sd.phaseStep } }

/-- Step 2 for a plot: a pending hold takes effect (R368). Each plot's record is collected before the next (log entry 10). -/
def holdNow (s : State) (n : Nat) : State :=
  let p := plotAt s n
  if p.pendHold = 0 then s
  else
    let causes := p.causes ||| p.pendHold
    settle (emit (setPlot s n { p with held := true, causes := causes, pendHold := 0 }) rkPlotHold srcModule (some n) [(32, causes.toNat)])

/-- A plot with an image that owns a failed pavilion holds until software has reset it and changed its mask (R20, Table 16.2). -/
def failedHold (s : State) (n : Nat) : State :=
  let p := plotAt s n
  if p.state ≠ 0 ∧ p.state ≠ 4 ∧ p.pavMask &&& s.failedMap ≠ 0 ∧ p.causes.getLsbD hcPavilion = false then raiseHold s n hcPavilion else s

/-- Step 2: complete COMMITs are adopted, and then the holds that were pending before the tick take effect; one that the adoption raises
waits for the next tick (R368, R383). -/
def stepHolds (s : State) : State :=
  let s := allPlots.foldl failedHold s
  let due := allPlots.filter (holdPending s)
  due.foldl holdNow (allPlots.foldl adoptNow s)

/-! ### Step 3 -/

/-- A pending plot command takes effect (Table 14.3). The frame in which a plot starts is none in which its heads waited throughout (R184). -/
def commandNow (s : State) (n : Nat) : State :=
  let p := plotAt s n
  let s' := setPlot s n { p with pendingCmd := none }
  match p.pendingCmd with
  | none => s
  | some .start => setPlot s n { p with pendingCmd := none, state := 2, startFrame := s.sd.ticks, quiet := 0, moved := true }
  | some .suspend => setPlot s n { p with pendingCmd := none, state := 3 }
  | some .resume => setPlot s n { p with pendingCmd := none, state := 2, quiet := 0 }
  | some .reset => resetPlotT s' n
  | some .release =>
    settle (emit (setPlot s n { p with pendingCmd := none, held := false, causes := 0, quiet := 0 }) rkHoldReleased srcModule (some n) [])

/-- A pavilion reset; of an unowned pavilion it clears a failed mark when the self-test passes (R405, Table 17.7). -/
def pavResetNow (s : State) (r : Nat × Bool) : State :=
  let i := r.1
  let s := resetPav s i
  let s := if r.2 && (maskOwner s i).isNone then { s with failedMap := setBit s.failedMap i false } else s
  emit s rkResetDone (srcPav i) (plotOfPav s i) [(8, 2)]

/-- An engine reset (R181, R405). -/
def engResetNow (s : State) (u : EngRef) : State := emit (resetEngine s u) rkResetDone (srcPav u.pav) (plotOfPav s u.pav) [(8, 3)]

/-- Step 3: the commanded changes; a module warm reset covers them all (R334, R405). -/
def stepCommands (s : State) : State :=
  match s.power.warm with
  | some env => warmReset s env
  | none =>
    let s := allPlots.foldl commandNow s
    let ps := s.power.pavResets
    let es := s.power.engResets
    let s := { s with power := { s.power with pavResets := [], engResets := [] } }
    es.foldl engResetNow (ps.foldl pavResetNow s)

/-! ### Steps 4 and 5 -/

/-- Step 4 for a plot with a pending request: the tick is counted, and the activation takes place or, at the 1,024th, lapses (R165, R166). -/
def activationTick (s : State) (n : Nat) : State :=
  if (plotAt s n).loadState = 3 then
    lapseNow (activateNow (modPlot s n (fun p => { p with actTicks := p.actTicks + 1 })) n) n
  else s

/-- Step 4. -/
def stepActivations (s : State) : State := allPlots.foldl activationTick s

/-- A plot's boundary settings: pavilions it sees, the window and the step value (R80, R124, R306). -/
def boundaryPlot (s : State) (p : Plot) : Plot :=
  { p with
    pavSeen := seenMask p.pavMask s.powered
    windowEff := p.window
    stepLatched := p.step }

/-- The period takes hold, with its record (R41). -/
def boundaryPeriod (s : State) : State :=
  if s.sd.periodSet then
    let old := s.sd.periodEff
    let s := { s with sd := { s.sd with periodSet := false, periodEff := s.sd.period } }
    emit s rkPeriodChanged (srcHub 0) none [(8, old.toNat), (8, s.sd.period.toNat), (64, s.sd.ticks.toNat)]
  else s

/-- A route table or direction map that was written takes effect as one change (R318). -/
def boundaryRoutes (s : State) : State :=
  if s.route.dirty then
    { s with route := { s.route with
        tableEff := s.route.table, dirEff := s.route.dir, gen := s.route.gen + 1, dirty := false, sprays := [] } }
  else s

/-- The dictionary values that take effect at a boundary (R91, R226, R324). -/
def boundaryValues (s : State) : State :=
  { s with
    route := { s.route with weightsEff := s.route.weights, clsWeightsEff := s.route.clsWeights }
    ar := { s.ar with b2ModeEff := s.ar.b2Mode, b2BaseEff := s.ar.b2Base }
    coll := { s.coll with relayEff := s.coll.relay, b2ReserveEff := s.coll.b2Reserve } }

/-- The (subscriber, class) pairs with a packet waiting in the hierarchy of a link (R325). -/
def backlog (x : Link) : List (Nat × Nat) := ((x.txq.filter inTree).map (fun t => (subOf t.pkt, clsOf t.pkt))).eraseDups

/-- Floor credit and ticks without a flit, of everything backlogged on a link (R325, R326). -/
def boundaryLink (s : State) (l : Nat) : State :=
  let x := linkAt s l
  if x.services.isEmpty && x.txq.isEmpty then s
  else
    setLink s l { x with services := (backlog x).map (fun (n, c) =>
      let v : Service := (x.services.find? (fun v => v.sub == n && v.cls == c)).getD { sub := n, cls := c }
      { v with
        credit := if subWeight s n ≠ 0 ∧ clsWeight s n c ≠ 0 then min 17 (v.credit + 1) else 0
        dry := v.dry + 1 }) }

/-- Ticks for which a Lodge has held an accused member without a proposal (R380). -/
def boundaryDomain (d : Domain) : Domain :=
  { d with accusedTicks := if (accused d).isEmpty || d.proposed.isSome || d.coming.isSome then 0 else d.accusedTicks + 1 }

/-- Step 5. -/
def stepBoundary (s : State) : State :=
  let s : State := boundaryValues (boundaryRoutes (boundaryPeriod s))
  let s : State := { s with plots := s.plots.map (fun e => (e.1, boundaryPlot s e.2)) }
  let s := stepCounters ((s.shards.map (·.1)).foldl shardTick s)
  let s : State := { s with lodge := { s.lodge with domains := s.lodge.domains.map (fun e => (e.1, boundaryDomain e.2)) } }
  (List.range 128).foldl boundaryLink s

/-! ### Step 6 and the guard band -/

/-- The slew for an error in ns: 1.8 core cycles to the ns, toward zero, at most 4 cycles, against the error (R46). -/
def slewOf (err : Int) : Int := -(max (-4) (min 4 ((18 * err).tdiv 10)))

/-- Step 6: the frame just begun is slewed when an offset was measured in the frame before (R46). -/
def stepSlew (s : State) : State :=
  let s := sundialRole s
  let on := (parentLink s).isSome && s.sd.heard && s.sd.align != 3
  { s with sd := { s.sd with slew := if on then slewOf s.sd.err.toInt else 0, heard := false } }

/-- A signed value saturated to 16 bits. -/
def sat16 (x : Int) : BitVec 16 := BitVec.ofInt 16 (max (-32768) (min 32767 x))

/-- The SUNDIAL set that a link sends at core cycle 32 of the frame (Table 12.7). -/
def sundialBody (s : State) (l : Nat) : SundialBody :=
  let txs := s.sd.tickCycle + 32
  let e := (linkAt s l).lastSundial
  { frame := s.sd.frame
    txs := txs
    echots := (match e with | some (t, _) => t | none => BitVec.allOnes 64)
    hold := (match e with | some (_, r) => (txs - r).extractLsb' 0 32 | none => 0)
    phase := 32
    err := sat16 s.sd.err.toInt
    master := s.sd.master.extractLsb' 0 24
    period := s.sd.periodEff
    state := BitVec.ofNat 8 s.sd.align
    hops := s.sd.hops }

/-- The 48 bytes of Table 12.7. -/
def sundialBytes (b : SundialBody) : List Byte :=
  natLe 48 ((b.frame ++ b.txs ++ b.echots ++ b.hold ++ b.phase ++ b.err ++ b.master ++ b.period ++ b.state ++ b.hops ++ (0 : BitVec 80)).toNat)

/-- The HEARTBEAT set of a link (Table 12.6, R378). -/
def heartbeatBody (s : State) (l : Nat) : HeartbeatBody :=
  { epid := selfId s
    epoch := (match hbPlot s (linkPort l) with | some n => (plotAt s n).epoch | none => 0)
    ticks := s.sd.ticks.extractLsb' 0 32
    state := if s.tele.moduleHeld then 2 else if allPlots.any (fun n => (plotAt s n).held) then 1 else 0 }

/-- Bytes 16–31 of a HEARTBEAT set. -/
def heartbeatBytes (b : HeartbeatBody) : List Byte :=
  natLe 16 ((b.epid ++ b.epoch ++ b.ticks ++ b.state ++ (0 : BitVec 48)).toNat)

/-- One SUNDIAL and then one HEARTBEAT become due on every ACTIVE link. -/
def sendBeats (s : State) (l : Nat) : State :=
  if active s l then
    modLink s l (fun x => { x with
      osq := x.osq ++ [orderedSet 3 (sundialBytes (sundialBody s l)), orderedSet 4 (heartbeatBytes (heartbeatBody s l))] })
  else s

/-- TICK: Table 2.2 in order. -/
def execTick (env : TickEnv) (s : State) : Host.Outcome State Fault Refusal :=
  if !s.power.pg then done s
  else
    let s := if s.sd.ticking then frameEnd s env else s
    let s := stepCount s
    let s := { s with tele := uncoalesce s.tele }
    let s := stepHolds s
    let s := stepCommands s
    let s := stepActivations s
    let s := stepBoundary s
    let s := stepSlew s
    done ((List.range 128).foldl sendBeats s)

end Sys2Proof.Machine
end

