-- ==== Sys2Proof/Machine/Dispatch.lean ====
section
/-! DEFINITION. Which meaning each command has: one arm per constructor of `Instr`. -/

namespace Sys2Proof.Machine

/-- The effect of a command on everything but the queue. -/
def exec (i : Instr) (s : State) : Host.Outcome State Fault Refusal :=
  match i with
  | .tick env => Sys2Proof.Machine.execTick env s
  | .periodWrite q v => Sys2Proof.Machine.execPeriodWrite q v s
  | .sundial link b trx prx => Sys2Proof.Machine.execSundial link b trx prx s
  | .sundialHoldover => Sys2Proof.Machine.execSundialHoldover s
  | .sundialLost => Sys2Proof.Machine.execSundialLost s
  | .commandFetch u x => Sys2Proof.Machine.execCommandFetch u x s
  | .headClockGate u => Sys2Proof.Machine.execHeadClockGate u s
  | .breakHit u => Sys2Proof.Machine.execBreakHit u s
  | .commandComplete u => Sys2Proof.Machine.execCommandComplete u s
  | .remoteSignalArrival t senders x => Sys2Proof.Machine.execRemoteSignalArrival t senders x s
  | .nop u x k => Sys2Proof.Machine.execNop u x k s
  | .loop u x k o => Sys2Proof.Machine.execLoop u x k o s
  | .endloop u x k => Sys2Proof.Machine.execEndloop u x k s
  | .frame u x k nf => Sys2Proof.Machine.execFrame u x k nf s
  | .halt u x k => Sys2Proof.Machine.execHalt u x k s
  | .mark u x k v => Sys2Proof.Machine.execMark u x k v s
  | .setvl u x k n => Sys2Proof.Machine.execSetvl u x k n s
  | .setvls u x k sn => Sys2Proof.Machine.execSetvls u x k sn s
  | .sli u x k d imm => Sys2Proof.Machine.execSli u x k d imm s
  | .salu u x k o => Sys2Proof.Machine.execSalu u x k o s
  | .tld u x k o => Sys2Proof.Machine.execTld u x k o s
  | .tst u x k o => Sys2Proof.Machine.execTst u x k o s
  | .tsum u x k o => Sys2Proof.Machine.execTsum u x k o s
  | .execProg u x k o => Sys2Proof.Machine.execExecProg u x k o s
  | .amode u x k o => Sys2Proof.Machine.execAmode u x k o s
  | .aclr u x k o => Sys2Proof.Machine.execAclr u x k o s
  | .addd u x k o => Sys2Proof.Machine.execAddd u x k o s
  | .addi u x k o => Sys2Proof.Machine.execAddi u x k o s
  | .acarry u x k o => Sys2Proof.Machine.execAcarry u x k o s
  | .adrain u x k o => Sys2Proof.Machine.execAdrain u x k o s
  | .mmerge u x k o => Sys2Proof.Machine.execMmerge u x k o s
  | .msort u x k o => Sys2Proof.Machine.execMsort u x k o s
  | .mtopk u x k o => Sys2Proof.Machine.execMtopk u x k o s
  | .mfilt u x k o => Sys2Proof.Machine.execMfilt u x k o s
  | .lmm u x k o => Sys2Proof.Machine.execLmm u x k o s
  | .mcopy u x k mda => Sys2Proof.Machine.execMcopy u x k mda s
  | .msig u x k o => Sys2Proof.Machine.execMsig u x k o s
  | .quarterPowerUp core quarter => Sys2Proof.Machine.execQuarterPowerUp core quarter s
  | .load q n => Sys2Proof.Machine.execLoad q n s
  | .verificationComplete n => Sys2Proof.Machine.execVerificationComplete n s
  | .activate q n => Sys2Proof.Machine.execActivate q n s
  | .activation n => Sys2Proof.Machine.execActivation n s
  | .loadBlocked n => Sys2Proof.Machine.execLoadBlocked n s
  | .cancel q n => Sys2Proof.Machine.execCancel q n s
  | .bankWrite q d => Sys2Proof.Machine.execBankWrite q d s
  | .selftestPavilion q => Sys2Proof.Machine.execSelftestPavilion q s
  | .selftestPortDie q => Sys2Proof.Machine.execSelftestPortDie q s
  | .selftestDone t pass => Sys2Proof.Machine.execSelftestDone t pass s
  | .engineResume q k => Sys2Proof.Machine.execEngineResume q k s
  | .counterAdjust q v => Sys2Proof.Machine.execCounterAdjust q v s
  | .counterFlagClear q v => Sys2Proof.Machine.execCounterFlagClear q v s
  | .waitCycle n => Sys2Proof.Machine.execWaitCycle n s
  | .plotResetComplete n => Sys2Proof.Machine.execPlotResetComplete n s
  | .poolAlloc r pool => Sys2Proof.Machine.execPoolAlloc r pool s
  | .poolAcquire r h => Sys2Proof.Machine.execPoolAcquire r h s
  | .poolRelease r h => Sys2Proof.Machine.execPoolRelease r h s
  | .bufferAcquire q h => Sys2Proof.Machine.execBufferAcquire q h s
  | .bufferRelease q h => Sys2Proof.Machine.execBufferRelease q h s
  | .descriptorTrigger die idx => Sys2Proof.Machine.execDescriptorTrigger die idx s
  | .seg link p env => Sys2Proof.Machine.execSeg link p env s
  | .stagingRetry die x => Sys2Proof.Machine.execStagingRetry die x s
  | .chunkFeed die idx x => Sys2Proof.Machine.execChunkFeed die idx x s
  | .resultRelease die idx x => Sys2Proof.Machine.execResultRelease die idx x s
  | .runComplete die idx => Sys2Proof.Machine.execRunComplete die idx s
  | .confirm link p cycle => Sys2Proof.Machine.execConfirm link p cycle s
  | .retract link p => Sys2Proof.Machine.execRetract link p s
  | .provDeadline die idx => Sys2Proof.Machine.execProvDeadline die idx s
  | .b2Launch link p => Sys2Proof.Machine.execB2Launch link p s
  | .b2Status link p => Sys2Proof.Machine.execB2Status link p s
  | .p2p link p => Sys2Proof.Machine.execP2p link p s
  | .pairEntryAdmit link => Sys2Proof.Machine.execPairEntryAdmit link s
  | .e2eAck link p => Sys2Proof.Machine.execE2eAck link p s
  | .stream link p => Sys2Proof.Machine.execStream link p s
  | .telemetry link p => Sys2Proof.Machine.execTelemetry link p s
  | .shardEntryWrite q d => Sys2Proof.Machine.execShardEntryWrite q d s
  | .digestTrigger n => Sys2Proof.Machine.execDigestTrigger n s
  | .digestBlock n x => Sys2Proof.Machine.execDigestBlock n x s
  | .digestComplete n => Sys2Proof.Machine.execDigestComplete n s
  | .digestHeader link p => Sys2Proof.Machine.execDigestHeader link p s
  | .digestList link p => Sys2Proof.Machine.execDigestList link p s
  | .shardCommit n => Sys2Proof.Machine.execShardCommit n s
  | .psTwinLate n => Sys2Proof.Machine.execPsTwinLate n s
  | .adoptLocal q => Sys2Proof.Machine.execAdoptLocal q s
  | .adoptTwin q => Sys2Proof.Machine.execAdoptTwin q s
  | .abandon q => Sys2Proof.Machine.execAbandon q s
  | .restore q => Sys2Proof.Machine.execRestore q s
  | .invalidate q => Sys2Proof.Machine.execInvalidate q s
  | .commitDegraded q => Sys2Proof.Machine.execCommitDegraded q s
  | .restoreRequest link p => Sys2Proof.Machine.execRestoreRequest link p s
  | .restoreData link p => Sys2Proof.Machine.execRestoreData link p s
  | .restoreRefusal link p => Sys2Proof.Machine.execRestoreRefusal link p s
  | .abortNotice link p => Sys2Proof.Machine.execAbortNotice link p s
  | .normTrigger t => Sys2Proof.Machine.execNormTrigger t s
  | .normPartial link p => Sys2Proof.Machine.execNormPartial link p s
  | .normResult link p => Sys2Proof.Machine.execNormResult link p s
  | .normConfigWrite q d => Sys2Proof.Machine.execNormConfigWrite q d s
  | .stepCounterWrite q n v => Sys2Proof.Machine.execStepCounterWrite q n v s
  | .regionWrite q n v => Sys2Proof.Machine.execRegionWrite q n v s
  | .scrubComplete stack unit => Sys2Proof.Machine.execScrubComplete stack unit s
  | .refresh stack channel bank => Sys2Proof.Machine.execRefresh stack channel bank s
  | .patrolScrub addr o => Sys2Proof.Machine.execPatrolScrub addr o s
  | .hbmPressure stack => Sys2Proof.Machine.execHbmPressure stack s
  | .hbmStackFail stack => Sys2Proof.Machine.execHbmStackFail stack s
  | .flitReceive link f => Sys2Proof.Machine.execFlitReceive link f s
  | .linkSet link ackseq ackv ret => Sys2Proof.Machine.execLinkSet link ackseq ackv ret s
  | .linkSetDue link => Sys2Proof.Machine.execLinkSetDue link s
  | .nak link seq => Sys2Proof.Machine.execNak link seq s
  | .replayTimeout link => Sys2Proof.Machine.execReplayTimeout link s
  | .linkSendSlot link => Sys2Proof.Machine.execLinkSendSlot link s
  | .heartbeat link b => Sys2Proof.Machine.execHeartbeat link b s
  | .neighbourSuspect epid => Sys2Proof.Machine.execNeighbourSuspect epid s
  | .linkSignalDetect link => Sys2Proof.Machine.execLinkSignalDetect link s
  | .trainDone link => Sys2Proof.Machine.execTrainDone link s
  | .alignDone link => Sys2Proof.Machine.execAlignDone link s
  | .lanecheckDone link c => Sys2Proof.Machine.execLanecheckDone link c s
  | .param link b => Sys2Proof.Machine.execParam link b s
  | .linkStateTimeout link => Sys2Proof.Machine.execLinkStateTimeout link s
  | .linkReattempt link => Sys2Proof.Machine.execLinkReattempt link s
  | .laneFail link lane loopbackPasses => Sys2Proof.Machine.execLaneFail link lane loopbackPasses s
  | .laneRetrainDone link => Sys2Proof.Machine.execLaneRetrainDone link s
  | .spare link lane phase => Sys2Proof.Machine.execSpare link lane phase s
  | .signalLost link => Sys2Proof.Machine.execSignalLost link s
  | .down link cause => Sys2Proof.Machine.execDown link cause s
  | .linkBringUp q n half => Sys2Proof.Machine.execLinkBringUp q n half s
  | .linkTakeDown q n half => Sys2Proof.Machine.execLinkTakeDown q n half s
  | .portModeWrite q n v => Sys2Proof.Machine.execPortModeWrite q n v s
  | .routeTableWrite q d => Sys2Proof.Machine.execRouteTableWrite q d s
  | .directionMapWrite q v => Sys2Proof.Machine.execDirectionMapWrite q v s
  | .routeStall link vc => Sys2Proof.Machine.execRouteStall link vc s
  | .sprayPressure entry => Sys2Proof.Machine.execSprayPressure entry s
  | .schedStarved link sub cls => Sys2Proof.Machine.execSchedStarved link sub cls s
  | .pavilionMaskWrite q n v => Sys2Proof.Machine.execPavilionMaskWrite q n v s
  | .portMaskWrite q n v => Sys2Proof.Machine.execPortMaskWrite q n v s
  | .plotStart q n => Sys2Proof.Machine.execPlotStart q n s
  | .suspend q n => Sys2Proof.Machine.execSuspend q n s
  | .plotResume q n => Sys2Proof.Machine.execPlotResume q n s
  | .plotReset q n => Sys2Proof.Machine.execPlotReset q n s
  | .releaseHold q n => Sys2Proof.Machine.execReleaseHold q n s
  | .jobSeedWrite q n d => Sys2Proof.Machine.execJobSeedWrite q n d s
  | .energyBudgetWrite q n v => Sys2Proof.Machine.execEnergyBudgetWrite q n v s
  | .zeroise q v => Sys2Proof.Machine.execZeroise q v s
  | .attestationRequest q d => Sys2Proof.Machine.execAttestationRequest q d s
  | .attestationReportReady => Sys2Proof.Machine.execAttestationReportReady s
  | .hello link m => Sys2Proof.Machine.execHello link m s
  | .response link m => Sys2Proof.Machine.execResponse link m s
  | .finish link m => Sys2Proof.Machine.execFinish link m s
  | .keyAgreeTimeout link => Sys2Proof.Machine.execKeyAgreeTimeout link s
  | .entropyFail => Sys2Proof.Machine.execEntropyFail s
  | .lockstepFail => Sys2Proof.Machine.execLockstepFail s
  | .openSession q t link c => Sys2Proof.Machine.execOpenSession q t link c s
  | .auth q c => Sys2Proof.Machine.execAuth q c s
  | .authTimeout slot => Sys2Proof.Machine.execAuthTimeout slot s
  | .close q => Sys2Proof.Machine.execClose q s
  | .sessionTimeout slot => Sys2Proof.Machine.execSessionTimeout slot s
  | .closeSession q v => Sys2Proof.Machine.execCloseSession q v s
  | .objectWrite q index sub command d => Sys2Proof.Machine.execObjectWrite q index sub command d s
  | .subscribe q index sub period => Sys2Proof.Machine.execSubscribe q index sub period s
  | .unsubscribe q index sub => Sys2Proof.Machine.execUnsubscribe q index sub s
  | .notify slot index sub => Sys2Proof.Machine.execNotify slot index sub s
  | .ringRead q cls offset len => Sys2Proof.Machine.execRingRead q cls offset len s
  | .snapshot o => Sys2Proof.Machine.execSnapshot o s
  | .telemetryExport link => Sys2Proof.Machine.execTelemetryExport link s
  | .incidentEnd plot => Sys2Proof.Machine.execIncidentEnd plot s
  | .membershipTableWrite q d => Sys2Proof.Machine.execMembershipTableWrite q d s
  | .accuse link p => Sys2Proof.Machine.execAccuse link p s
  | .roundStart n => Sys2Proof.Machine.execRoundStart n s
  | .roundTakeover n => Sys2Proof.Machine.execRoundTakeover n s
  | .propose link p => Sys2Proof.Machine.execPropose link p s
  | .ack link p => Sys2Proof.Machine.execAck link p s
  | .roundClose n windowOver => Sys2Proof.Machine.execRoundClose n windowOver s
  | .commit link p => Sys2Proof.Machine.execCommit link p s
  | .epochAdopt n => Sys2Proof.Machine.execEpochAdopt n s
  | .noquorum link p => Sys2Proof.Machine.execNoquorum link p s
  | .pull link p => Sys2Proof.Machine.execPull link p s
  | .probe link p => Sys2Proof.Machine.execProbe link p s
  | .probeReply link p => Sys2Proof.Machine.execProbeReply link p s
  | .probeTimeout n => Sys2Proof.Machine.execProbeTimeout n s
  | .claimDead q v => Sys2Proof.Machine.execClaimDead q v s
  | .claimAlive q v => Sys2Proof.Machine.execClaimAlive q v s
  | .powerGood env => Sys2Proof.Machine.execPowerGood env s
  | .startupTimeout => Sys2Proof.Machine.execStartupTimeout s
  | .vinRange millivolts => Sys2Proof.Machine.execVinRange millivolts s
  | .powerLoss c => Sys2Proof.Machine.execPowerLoss c s
  | .resetN => Sys2Proof.Machine.execResetN s
  | .sensorConversion rs => Sys2Proof.Machine.execSensorConversion rs s
  | .thermtrip r => Sys2Proof.Machine.execThermtrip r s
  | .coolantWarn inlet flow => Sys2Proof.Machine.execCoolantWarn inlet flow s
  | .moduleWarmReset q env => Sys2Proof.Machine.execModuleWarmReset q env s
  | .pavilionReset q selftestPasses => Sys2Proof.Machine.execPavilionReset q selftestPasses s
  | .engineReset q => Sys2Proof.Machine.execEngineReset q s
  | .coldReset q => Sys2Proof.Machine.execColdReset q s
  | .firmwareImageWrite q d v => Sys2Proof.Machine.execFirmwareImageWrite q d v s
  | .updateDone => Sys2Proof.Machine.execUpdateDone s
  | .preferredSlotWrite q v => Sys2Proof.Machine.execPreferredSlotWrite q v s
  | .vauxRemoved => Sys2Proof.Machine.execVauxRemoved s
  | .tlsConnectionEnd slot => Sys2Proof.Machine.execTlsConnectionEnd slot s
  | .managementLinkUp port => Sys2Proof.Machine.execManagementLinkUp port s
  | .kiosk link p => Sys2Proof.Machine.execKiosk link p s
  | .keyInstalled link plot => Sys2Proof.Machine.execKeyInstalled link plot s
  | .stackTemperature stack mC => Sys2Proof.Machine.execStackTemperature stack mC s

end Sys2Proof.Machine
end

