-- ==== Sys2Proof/Safety.lean ====
section
/-! DEFINITION. The words that statements about the block are made of: what a meaning leaves alone, what it reports, how it answers a
client, and what it is for an engine command to issue. -/

namespace Sys2Proof.Safety

open Sys2Proof.Machine

/-! ### Memory -/

/-- Every byte store of the block is in its canonical form: HBM, every pavilion's data SRAM and stationary buffers, and every
port die's buffer memory. -/
def canonical (s : State) : Prop :=
  Memory.wf s.hbm.mem = true ∧
  (∀ e, e ∈ s.pavs → Memory.wf e.2.sram = true ∧ Memory.wf e.2.latStat = true) ∧
  (∀ e, e ∈ s.coll.dies → Memory.wf e.2.mem = true)

/-- What every step keeps: the byte stores in canonical form, and every TILE's vector length at most 512 (R93). -/
def kept (s : State) : Prop := canonical s ∧ ∀ e, e ∈ s.pavs → e.2.vl ≤ 512

/-- The bits of a map set among pavilions `lo` to `lo + n − 1`. -/
def enabledIn (m : BitVec 256) (lo n : Nat) : Nat := ((List.range n).filter (fun i => m.getLsbD (lo + i))).length

/-- The three conditions that the enable map of every shipped module meets: 240 pavilions in all, 28 on each core die, 6 in each quarter
(R17). -/
def shippedMap (m : BitVec 256) : Bool :=
  decide (240 ≤ enabledIn m 0 256) && (List.range 8).all (fun d => decide (28 ≤ enabledIn m (32 * d) 32)) &&
    (List.range 32).all (fun q => decide (6 ≤ enabledIn m (8 * q) 8))

/-! ### Records (R371, R372; log entry 10) -/

/-- The Belvedere after a meaning that emitted no record. -/
def quiet (s : State) : Tele := collectTele s.tele

/-- The Belvedere after a meaning that emitted this one record, with the ticks, boot count and epochs of `s`. -/
def told (s : State) (k : RecKind) (src : Src) (plot : Option Nat) (args : List (Nat × Nat)) : Tele :=
  collectTele (emit s k src plot args).tele

/-! ### Kiosk requests (R355, R358) -/

/-- The response of a request, of Table 15.4. -/
def reply (q : KReq) (st : U16) : KMsg := { notify := false, seq := q.seq, status := st, param := 0, body := [] }

/-- The request's session after a request: heard, every queued message handed over, and one message more sent. -/
def served (w : State) (q : KReq) : Session :=
  let x := sessAt w q.slot
  { x with
    outq := []
    mctrIn := if gateSession w q = .pass ∧ x.transport = .inband then q.mctr else x.mctrIn
    mctrOut := if x.transport = .inband then x.mctrOut + 1 else x.mctrOut }

/-- `t` is `w` with the message `m` sent to the requester: `w` has the request's effect and the sessions as before it. -/
def sent (w : State) (q : KReq) (m : KMsg) (t : State) : Prop :=
  t = { w with out := t.out, kiosk := { w.kiosk with sessions := t.kiosk.sessions }, tele := quiet w } ∧
  t.out = w.out ++ ((sessAt w q.slot).outq ++ [m]).map (Out.kiosk q.slot) ∧
  sessAt t q.slot = served w q ∧
  ∀ k, k ≠ q.slot → sessAt t k = sessAt w k

/-- The request is answered OK, `w` being the state with its effect. -/
def accepted (w : State) (q : KReq) (t : State) : Prop := sent w q (reply q stOk) t

/-- The request is refused with a status: counted in 0x1100:07, and nothing else is changed. -/
def refused (s : State) (q : KReq) (st : U16) (t : State) : Prop :=
  sent { s with kiosk := { s.kiosk with refusals := s.kiosk.refusals + 1 } } q (reply q st) t

/-- The request waits for its snapshot, unanswered (R362): heard on its session, with its value in the journal's queue. -/
def journalled (s : State) (q : KReq) (p : JPend) (t : State) : Prop :=
  t = { s with kiosk := (heardReq s q).kiosk, journal := { s.journal with pend := s.journal.pend ++ [p] }, tele := quiet s }

/-- The request passes the checks of R359 as a write or command of this object. -/
def admits (s : State) (q : KReq) (index sub : Nat) (command : Bool) : Prop := gateObj s q index sub command false = .pass

/-- The command is answered OK, `w` being the state with its effect and nothing else changed. -/
def okWith (s : State) (c : Instr) (q : KReq) (w : State) : Prop := ∃ t, exec c s = .next t ∧ accepted w q t

/-- The command is refused with a status and has no effect. -/
def notOk (s : State) (c : Instr) (q : KReq) (st : U16) : Prop := ∃ t, exec c s = .next t ∧ refused s q st t

/-- The command waits for its snapshot with this value. -/
def awaitsSnapshot (s : State) (c : Instr) (q : KReq) (p : JPend) : Prop := ∃ t, exec c s = .next t ∧ journalled s q p t

/-- The segment completes a DOMAIN write of `index:sub`, whose whole value is then `all` (R357). -/
def wholeValue (s : State) (q : KReq) (index sub limit : Nat) (d : DomSeg) (all : List Byte) : Prop :=
  d.last = true ∧ all.length ≤ limit ∧
  ∃ have_, all = have_ ++ d.data ∧ d.offset = have_.length ∧
    have_ = (match (sessAt s q.slot).staging with
      | some g => if g.index.toNat = index ∧ g.sub.toNat = sub then g.data else []
      | none => [])

/-- The state with the staged segments of the request's session taken out of it. -/
def unstaged (s : State) (q : KReq) : State := modSess s q.slot (fun x => { x with staging := none })

/-- The command is answered OK as a whole DOMAIN write of `index:sub`, `w` being the state with its effect: the staged segments are gone and
the change count has advanced (R357, Table 15.5). -/
def domOk (s : State) (c : Instr) (q : KReq) (index sub : Nat) (w : State) : Prop :=
  okWith s c q (bumpChange (unstaged w q) index sub)

/-- The command is refused with a status as a whole DOMAIN write: the staged segments are gone. -/
def domNotOk (s : State) (c : Instr) (q : KReq) (st : U16) : Prop := ∃ t, exec c s = .next t ∧ refused (unstaged s q) q st t

/-! ### Engine commands (R130–R133) -/

/-- `q` is at the head of the engine's queue, its wait holds, and nothing else keeps it from issuing. -/
def issues (s : State) (u : EngRef) (q : QCmd) : Prop :=
  (engAt s u).queue.head? = some q ∧ headReady s u q = true ∧ headWait s u q.cmd.hdr = true

/-- The state once the head has issued, `s` being the state with the command's own effect. -/
def issued (s : State) (u : EngRef) (q : QCmd) (sig : SigState) : State :=
  settle (headIssued (consumeWait s u q.cmd.hdr) u q sig)

/-- The row of the table for a command of an engine. -/
def cmdRow (u : EngRef) (x : Upset) (k : CmdHdr) : EngOp → Instr
  | .nop => .nop u x k
  | .loop o => .loop u x k o
  | .endloop => .endloop u x k
  | .frame nf => .frame u x k nf
  | .halt => .halt u x k
  | .mark v => .mark u x k v
  | .setvl n => .setvl u x k n
  | .setvls n => .setvls u x k n
  | .sli d v => .sli u x k d v
  | .salu o => .salu u x k o
  | .tld o => .tld u x k o
  | .tst o => .tst u x k o
  | .tsum o => .tsum u x k o
  | .exec o => .execProg u x k o
  | .amode o => .amode u x k o
  | .aclr o => .aclr u x k o
  | .addd o => .addd u x k o
  | .addi o => .addi u x k o
  | .acarry o => .acarry u x k o
  | .adrain o => .adrain u x k o
  | .mmerge o => .mmerge u x k o
  | .msort o => .msort u x k o
  | .mtopk o => .mtopk u x k o
  | .mfilt o => .mfilt u x k o
  | .lmm o => .lmm u x k o
  | .mcopy a => .mcopy u x k a
  | .msig o => .msig u x k o

/-- The engine has stopped on a failed check (R155): fault state, and the retired count, TAG and status in 0x5000:08. -/
def stoppedEng (s t : State) (u : EngRef) (tag : BitVec 16) (st : U16) : Prop :=
  (engAt t u).mode = .fault ∧ (engAt t u).faultWord = faultWordOf (engAt s u) tag st ∧
  (engAt t u).queue = (engAt s u).queue ∧ (engAt t u).inflight = (engAt s u).inflight ∧ (engAt t u).retired = (engAt s u).retired

/-- A check of Table 5.19 has failed: the engine has stopped, its record has left, its plot is held for ENGINE as a contained error, and
nothing else has changed. -/
def failedCheck (s t : State) (u : EngRef) (tag : BitVec 16) (st : U16) (k : RecKind) : Prop :=
  stoppedEng s t u tag st ∧
  pavAt t u.pav = { pavAt s u.pav with engines := (pavAt t u.pav).engines } ∧
  (∀ e, e ≠ u.eng → engAt t ⟨u.pav, e⟩ = engAt s ⟨u.pav, e⟩) ∧ (∀ i, i ≠ u.pav → pavAt t i = pavAt s i) ∧
  (∀ n, plotAt t n = if engPlot s u = some n then { plotAt s n with pendHold := setBit (plotAt s n).pendHold hcEngine true } else plotAt s n) ∧
  t = { s with
    pavs := t.pavs, plots := t.plots,
    tele := collectTele { (emit s k (srcPav u.pav) (engPlot s u) [(4, u.eng), (16, tag.toNat)]).tele with
      contained := s.tele.contained + bif (engPlot s u).isSome then 1 else 0 } }

/-! ### Packets (R290) -/

/-- A packet that has arrived on a link and that the checks of R290 pass. -/
def passes (s : State) (l : Nat) (p : Pkt) : Prop :=
  let x := linkAt s l
  active s l = true ∧ arrived s l p = true ∧ p.poison = false ∧ flitsOk (encrypted x p) (headFlits x p) = true ∧ headerOk p = true ∧
  (encrypted x p = true → authentic x p = true) ∧
  (p.vc = 0 ∨ p.vc = 6 ∨ p.epoch = (plotAt s p.plot.toNat).epoch) ∧ (plotAt s p.plot.toNat).portMask.getLsbD (linkPort l) = true

/-- The state once the packet's tag has been verified: the generation that an encrypted packet was sent under is the one held (R301). -/
def opened (s : State) (l : Nat) (p : Pkt) : State :=
  if encrypted (linkAt s l) p then setLink s l (acceptGen (linkAt s l) p) else s

/-- The packet waits for the sender of link `k`, having come from `source`. -/
def queuedOn (s : State) (k source : Nat) (p : Pkt) : State :=
  setLink s k { linkAt s k with txq := (linkAt s k).txq ++ [{ pkt := p, source := source, spray := sprayEntry s p }] }

/-- Link `k` takes the packet: it is ACTIVE, and the packet's plot owns its port or the packet is on VC6. -/
def takes (s : State) (k : Nat) (p : Pkt) : Prop :=
  active s k = true ∧ (p.vc = 6 ∨ (plotAt s p.plot.toNat).portMask.getLsbD (linkPort k) = true)

/-- The rows of the packets that every port checks in the same way, by opcode. -/
def packetRows : List (BitVec 8 × (Nat → Pkt → Instr)) :=
  [(opSeg, fun l p => .seg l p {}), (opConfirm, fun l p => .confirm l p 0), (opRetract, .retract), (opP2p, .p2p), (opE2eAck, .e2eAck),
   (opB2Launch, .b2Launch), (opB2Status, .b2Status), (opKiosk, .kiosk), (opTelemetry, .telemetry), (opStream, .stream)]

end Sys2Proof.Safety
end

