-- ==== Sys2Proof/Certificates/Slice0/Obligations.lean ====
section
/-! DEFINITION. The statements about the block, for the provers. -/

open Sys2Proof Sys2Proof.Machine Sys2Proof.Safety

/-! ### The block as a machine -/

/-- A step takes the command at the front of the queue and runs it with the queue's rest; with nothing waiting the block idles (the
model's own convention, log entry 1). -/
def Obligations.StepTakesTheFront : Prop :=
  (∀ (s : State) (c : Instr) (rest : List Instr), s.pending = c :: rest → step s = exec c { s with pending := rest }) ∧
  (∀ s : State, s.pending = [] → step s = .next s)

/-- No command of the table stops the block, in whatever state it meets it, and none touches the queue of waiting commands: its effect is
on everything else (log entry 1). -/
def Obligations.EveryCommandAnswers : Prop :=
  ∀ (c : Instr) (s : State), ∃ t, exec c s = .next t ∧ t.pending = s.pending

/-- What holds of the block in every state: its byte stores are in canonical form, and no TILE's vector length exceeds 512. -/
def Obligations.InvariantKeptByEveryStep : Prop :=
  ∀ s t : State, step s = .next t → kept s → kept t

/-- Reset meets the invariant, and every object stands at the value that the manual gives for it. -/
def Obligations.ResetState : Prop :=
  kept State.reset ∧
  State.reset.pending = [] ∧
  -- the sundial (R41, R45, R47, R53, R55)
  State.reset.sd.ticks = 0 ∧ State.reset.sd.period = 1 ∧ State.reset.sd.master = 0x00FFFFFF ∧ State.reset.sd.parent = 0xFF ∧
  State.reset.sd.align = 0 ∧ State.reset.sd.frame = 0 ∧
  -- arithmetic (R91)
  State.reset.ar.b2Base = BitVec.ofInt 32 (-560) ∧
  -- pavilions (R30, R93, R174)
  State.reset.powered = 0 ∧
  (∀ i, (pavAt State.reset i).vl = 512) ∧
  (∀ i c, (ctrAt State.reset i c).poison = true ∧ (ctrAt State.reset i c).value = 0) ∧
  (∀ u, (engAt State.reset u).mode = .idle ∧ (engAt State.reset u).program = false) ∧
  -- plots (R295, R333)
  (∀ n, (plotAt State.reset n).state = 0 ∧ (plotAt State.reset n).pavMask = 0 ∧ (plotAt State.reset n).portMask = 0 ∧
    (plotAt State.reset n).window = 64) ∧
  -- ports and links (R284, R291, R302)
  State.reset.net.credits = [64, 256, 4096, 4096, 1536, 1536, 128, 576] ∧
  (∀ p, (portAt State.reset p).mode = 0 ∧ (portAt State.reset p).expected = 0x00FFFFFF) ∧
  (∀ l, (linkAt State.reset l).state = 0) ∧
  -- routing (R312, R314, R326)
  State.reset.route.table = [] ∧ State.reset.route.self = 0x00FFFFFF ∧ State.reset.route.stallLimit = 4096 ∧
  State.reset.route.starveLimit = 4096 ∧
  -- shards, Kiosk, Belvedere and Lodge (R248, R354, R392)
  (∀ n, (shardAt State.reset n).state = 0) ∧
  (sessAt State.reset 7).isOpen = true ∧ (∀ k, k < 7 → (sessAt State.reset k).isOpen = false) ∧
  State.reset.tele.collector = 0x00FFFFFF ∧ State.reset.tele.classes = 7 ∧
  State.reset.lodge.window = 1000 ∧ State.reset.lodge.takeover = 16 ∧
  -- power (R393, R400)
  State.reset.power.pg = false ∧ State.reset.power.step = 0

/-- Every command of an engine reads back from the word that spells it, with every field at every value its form admits. -/
def Obligations.EncodedCommandsDecode : Prop :=
  ∀ (eng : Nat) (c : EngCmd), opOnEng eng c.op = true → cmdOk eng c = true → decodeCmd eng (encodeCmd eng c) = some c

/-- The bytes of data SRAM written by a command read back as written, and every other byte of it as before; a write that would cover
part of a word held uncorrectable aside. -/
def Obligations.SramReadsBackWrites : Prop :=
  ∀ (v : Pavilion) (a : Nat) (bs : List Byte), Memory.wf v.sram = true → v.badWords = [] →
    (sramWrite v a bs).2 = none ∧ Memory.wf (sramWrite v a bs).1.sram = true ∧
    sramRead (sramWrite v a bs).1 a bs.length = bs ∧
    (∀ i, (i < a ∨ a + bs.length ≤ i) → memRead (sramWrite v a bs).1.sram i = memRead v.sram i) ∧
    (sramWrite v a bs).1 = { v with sram := (sramWrite v a bs).1.sram, badWords := [] }

/-! ### Engines: issue (chapter 05) -/

/-- A head that issues leaves the queue and is in flight; with WDEC its wait counter falls by WTHR (R131); a resume for k commands
counts it and the engine freezes after the last (R171); its plot has moved (R184). Nothing else changes.

A command whose wait does not hold stays at the head and its engine waits, unless it was clock-gated already (R130, R179); a command
that is not the head, or that may not issue yet, does nothing at all (R133; log entry 2). -/
def Obligations.HeadOfTheQueue : Prop :=
  (∀ (s : State) (u : EngRef) (q : QCmd) (sig : SigState),
     let e := engAt s u
     let t := issued s u q sig
     let k := q.cmd.hdr
     let c := ctrAt s u.pav k.wctr.toNat
     engAt t u = { e with
       queue := e.queue.tail
       inflight := e.inflight ++ [⟨q.cmd, sig, e.nsig⟩]
       passBreak := false
       mode := if e.stepsLeft.any (fun n => decide (n ≤ 1)) then .frozen else .running
       stepsLeft := e.stepsLeft.bind (fun n => if n ≤ 1 then none else some (n - 1)) } ∧
     ctrAt t u.pav k.wctr.toNat = (if k.w ∧ k.wdec then { c with value := c.value - k.wthr.setWidth 16 } else c) ∧
     (∀ j, j ≠ k.wctr.toNat → ctrAt t u.pav j = ctrAt s u.pav j) ∧
     (∀ g, g ≠ u.eng → engAt t ⟨u.pav, g⟩ = engAt s ⟨u.pav, g⟩) ∧
     pavAt t u.pav = { pavAt s u.pav with engines := (pavAt t u.pav).engines, ctrs := (pavAt t u.pav).ctrs } ∧
     (∀ i, i ≠ u.pav → pavAt t i = pavAt s i) ∧
     (∀ n, plotAt t n = if engPlot s u = some n then { plotAt s n with moved := true } else plotAt s n) ∧
     t = { s with pavs := t.pavs, plots := t.plots, tele := quiet s }) ∧
  (∀ (s : State) (u : EngRef) (k : CmdHdr) (op : EngOp),
     (∀ q, (engAt s u).queue.head? = some q → q.cmd = ⟨k, op⟩ → headReady s u q = true → headWait s u k = false →
       exec (cmdRow u {} k op) s = .next (settle (modEng s u (fun e => { e with mode := if e.mode = .gated then .gated else .waiting })))) ∧
     (∀ x q, (engAt s u).queue.head? = some q → (q.cmd ≠ ⟨k, op⟩ ∨ headReady s u q = false) → exec (cmdRow u x k op) s = .next (settle s)) ∧
     (∀ x, (engAt s u).queue = [] → exec (cmdRow u x k op) s = .next (settle s)))

/-- The control commands NOP, LOOP, ENDLOOP and HALT issue with no effect of their own; FRAME adds NF to the program frame (R139); MARK
emits COMMAND_TRACE with its value (Table 5.3).

SETVL, SETVLS, SLI and SALU write the vector length or one scalar register, and nothing else (R101, R145, Table 5.9). -/
def Obligations.ControlAndScalarCommands : Prop :=
  (∀ (s : State) (u : EngRef) (q : QCmd) (k : CmdHdr), issues s u q →
     (q.cmd = ⟨k, .nop⟩ → exec (.nop u {} k) s = .next (issued s u q .notSent)) ∧
     (∀ o, q.cmd = ⟨k, .loop o⟩ → exec (.loop u {} k o) s = .next (issued s u q .notSent)) ∧
     (q.cmd = ⟨k, .endloop⟩ → exec (.endloop u {} k) s = .next (issued s u q .notSent)) ∧
     (q.cmd = ⟨k, .halt⟩ → exec (.halt u {} k) s = .next (issued s u q .notSent)) ∧
     (∀ nf, q.cmd = ⟨k, .frame nf⟩ →
       exec (.frame u {} k nf) s = .next (issued (modEng s u (fun e => { e with pf := e.pf + nf.toNat })) u q .notSent)) ∧
     (∀ v, q.cmd = ⟨k, .mark v⟩ →
       exec (.mark u {} k v) s = .next (issued (emit s rkCommandTrace (srcPav u.pav) (engPlot s u) [(32, v.toNat)]) u q .notSent))) ∧
  (∀ (s : State) (u : EngRef) (q : QCmd) (k : CmdHdr), issues s u q →
     let v := pavAt s u.pav
     let reg (n : BitVec 5) : BitVec 32 := tblGet 0 v.scalars n.toNat
     (∀ n : BitVec 10, q.cmd = ⟨k, .setvl n⟩ → n.toNat ≤ 512 →
       exec (.setvl u {} k n) s = .next (issued (setPav s u.pav { v with vl := n.toNat }) u q .notSent)) ∧
     (∀ n, q.cmd = ⟨k, .setvls n⟩ →
       exec (.setvls u {} k n) s = .next (issued (setPav s u.pav { v with vl := min (reg n).toNat 512 }) u q .notSent)) ∧
     (∀ d imm, q.cmd = ⟨k, .sli d imm⟩ →
       exec (.sli u {} k d imm) s = .next (issued (setPav s u.pav { v with scalars := tblSet v.scalars d.toNat imm }) u q .notSent)) ∧
     (∀ o : SaluOps, q.cmd = ⟨k, .salu o⟩ → o.op.toNat ≤ 0xA →
       let a := reg o.a
       let b := if o.i then o.imm.signExtend 32 else reg o.b
       let r : BitVec 32 := match o.op.toNat with
         | 0x0 => a + b
         | 0x1 => a - b
         | 0x2 => a &&& b
         | 0x3 => a ||| b
         | 0x4 => a ^^^ b
         | 0x5 => a <<< (b.toNat % 32)
         | 0x6 => a >>> (b.toNat % 32)
         | 0x7 => if a.toNat ≤ b.toNat then a else b
         | 0x8 => if a.toNat ≤ b.toNat then b else a
         | 0x9 => a * b
         | _ => if b.toNat ≤ a.toNat then a - b else 0
       exec (.salu u {} k o) s = .next (issued (setPav s u.pav { v with scalars := tblSet v.scalars o.d.toNat r }) u q .notSent)))

/-- TLD loads the active elements of its tile, each widened from its format, and nothing else (R85, R142).

TST writes only the bytes of its rows and their scales and adds to one summary accumulator; one row stored in FP32 holds the elements'
own bits (R85, R143); with VL 0 nothing is touched (R101). TSUM writes the accumulator's 64 bytes and clears it (R143). -/
def Obligations.TileMemory : Prop :=
  (∀ (s : State) (u : EngRef) (q : QCmd) (k : CmdHdr) (o : TileMem), issues s u q → q.cmd = ⟨k, .tld o⟩ →
     let v := pavAt s u.pav
     let f := o.fmt.toNat
     fmtValid f = true → f ≠ fFP64 → strideOk o = true →
     (∀ r ∈ tileRanges v o k q.iter v.vl, sramIn r.1 r.2 = true) → sramBads v (tileRanges v o k q.iter v.vl) = none →
     ∃ w, exec (.tld u {} k o) s = .next (issued (setPav s u.pav w) u q .notSent) ∧
       w = { v with tiles := w.tiles } ∧
       (∀ r e, 32 * r + e < v.vl → e < 32 →
         tileGet w o.t.toNat (32 * r + e) =
           widen f (if fmtMx f then (memRead v.sram (scaleAddr v o k q.iter r)).toNat else 0)
             (elemAt f (sramRead v (rowAddr v o k q.iter r) (fmtSize f (min 32 (v.vl - 32 * r)))) e)) ∧
       (∀ j, (j < 512 * o.t.toNat ∨ 512 * o.t.toNat + v.vl ≤ j) → tblGet {} w.tiles j = tblGet {} v.tiles j)) ∧
  (∀ (s : State) (u : EngRef) (q : QCmd) (k : CmdHdr) (o : TileMem), issues s u q →
     let v := pavAt s u.pav
     let f := o.fmt.toNat
     v.badWords = [] →
     (q.cmd = ⟨k, .tst o⟩ → fmtValid f = true → strideOk o = true → (∀ r ∈ tileRanges v o k q.iter v.vl, sramIn r.1 r.2 = true) →
       ∃ w, exec (.tst u {} k o) s = .next (issued (setPav s u.pav w) u q .notSent) ∧
         w = { v with sram := w.sram, sums := w.sums } ∧
         (∀ y, y ≠ o.y.toNat → tblGet {} w.sums y = tblGet {} v.sums y) ∧
         (∀ a, (∀ r ∈ tileRanges v o k q.iter v.vl, a < r.1 ∨ r.1 + r.2 ≤ a) → memRead w.sram a = memRead v.sram a) ∧
         (v.vl = 0 → w = v) ∧
         (Memory.wf v.sram = true → f = fFP32 → v.vl ≤ 32 →
           sramRead w (rowAddr v o k q.iter 0) (4 * v.vl) =
             (List.range v.vl).flatMap (fun e => natLe 4 (tileGet v o.t.toNat e).bits.toNat))) ∧
     (q.cmd = ⟨k, .tsum o⟩ →
       let a := advance k.laa (scalar v o.sa.toNat + o.off.toNat) 64 q.iter
       a % 64 = 0 → a + 64 ≤ 2 ^ 22 →
       ∃ w, exec (.tsum u {} k o) s = .next (issued (setPav s u.pav w) u q .notSent) ∧
         w = { v with sram := w.sram, sums := tblSet v.sums o.y.toNat {} } ∧
         (∀ i, (i < a ∨ a + 64 ≤ i) → memRead w.sram i = memRead v.sram i) ∧
         (Memory.wf v.sram = true → sramRead w a 64 = summaryBytes (tblGet {} v.sums o.y.toNat))))

/-- EXEC leaves in every active element of every tile it writes what its program computes from the values before it (R102, R103), and
changes nothing else; words of the store that the image did not give are 0 (the model's choice, log entry 103). -/
def Obligations.ElementProgram : Prop :=
  ∀ (s : State) (u : EngRef) (q : QCmd) (k : CmdHdr) (o : ExecOps), issues s u q → q.cmd = ⟨k, .exec o⟩ →
    let v := pavAt s u.pav
    let p := storeProgram (activeStore (engAt s u)) o
    v.vl ≤ 512 → programOk o p = true →
    ∃ w, exec (.execProg u {} k o) s = .next (issued (setPav s u.pav w) u q .notSent) ∧
      w = { v with tiles := w.tiles } ∧
      ∀ d e, d < 32 → e < 512 →
        tileGet w d e = if e < v.vl then tblGet (tileGet v d e) (runElem v o p e) d else tileGet v d e

/-- AMODE sets and clears the slots it names, ACLR clears them and keeps their settings (R105, R146); no other slot changes. -/
def Obligations.SlotSettings : Prop :=
  ∀ (s : State) (u : EngRef) (q : QCmd) (k : CmdHdr), issues s u q →
    let v := pavAt s u.pav
    (∀ o : AmodeOps, q.cmd = ⟨k, .amode o⟩ → modeOk o = true → o.slot.toNat + o.n.toNat ≤ 1024 →
      ∀ w : Pavilion, w = (slotRange o.slot.toNat o.n.toNat).foldl (fun w j => setSlot w j (slotMode o.mode o.fmt o.sq o.b.toInt)) v →
      (w.slots.filter (fun t => t.2.wide)).length ≤ 32 →
      exec (.amode u {} k o) s = .next (issued (setPav s u.pav w) u q .notSent) ∧
      w = { v with slots := w.slots } ∧
      (∀ j, o.slot.toNat ≤ j → j < o.slot.toNat + o.n.toNat →
        slotAt w j = { wide := o.mode, fmt := some o.fmt, sq := o.sq, base := o.b.toInt }) ∧
      (∀ j, (j < o.slot.toNat ∨ o.slot.toNat + o.n.toNat ≤ j) → slotAt w j = slotAt v j)) ∧
    (∀ o : AclrOps, q.cmd = ⟨k, .aclr o⟩ → o.slot.toNat + o.n.toNat ≤ 1024 →
      ∃ w, exec (.aclr u {} k o) s = .next (issued (setPav s u.pav w) u q .notSent) ∧
        w = { v with slots := w.slots } ∧
        (∀ j, o.slot.toNat ≤ j → j < o.slot.toNat + o.n.toNat →
          slotAt w j = { wide := (slotAt v j).wide, fmt := (slotAt v j).fmt, sq := (slotAt v j).sq, base := (slotAt v j).base }) ∧
        (∀ j, (j < o.slot.toNat ∨ o.slot.toNat + o.n.toNat ≤ j) → slotAt w j = slotAt v j))

/-! ### Engines: exact accumulation, merging, the Lattice and moves (chapters 03 to 05) -/

/-- ADDD adds element i of its array to slot SLOT + i, ADDI each record to the slot that its index names, ACARRY each carry record to an
XA320 slot (R62, R63, R106, R107, R147); no other slot changes, and nothing else but the report of each contribution that a limit turned
away.

What a contribution does to a slot below 2^32 contributions: it is counted, a NaN or an infinity sets its flag, a value that is a
multiple of the least significant bit is added exactly, and any other escapes (R62, R63, R66, R67). A full slot takes nothing (R64). What
an XA320 slot holds when a sum leaves 320 bits is free (log entry 100). -/
def Obligations.Contributions : Prop :=
  (∀ (s : State) (u : EngRef) (q : QCmd) (k : CmdHdr), issues s u q →
     let v := pavAt s u.pav
     let after (w : Pavilion) (js : List Nat) := issued (reportLimits (setPav s u.pav w) (srcPav u.pav) (engPlot s u) js) u q .notSent
     (∀ o : AdddOps, q.cmd = ⟨k, .addd o⟩ →
       let f := o.fmt.toNat
       let n := o.n.toNat
       let a := advance k.laa o.src.toNat (fmtSize f n) q.iter
       let sa := advance k.laa (o.src.toNat + o.scoff.toNat) (n / 32) q.iter
       let ns := if fmtMx f then (n + 31) / 32 else 0
       fmtValid f = true → (fmtMx f = true → k.laa = true → n % 32 = 0) → o.slot.toNat + n ≤ 1024 →
       sramIn a (fmtSize f n) = true → sramIn sa ns = true →
       (∀ j, o.slot.toNat ≤ j → j < o.slot.toNat + n → (slotAt v j).fmt = some o.fmt ∧ (slotAt v j).sq = o.sq) →
       sramBads v [(a, fmtSize f n), (sa, ns)] = none →
       ∃ w, exec (.addd u {} k o) s = .next (after w ((slotRange o.slot.toNat n).filter (fun j => slotTurnsAway (slotAt v j) 1))) ∧
         w = { v with slots := w.slots } ∧
         (∀ i, i < n → slotAt w (o.slot.toNat + i) = slotAdd (slotAt v (o.slot.toNat + i))
           (decodeElem f ((sramRead v sa ns).getD (i / 32) 0).toNat (elemAt f (sramRead v a (fmtSize f n)) i))) ∧
         (∀ j, (j < o.slot.toNat ∨ o.slot.toNat + n ≤ j) → slotAt w j = slotAt v j)) ∧
     (∀ o : AddiOps, q.cmd = ⟨k, .addi o⟩ →
       let f := o.fmt.toNat
       let size := o.n.toNat * recordSize f false
       let a := advance k.laa o.src.toNat size q.iter
       let rs := readRecords v f a o.n.toNat
       let slotOf (r : MRec) := o.slot.toNat + r.index - o.ib.toNat * 1024
       fmtValid f = true → fmtMx f = false → sramIn a size = true → sramBad v a size = none →
       (∀ r ∈ rs, o.ib.toNat * 1024 ≤ o.slot.toNat + r.index ∧ slotOf r < 1024 ∧
         (slotAt v (slotOf r)).fmt = some o.fmt ∧ (slotAt v (slotOf r)).sq = o.sq) →
       ∃ w, exec (.addi u {} k o) s = .next (after w (addAll v (rs.map (fun r => (slotOf r, decodeElem f 0 r.val)))).2) ∧
         w = { v with slots := w.slots } ∧
         ∀ j, slotAt w j = (rs.filter (fun r => slotOf r == j)).foldl (fun t r => slotAdd t (decodeElem f 0 r.val)) (slotAt v j)) ∧
     (∀ o : AcarryOps, q.cmd = ⟨k, .acarry o⟩ →
       let a := advance k.laa o.src.toNat (o.n.toNat * 48) q.iter
       let cs := (List.range o.n.toNat).map (fun i => carryOf (leNat (sramRead v (a + 48 * i) 48)))
       let slotOf (c : Carry) := o.slot.toNat + c.index - o.ib.toNat * 1024
       sramIn a (o.n.toNat * 48) = true → sramBad v a (o.n.toNat * 48) = none →
       (∀ c ∈ cs, o.ib.toNat * 1024 ≤ o.slot.toNat + c.index ∧ slotOf c < 1024 ∧
         (slotAt v (slotOf c)).fmt = some (BitVec.ofNat 4 c.fmt) ∧ (slotAt v (slotOf c)).sq = false ∧ (slotAt v (slotOf c)).wide = false) →
       ∃ w, exec (.acarry u {} k o) s = .next (after w (carryAll v (cs.map (fun c => (slotOf c, c)))).2) ∧
         w = { v with slots := w.slots } ∧
         ∀ j, slotAt w j = (cs.filter (fun c => slotOf c == j)).foldl slotCarry (slotAt v j))) ∧
  (∀ (t : Slot) (x : Machine.Num),
     (2 ^ 32 ≤ t.count → slotAdd t x = { t with limit := true }) ∧
     (t.count < 2 ^ 32 →
       (slotAdd t x).count = t.count + 1 ∧ (slotAdd t x).wide = t.wide ∧ (slotAdd t x).fmt = t.fmt ∧ (slotAdd t x).base = t.base ∧
       (t.sq = false → x = .nan → slotAdd t x = { t with count := t.count + 1, nan := true }) ∧
       (∀ n, t.sq = false → x = .inf n →
         slotAdd t x = { t with count := t.count + 1, negInf := t.negInf || n, posInf := t.posInf || !n }) ∧
       (∀ n m e, t.sq = false → t.wide = false → x = .fin n m e → -149 ≤ e →
         (slotAdd t x).value =
           slotSum (t.value + (if n then -((m * 2 ^ (e + 149).toNat : Nat) : Int) else ((m * 2 ^ (e + 149).toNat : Nat) : Int))) ∧
         (slotAdd t x).allNegZero = (t.allNegZero && n && m == 0) ∧ (slotAdd t x).escapes = t.escapes) ∧
       (∀ n m e, t.sq = false → t.wide = true → x = .fin n m e → e < t.base → m % 2 ^ (t.base - e).toNat ≠ 0 →
         slotAdd t x = { t with count := t.count + 1, escapes := t.escapes + 1 }))) ∧
  (∀ v : Int, -(2 ^ 319) ≤ v → v < 2 ^ 319 → slotSum v = v)

/-- ADRAIN rounds its slots once each in ascending order, writes the elements, the scales and the summary, and clears the slots (R108);
nothing else changes but the report of an escape. -/
def Obligations.DrainRoundsAndClears : Prop :=
  ∀ (s : State) (u : EngRef) (q : QCmd) (k : CmdHdr) (o : AdrainOps), issues s u q → q.cmd = ⟨k, .adrain o⟩ →
    let v := pavAt s u.pav
    let f := o.ofmt.toNat
    let n := o.n.toNat
    let dst := advance k.laa o.dst.toNat (fmtSize f n) q.iter
    let ba := advance k.lab (o.dblk.toNat * 512) 512 q.iter
    let b := drainBlk (sramRead v ba 32)
    let ts := (slotRange o.slot.toNat n).map (slotAt v)
    v.badWords = [] → fmtValid f = true → (fmtInt f = true → ∀ t ∈ ts, ∀ g, t.fmt = some g → fmtInt g.toNat = true) →
    o.slot.toNat + n ≤ 1024 → sramIn ba 32 = true → b.rsvd = 0 → b.suma % 64 = 0 → sramIn b.suma 64 = true →
    sramIn dst (fmtSize f n) = true → sramIn b.sca (if fmtMx f then (n + 31) / 32 else 0) = true →
    let y0 : Summary := { tid := BitVec.ofNat 32 b.tid, step := plotStep s u, fmt := o.ofmt }
    let r := writeElems f o.rm.toNat (plotGen s u b.tid) b.ebase y0 (drainElems ts o.mean o.dsrc b.div)
    let y := drainMarks ts b.ebase r.1
    let s' := if y.escape = 0 then s
      else emit { s with ar := { s.ar with escapes := s.ar.escapes + 1 } } rkArithEscape (srcPav u.pav) (engPlot s u) []
    ∃ w, exec (.adrain u {} k o) s = .next (issued (setPav s' u.pav w) u q .notSent) ∧
      w = { v with sram := w.sram, slots := w.slots } ∧
      (∀ j, o.slot.toNat ≤ j → j < o.slot.toNat + n → slotAt w j = slotClear (slotAt v j)) ∧
      (∀ j, (j < o.slot.toNat ∨ o.slot.toNat + n ≤ j) → slotAt w j = slotAt v j) ∧
      (∀ i, (i < dst ∨ dst + r.2.1.length ≤ i) → (i < b.sca ∨ b.sca + r.2.2.length ≤ i) → (i < b.suma ∨ b.suma + 64 ≤ i) →
        memRead w.sram i = memRead v.sram i) ∧
      (Memory.wf v.sram = true → sramRead w b.suma 64 = summaryBytes y ∧
        ((dst + r.2.1.length ≤ b.sca ∨ b.sca + r.2.2.length ≤ dst) → (dst + r.2.1.length ≤ b.suma ∨ b.suma + 64 ≤ dst) →
          sramRead w dst r.2.1.length = r.2.1))

/-- MMERGE writes the merged records of its streams and their number, and leaves its streams consumed (R109, R114); an index merge of
ordered streams that keeps every record is ordered and loses none.

MSORT sorts its records in place and MTOPK also answers min(K, N) (R112, R113, Table 5.13); an index sort that keeps every
record is a permutation in order.

MFILT writes the records that pass its test, in input order, and their number (R113). With the range test a record passes when its
index lies in it. -/
def Obligations.MergeEngine : Prop :=
  (∀ (s : State) (u : EngRef) (q : QCmd) (k : CmdHdr) (o : MergeOps), issues s u q → q.cmd = ⟨k, .mmerge o⟩ →
     let v := pavAt s u.pav
     let f := o.vfmt.toNat
     let pb := advance k.laa o.pb.toNat 64 q.iter
     let b := mergeBlk (sramRead v pb 64)
     let tab := (List.range b.n).map (fun i => (numAt (sramRead v (b.src + 8 * i) 8) 0 4, numAt (sramRead v (b.src + 8 * i) 8) 4 4))
     let ins := tab.map (fun e => readRecords v f e.1 e.2)
     let ss := ins.map (markStream f o.key o.dir)
     let out := dupMode f o.key o.dup.toNat (mergeN f o.key o.dir (sumN (tab.map (·.2))) ss)
     let len := out.length * recordSize f (o.dup == 2)
     v.badWords = [] → fmtKey f = true → o.dup ≠ 3 → pb % 64 = 0 → sramIn pb 64 = true → b.rsvd = 0 → b.n ≤ 16 →
     sramIn b.src (8 * b.n) = true → (∀ e ∈ tab, sramIn e.1 (e.2 * recordSize f false) = true) → sramIn b.dst len = true →
     (∀ m ∈ ss, ∀ e ∈ m, e.2 = false) →
     ∃ w, exec (.mmerge u {} k o) s = .next (issued (setPav s u.pav w) u q .notSent) ∧
       w = { v with sram := w.sram, cursors := tab.map (·.2) } ∧
       (∀ i, (i < b.dst ∨ b.dst + len ≤ i) → (i < pb + 32 ∨ pb + 36 ≤ i) → memRead w.sram i = memRead v.sram i) ∧
       (Memory.wf v.sram = true → sramRead w (pb + 32) 4 = natLe 4 out.length ∧
         ((b.dst + len ≤ pb + 32 ∨ pb + 36 ≤ b.dst) →
           sramRead w b.dst len = out.flatMap (fun r => recordBytes f (o.dup == 2) r.1))) ∧
       (o.key = false → o.dir = false → o.dup = 0 →
         (out.map (·.1)).Perm ins.flatten ∧ (out.map (·.1)).Pairwise (fun a c => a.index ≤ c.index))) ∧
  (∀ (s : State) (u : EngRef) (q : QCmd) (k : CmdHdr) (o : MergeOps), issues s u q →
     let v := pavAt s u.pav
     let f := o.vfmt.toNat
     let pb := advance k.laa o.pb.toNat 64 q.iter
     let b := mergeBlk (sramRead v pb 64)
     let rs := sortedRecords v o b
     let len := rs.length * recordSize f (o.dup == 2)
     v.badWords = [] → fmtKey f = true → o.dup ≠ 3 → pb % 64 = 0 → sramIn pb 64 = true → b.rsvd = 0 → b.n ≤ 4096 →
     sramIn b.src (b.n * recordSize f false) = true → sramIn b.src len = true →
     let good (w : Pavilion) (outn : Nat) : Prop :=
       w = { v with sram := w.sram, sortBuf := w.sortBuf } ∧
       (∀ i, (i < b.src ∨ b.src + len ≤ i) → (i < pb + 32 ∨ pb + 36 ≤ i) → memRead w.sram i = memRead v.sram i) ∧
       (Memory.wf v.sram = true → sramRead w (pb + 32) 4 = natLe 4 outn ∧
         ((b.src + len ≤ pb + 32 ∨ pb + 36 ≤ b.src) → sramRead w b.src len = rs.flatMap (recordBytes f (o.dup == 2))))
     (q.cmd = ⟨k, .msort o⟩ →
       ∃ w, exec (.msort u {} k o) s = .next (issued (setPav s u.pav w) u q .notSent) ∧ good w rs.length) ∧
     (q.cmd = ⟨k, .mtopk o⟩ → b.k ≤ 4096 →
       ∃ w, exec (.mtopk u {} k o) s = .next (issued (setPav s u.pav w) u q .notSent) ∧ good w (min b.k b.n)) ∧
     (o.key = false → o.dup = 0 →
       rs.Perm (readRecords v f b.src b.n) ∧
       rs.Pairwise (fun a c => if o.dir then c.index ≤ a.index else a.index ≤ c.index))) ∧
  (∀ (s : State) (u : EngRef) (q : QCmd) (k : CmdHdr) (o : MergeOps), issues s u q → q.cmd = ⟨k, .mfilt o⟩ →
     let v := pavAt s u.pav
     let f := o.vfmt.toNat
     let pb := advance k.laa o.pb.toNat 64 q.iter
     let b := mergeBlk (sramRead v pb 64)
     let rs := (readRecords v f b.src b.n).filter (filterTest f o.fop.toNat o.key b)
     let len := rs.length * recordSize f false
     v.badWords = [] → fmtKey f = true → o.dup = 0 → o.fop ≠ 7 → pb % 64 = 0 → sramIn pb 64 = true → b.rsvd = 0 →
     sramIn b.src (b.n * recordSize f false) = true → sramIn b.dst len = true →
     ∃ w, exec (.mfilt u {} k o) s = .next (issued (setPav s u.pav w) u q .notSent) ∧
       w = { v with sram := w.sram } ∧
       (∀ i, (i < b.dst ∨ b.dst + len ≤ i) → (i < pb + 32 ∨ pb + 36 ≤ i) → memRead w.sram i = memRead v.sram i) ∧
       (Memory.wf v.sram = true → sramRead w (pb + 32) 4 = natLe 4 rs.length ∧
         ((b.dst + len ≤ pb + 32 ∨ pb + 36 ≤ b.dst) → sramRead w b.dst len = rs.flatMap (recordBytes f false))) ∧
       (o.fop = 6 → ∀ r, r ∈ rs ↔ r ∈ readRecords v f b.src b.n ∧ b.lo ≤ r.index ∧ r.index ≤ b.hi))

/-- LMM writes D = A × B + C row by row and its summary (R115, R149): each element starts from C or +0 and takes one exact block sum at a
time, rounded once a block (R87). With M or N zero it writes the summary alone (R149). -/
def Obligations.LatticeMultiply : Prop :=
  ∀ (s : State) (u : EngRef) (q : QCmd) (k : CmdHdr) (o : LmmOps), issues s u q → q.cmd = ⟨k, .lmm o⟩ →
    let v := pavAt s u.pav
    let pb := advance k.laa o.pb.toNat 64 q.iter
    let fa := o.afmt.toNat
    let fb := o.bfmt.toNat
    let sp := o.sp.toNat
    let b := latBlk (sramRead v pb 64)
    let kr := keptRows sp b.k
    let cb := (b.k + 31) / 32
    let ncode := if sp = 0 then 0 else (kr * b.n * spBits sp + 7) / 8
    let codes := sramRead v b.pcaddr ncode
    let size := if o.ob then 2 else 4
    let aAt (i kk : Nat) : Machine.Num := decodeElem fa (if fmtMx fa then (memRead v.sram (b.ascale + i * cb + kk / 32)).toNat else 0)
      (elemAt fa (sramRead v (b.aaddr + i * b.astr) (fmtSize fa b.k)) kk)
    let bAt (r j : Nat) : Machine.Num := decodeElem fb (if fmtMx fb then (memRead v.sram (b.bscale + j * cb + r / 32)).toNat else 0)
      (elemAt fb (sramRead v (b.baddr + r * b.bstr) (fmtSize fb b.n)) j)
    let cAt (i j : Nat) : Nat := if o.init then numAt (sramRead v (b.caddr + i * b.dstr + 4 * j) 4) 0 4 else 0
    let acc (i j : Nat) : Nat := latElem (kBlock fa) b.k (cAt i j) (aAt i) ((List.range kr).map (fun r => (denseK sp b.n codes r j, bAt r j)))
    v.badWords = [] → pairOk fa fb = true → pb % 64 = 0 → sramIn pb 64 = true → b.m ≤ 256 → b.n ≤ 64 → spOk sp fb b.k = true →
    sramIn b.suma 64 = true →
    (∀ i, i < b.m → sramIn (b.aaddr + i * b.astr) (fmtSize fa b.k) = true ∧ sramIn (b.daddr + i * b.dstr) (size * b.n) = true ∧
      (o.init = true → sramIn (b.caddr + i * b.dstr) (4 * b.n) = true)) →
    (∀ r, r < kr → sramIn (b.baddr + r * b.bstr) (fmtSize fb b.n) = true) → sramIn b.pcaddr ncode = true →
    (fmtMx fa = true → sramIn b.ascale (b.m * cb) = true) → (fmtMx fb = true → sramIn b.bscale (b.n * cb) = true) →
    ∃ w s', exec (.lmm u {} k o) s = .next (issued (setPav s' u.pav w) u q .notSent) ∧
      (s' = s ∨ ∃ args, s' = emit s rkLatticePcode (srcPav u.pav) (engPlot s u) args) ∧ (sp = 0 → s' = s) ∧
      w = { v with sram := w.sram, latAcc := w.latAcc, latStat := w.latStat, latFull := w.latFull } ∧
      (∀ a, (∀ i, i < b.m → a < b.daddr + i * b.dstr ∨ b.daddr + i * b.dstr + size * b.n ≤ a) → (a < b.suma ∨ b.suma + 64 ≤ a) →
        memRead w.sram a = memRead v.sram a) ∧
      ((b.m = 0 ∨ b.n = 0) → w = { v with sram := w.sram }) ∧
      (0 < b.m → 0 < b.n → w.latFull = true ∧
        (∀ i j, i < b.m → j < b.n → tblGet 0 w.latAcc (64 * i + j) = BitVec.ofNat 32 (acc i j)) ∧
        (Memory.wf v.sram = true → o.ob = false → 4 * b.n ≤ b.dstr →
          (∀ i, i < b.m → b.daddr + i * b.dstr + 4 * b.n ≤ b.suma ∨ b.suma + 64 ≤ b.daddr + i * b.dstr) →
          ∀ i j, i < b.m → j < b.n → sramRead w (b.daddr + i * b.dstr + 4 * j) 4 = natLe 4 (acc i j)))

/-- MCOPY between two places of its own data SRAM copies every row and changes no other byte; with LEN or ROWS 0 nothing moves; between
other places the rows it reads are what it writes (R119, R152).

MSIG puts one signal on its way to a counter of another pavilion of its plot, or to a trigger counter that the plot declares on a port
die of its own (R153, R120). -/
def Obligations.Moves : Prop :=
  (∀ (s : State) (u : EngRef) (q : QCmd) (k : CmdHdr) (mda : BitVec 22), issues s u q → q.cmd = ⟨k, .mcopy mda⟩ →
     let v := pavAt s u.pav
     let a := advance k.laa mda.toNat 32 q.iter
     let b := moveBlk (sramRead v a 32)
     v.badWords = [] → a % 32 = 0 → sramIn a 32 = true → b.rsvd = 0 → b.len ≤ 2 ^ 22 →
     (∀ x y n, addrWord b.src = .own x → addrWord b.dst = .own y → 0 < b.len → 0 < b.rows → engPlot s u = some n →
       (∀ r, r < b.rows → sramIn (x + r * b.sstr) b.len = true ∧ sramIn (y + r * b.dstr) b.len = true) →
       ∃ w, exec (.mcopy u {} k mda) s = .next (issued (setPav s u.pav w) u q .notSent) ∧
         w = { v with sram := w.sram } ∧
         (∀ i, (∀ r, r < b.rows → i < y + r * b.dstr ∨ y + r * b.dstr + b.len ≤ i) → memRead w.sram i = memRead v.sram i) ∧
         (Memory.wf v.sram = true → (b.rows = 1 ∨ b.len ≤ b.dstr) →
           (∀ r t, r < b.rows → t < b.rows → x + r * b.sstr + b.len ≤ y + t * b.dstr ∨ y + t * b.dstr + b.len ≤ x + r * b.sstr) →
           ∀ r, r < b.rows → sramRead w (y + r * b.dstr) b.len = sramRead v (x + r * b.sstr) b.len)) ∧
     (addrWord b.src ≠ .bad → addrWord b.dst ≠ .bad → ((∃ x, addrWord b.src = .own x) ∨ (∃ y, addrWord b.dst = .own y)) →
       (b.len = 0 ∨ b.rows = 0 → exec (.mcopy u {} k mda) s = .next (issued s u q .notSent)) ∧
       (∀ n ss ds data s', 0 < b.len → 0 < b.rows → engPlot s u = some n →
         moveSide s n u false (addrWord b.src) b.len b.rows b.sstr = .ok ss →
         moveSide s n u true (addrWord b.dst) b.len b.rows b.dstr = .ok ds →
         placeReads s (ss.map (fun p => (p, b.len))) = .ok data → placeWrites s (ds.zip data) = (s', none) →
         exec (.mcopy u {} k mda) s = .next (issued s' u q .notSent)))) ∧
  (∀ (s : State) (u : EngRef) (q : QCmd) (k : CmdHdr) (o : MsigOps) (n : Nat), issues s u q → q.cmd = ⟨k, .msig o⟩ →
     engPlot s u = some n → o.inc ≠ 0 →
     let id := (engAt s u).nsig + 1
     let sends (g : SigTarget) : State := { modEng s u (fun e => { e with nsig := id }) with sigs := s.sigs ++ [⟨.engine u, g, o.inc, id⟩] }
     (∀ p, o.kind = 0 → o.ctr.toNat ≤ 63 → o.die = 0 → pavOfRel s n o.pav.toNat = some p →
       exec (.msig u {} k o) s = .next (issued (sends (.pav p o.ctr.toNat)) u q .onTheWay)) ∧
     (o.kind = 1 → o.pav = 0 → (trigAt? s o.die.toNat n o.ctr.toNat).isSome = true → n ∈ plotsOfDie s o.die.toNat →
       exec (.msig u {} k o) s = .next (issued (sends (.die o.die.toNat n o.ctr.toNat)) u q .onTheWay)))

/-- A command that fails a check moves nothing, though its wait has been consumed (R131): its engine stops with the check's status, the check's record leaves, and its plot is held
for ENGINE (R154, R155, Table 5.19). An MSIG to a unit that its plot does not own is also a violation (Table 14.4).

A parity error met at issue marks the pavilion failed and stops the engine; its plot is held for PAVILION and ENGINE (Table 4.8, R155). The
reader is the oldest issued command whose entry it corrupted, with it go those issued later, or the head where no issued command is
concerned. -/
def Obligations.EngineFaults : Prop :=
  (∀ (s : State) (u : EngRef) (q : QCmd) (k : CmdHdr), issues s u q →
     (∀ o : SaluOps, q.cmd = ⟨k, .salu o⟩ → 0xA < o.op.toNat →
       ∃ t, exec (.salu u {} k o) s = .next t ∧ failedCheck (consumeWait s u k) t u k.tag stVerifyFail rkEngineMalformed) ∧
     (∀ o : AclrOps, q.cmd = ⟨k, .aclr o⟩ → 1024 < o.slot.toNat + o.n.toNat →
       ∃ t, exec (.aclr u {} k o) s = .next t ∧ failedCheck (consumeWait s u k) t u k.tag stVerifyFail rkEngineBounds) ∧
     (∀ o : TileMem, q.cmd = ⟨k, .tsum o⟩ →
       advance k.laa (scalar (pavAt s u.pav) o.sa.toNat + o.off.toNat) 64 q.iter % 64 ≠ 0 →
       ∃ t, exec (.tsum u {} k o) s = .next t ∧ failedCheck (consumeWait s u k) t u k.tag stVerifyFail rkEngineBounds) ∧
     (∀ (o : MsigOps) (n : Nat), q.cmd = ⟨k, .msig o⟩ → engPlot s u = some n → o.inc ≠ 0 → o.kind = 0 → o.ctr.toNat ≤ 63 → o.die = 0 →
       pavOfRel s n o.pav.toNat = none →
       ∃ t, exec (.msig u {} k o) s = .next t ∧ stoppedEng s t u k.tag stPlotViolation ∧ t.gate.violations = s.gate.violations + 1 ∧
         t.sigs = s.sigs ∧
         plotAt t n = { plotAt s n with pendHold := setBit (setBit (plotAt s n).pendHold hcIsolation true) hcEngine true } ∧
         t.tele = collectTele { (emit s rkPlotViolation (srcPav u.pav) (some n) []).tele with
           contained := s.tele.contained + 1 })) ∧
  (∀ (s : State) (u : EngRef) (q : QCmd) (k : CmdHdr) (op : EngOp) (x : Upset) (n : Nat),
     (engAt s u).queue.head? = some q → headReady s u q = true → q.cmd = ⟨k, op⟩ → x.parity = true → engPlot s u = some n →
     let hit (tag : BitVec 16) (left : List Flight) : Prop := ∃ t, exec (cmdRow u x k op) s = .next t ∧
       engAt t u = { engAt s u with
         mode := .fault, faultWord := faultWordOf (engAt s u) tag stOk, stepsLeft := none, passBreak := false, inflight := left } ∧
       t.failedMap = setBit s.failedMap u.pav true ∧
       plotAt t n = { plotAt s n with pendHold := setBit (setBit (plotAt s n).pendHold hcPavilion true) hcEngine true } ∧
       (∀ j, j ≠ n → plotAt t j = plotAt s j) ∧
       t.tele = collectTele { (emit s rkQueueParity (srcPav u.pav) (some n) []).tele with contained := s.tele.contained + 1 } ∧
       t = { s with pavs := t.pavs, plots := t.plots, failedMap := t.failedMap, tele := t.tele }
     (x.issued = none → hit k.tag (engAt s u).inflight) ∧
     (∀ i f, x.issued = some i → (engAt s u).inflight[i]? = some f → hit f.cmd.hdr.tag ((engAt s u).inflight.take i)))

/-! ### Engines: fetch, completion and signals (chapters 05 to 07) -/

/-- A fetch puts the command at the fetch index into the queue with the iteration of its innermost loop and moves on; LOOP opens a loop,
ENDLOOP goes back or closes it, HALT is the last one fetched (R133, R136, R138, R140). A word that is no well-formed command ends an engine
whose queue is empty (R129, R155), as do a fifth open LOOP and an ENDLOOP with no LOOP; a LOOP of 0 repetitions is skipped with its body. -/
def Obligations.FetchAppends : Prop :=
  ∀ (s : State) (u : EngRef) (w : BitVec 128),
    let e := engAt s u
    let iter := match e.loops with
      | l :: _ => l.i
      | [] => 0
    let after (e' : Engine) : State := settle (match e.queue, engPlot s u with
      | [], some n => moved (setEng s u e') n
      | _, _ => setEng s u e')
    engAlive e = true → e.queue.length < 512 →
    (∀ q ∈ e.queue, q.cmd.op ≠ .halt) → (∀ f ∈ e.inflight, f.cmd.op ≠ .halt) → (activeBank e)[e.fetchPc]? = some w →
    (∀ c, decodeCmd u.eng w = some c →
      let e1 : Engine := { e with queue := e.queue ++ [QCmd.mk c iter] }
      ((∀ o, c.op ≠ .loop o) → c.op ≠ .endloop → c.op ≠ .halt →
        exec (.commandFetch u {}) s = .next (after { e1 with fetchPc := e.fetchPc + 1 })) ∧
      (c.op = .halt → exec (.commandFetch u {}) s = .next (after { e1 with fetchPc := 4096 })) ∧
      (∀ o n, c.op = .loop o → e.loops.length < 4 → 0 < n →
        (o.cs = false ∧ n = o.count.toNat ∨
          o.cs = true ∧ n = (tblGet 0 (pavAt s u.pav).scalars o.sn.toNat).toNat ∧
            (∀ q ∈ e.queue, writesScalar o.sn q.cmd.op = false) ∧ (∀ f ∈ e.inflight, writesScalar o.sn f.cmd.op = false)) →
        exec (.commandFetch u {}) s =
          .next (after { e1 with fetchPc := e.fetchPc + 1, loops := ⟨e.fetchPc + 1, n, 0⟩ :: e.loops })) ∧
      (∀ o, c.op = .loop o → e.loops.length < 4 →
        (o.cs = false ∧ o.count = 0 ∨
          o.cs = true ∧ tblGet 0 (pavAt s u.pav).scalars o.sn.toNat = 0 ∧
            (∀ q ∈ e.queue, writesScalar o.sn q.cmd.op = false) ∧ (∀ f ∈ e.inflight, writesScalar o.sn f.cmd.op = false)) →
        exec (.commandFetch u {}) s = .next (after { e1 with fetchPc := skipLoop (activeBank e) 4096 (e.fetchPc + 1) 0 })) ∧
      ((∃ o, c.op = .loop o ∧ 4 ≤ e.loops.length) ∨ (c.op = .endloop ∧ e.loops = []) → e.queue = [] →
        ∃ t, exec (.commandFetch u {}) s = .next t ∧ failedCheck s t u c.hdr.tag stVerifyFail rkEngineMalformed) ∧
      (∀ l ls, c.op = .endloop → e.loops = l :: ls →
        exec (.commandFetch u {}) s = .next (after (if l.i + 1 < l.count
          then { e1 with fetchPc := l.start, loops := ⟨l.start, l.count, l.i + 1⟩ :: ls }
          else { e1 with fetchPc := e.fetchPc + 1, loops := ls })))) ∧
    (decodeCmd u.eng w = none → e.queue = [] →
      ∃ t, exec (.commandFetch u {}) s = .next t ∧ failedCheck s t u (w.extractLsb' 100 16) stVerifyFail rkEngineMalformed)

/-- A head whose wait has not held for 16 cycles is clock-gated (R179), and an armed breakpoint met at the head freezes the engine with
BREAK_HIT (R169, R170); nothing else changes.

The oldest command in flight retires; with S its SINC is added to its counter, clamped at 0xFFFF with CTR_SATURATED (R176), or dropped at a
poisoned one (R183); a HALT ends the stream (R132, R133, R140). A remote signal that was dropped ends the engine with POISONED and discards what it had issued (R155, R183). -/
def Obligations.CommandEvents : Prop :=
  (∀ (s : State) (u : EngRef) (q : QCmd), (engAt s u).queue.head? = some q →
     (engAlive (engAt s u) = true → (engAt s u).mode ≠ .frozen → headWait s u q.cmd.hdr = false →
       exec (.headClockGate u) s = .next (settle (modEng s u (fun e => { e with mode := .gated })))) ∧
     (engAlive (engAt s u) = false ∨ (engAt s u).mode = .frozen ∨ headWait s u q.cmd.hdr = true →
       exec (.headClockGate u) s = .next (settle s)) ∧
     (engAlive (engAt s u) = true → (engAt s u).mode ≠ .frozen → breakMet (engAt s u) q = true → (engAt s u).passBreak = false →
       (engAt s u).stepsLeft = none →
       exec (.breakHit u) s = .next (settle (emit
         (match engPlot s u with
           | some n => moved (modEng s u (fun e => { e with mode := .frozen })) n
           | none => modEng s u (fun e => { e with mode := .frozen }))
         rkBreakHit (srcPav u.pav) (engPlot s u) [(4, u.eng), (16, q.cmd.hdr.tag.toNat), (64, (engAt s u).retired.toNat)]))) ∧
     (breakMet (engAt s u) q = false ∨ (engAt s u).passBreak = true ∨ (engAt s u).stepsLeft ≠ none →
       exec (.breakHit u) s = .next (settle s))) ∧
  (∀ (s : State) (u : EngRef) (f : Flight) (rest : List Flight), (engAt s u).inflight = f :: rest → flightReady s u f = true →
     let k := f.cmd.hdr
     let e := engAt s u
     let seen (x : State) : State := match engPlot s u with
       | some n => moved x n
       | none => x
     let s0 := setEng s u { e with inflight := rest, retired := e.retired + 1 }
     let s1 := if transfers f.cmd then seen s0 else s0
     let fin (x : State) : Host.Outcome State Fault Refusal :=
       .next (settle (if f.cmd.op = .halt then modEng x u (fun e => { e with halted := true, mode := .idle }) else x))
     let st := if f.sig = .saturated then stCtrSaturated else stOk
     let i := u.pav
     let j := k.sctr.toNat
     let c := ctrAt s i j
     (f.sig ≠ .dropped → k.s = false → exec (.commandComplete u) s = fin (traceCmd s1 u f.cmd st)) ∧
     (f.sig ≠ .dropped → k.s = true → c.poison = false → c.value.toNat + k.sinc.toNat ≤ 0xFFFF →
       exec (.commandComplete u) s =
         fin (traceCmd (seen (setCtr s1 i j { c with value := BitVec.ofNat 16 (c.value.toNat + k.sinc.toNat) })) u f.cmd st)) ∧
     (∀ n, f.sig ≠ .dropped → k.s = true → c.poison = false → 0xFFFF < c.value.toNat + k.sinc.toNat → engPlot s u = some n →
       exec (.commandComplete u) s = fin (traceCmd
         (ctrClamped (modPav (moved (setCtr s1 i j { c with value := 0xFFFF, ovf := true }) n) i
           (fun v => { v with limited := addNew v.limited j })) n (srcPav i) (!(pavAt s i).limited.contains j) j true ⟨0, u.eng⟩ 1)
         u f.cmd stCtrSaturated)) ∧
     (∀ n, f.sig ≠ .dropped → k.s = true → c.poison = true → engPlot s u = some n →
       exec (.commandComplete u) s = fin (traceCmd
         (emit (modPlot s1 n (fun p => { p with dropped := p.dropped + 1 })) rkPoisonDrop (srcPav i) (some n) [(4, 0), (16, u.eng)])
         u f.cmd st)) ∧
     (f.sig = .dropped →
       ∃ t, exec (.commandComplete u) s = .next t ∧
         (engAt t u).mode = .fault ∧ (engAt t u).inflight = [] ∧ (engAt t u).retired = e.retired ∧
         (engAt t u).faultWord = faultWordOf e k.tag stPoisoned ∧
         (∀ i, (pavAt t i).ctrs = (pavAt s i).ctrs) ∧
         (∀ n, plotAt t n = if engPlot s u = some n then { plotAt s n with pendHold := setBit (plotAt s n).pendHold hcEngine true }
           else plotAt s n)))

/-- A total is added to a counter and clamped once: at or below 0xFFFF it is the new value, above it the counter reads 0xFFFF with OVF,
below 0 it reads 0 with UNF (R176). -/
def Obligations.CounterAddsOnce : Prop :=
  ∀ (c : Counter) (d : Int),
    (0 ≤ c.value.toNat + d → c.value.toNat + d ≤ 0xFFFF → ctrAdd c d = ({ c with value := BitVec.ofInt 16 (c.value.toNat + d) }, none)) ∧
    (0xFFFF < c.value.toNat + d → ctrAdd c d = ({ c with value := 0xFFFF, ovf := true }, some true)) ∧
    (c.value.toNat + d < 0 → ctrAdd c d = ({ c with value := 0, unf := true }, some false))

/-- The signals of one cycle reach a counter as one total, clamped once (R176); at a poisoned counter they are dropped and counted (R183);
nothing that was on its way to another counter changes. -/
def Obligations.RemoteSignalsArrive : Prop :=
  ∀ (s : State) (g : SigTarget) (senders : List (SigSource × BitVec 4)),
    let got := (takeSigs g s.sigs senders).2
    let total := sumN (got.map (fun x => x.inc.toNat))
    let sum (c : Counter) : Counter := if c.value.toNat + total ≤ 0xFFFF
      then { c with value := BitVec.ofNat 16 (c.value.toNat + total) } else { c with value := 0xFFFF, ovf := true }
    (got = [] → exec (.remoteSignalArrival g senders {}) s = .next (settle s)) ∧
    (got ≠ [] →
      ∃ t, exec (.remoteSignalArrival g senders {}) s = .next t ∧ t.sigs = (takeSigs g s.sigs senders).1 ∧
        (∀ p c, g = .pav p c →
          ctrAt t p c = (if (ctrAt s p c).poison then ctrAt s p c else sum (ctrAt s p c)) ∧
          (∀ i j, (i ≠ p ∨ j ≠ c) → ctrAt t i j = ctrAt s i j) ∧
          (∀ n, plotOfPav s p = some n → (plotAt t n).dropped = (plotAt s n).dropped +
            (if (ctrAt s p c).poison then BitVec.ofNat 64 got.length else 0))) ∧
        (∀ j n c x, g = .die j n c → trigAt? s j n c = some x →
          trigAt? t j n c = some { x with ctr := if x.ctr.poison then x.ctr else sum x.ctr } ∧
          (∀ i m d, (i ≠ j ∨ m ≠ n ∨ d ≠ c) → trigAt? t i m d = trigAt? s i m d) ∧
          (plotAt t n).dropped = (plotAt s n).dropped + (if x.ctr.poison then BitVec.ofNat 64 got.length else 0)) ∧
        (∀ u, (engAt t u).queue = (engAt s u).queue ∧ (engAt t u).mode = (engAt s u).mode))

/-- The counter commands and the resume of a frozen engine act on the unit that their session selects, when the session may act on it, and
are refused with their status otherwise (R171, R173, R177, R193). -/
def Obligations.SelectedUnitCommands : Prop :=
  ∀ (s : State) (q : KReq),
    let x := sessAt s q.slot
    let i := field x.engSel 0 8
    let c := x.ctrSel.toNat
    let k := ctrAt s i c
    let u : EngRef := ⟨i, field x.engSel 8 4⟩
    (admits s q 0x5000 0x12 true → ∀ v : BitVec 32,
      (ownsPav s x i = false → notOk s (.counterAdjust q v) q stKioskAccess) ∧
      (ownsPav s x i = true → 65535 < v.toInt.natAbs → notOk s (.counterAdjust q v) q stKioskRange) ∧
      (ownsPav s x i = true → v.toInt.natAbs ≤ 65535 → k.poison = true → notOk s (.counterAdjust q v) q stKioskState) ∧
      (ownsPav s x i = true → v.toInt.natAbs ≤ 65535 → k.poison = false → 0 ≤ k.value.toNat + v.toInt → k.value.toNat + v.toInt ≤ 0xFFFF →
        okWith s (.counterAdjust q v) q (setCtr s i c { k with value := BitVec.ofInt 16 (k.value.toNat + v.toInt) })) ∧
      (ownsPav s x i = true → v.toInt.natAbs ≤ 65535 → k.poison = false → 0xFFFF < k.value.toNat + v.toInt → plotOfPav s i = none →
        okWith s (.counterAdjust q v) q (setCtr s i c { k with value := 0xFFFF, ovf := true })) ∧
      (ownsPav s x i = true → v.toInt.natAbs ≤ 65535 → k.poison = false → k.value.toNat + v.toInt < 0 → plotOfPav s i = none →
        okWith s (.counterAdjust q v) q (setCtr s i c { k with value := 0, unf := true })) ∧
      (∀ n, ownsPav s x i = true → v.toInt.natAbs ≤ 65535 → k.poison = false → 0xFFFF < k.value.toNat + v.toInt → plotOfPav s i = some n →
        okWith s (.counterAdjust q v) q (ctrClamped (modPav (setCtr s i c { k with value := 0xFFFF, ovf := true }) i
          (fun v => { v with limited := addNew v.limited c })) n (srcPav i) (!(pavAt s i).limited.contains c) c true ⟨3, 0⟩ 1))) ∧
    (admits s q 0x5000 0x13 true → ∀ v : BitVec 8,
      (ownsPav s x i = false → notOk s (.counterFlagClear q v) q stKioskAccess) ∧
      (ownsPav s x i = true → 3 < v.toNat → notOk s (.counterFlagClear q v) q stKioskRange) ∧
      (ownsPav s x i = true → v.toNat ≤ 3 → okWith s (.counterFlagClear q v) q
        (setCtr s i c { k with ovf := k.ovf && !v.getLsbD 0, unf := k.unf && !v.getLsbD 1 }))) ∧
    (admits s q 0x5000 0x05 true → ∀ n : BitVec 16,
      (ownsPav s x i = false → notOk s (.engineResume q n) q stKioskAccess) ∧
      (ownsPav s x i = true → (engAt s u).mode ≠ .frozen → notOk s (.engineResume q n) q stKioskState) ∧
      (ownsPav s x i = true → (engAt s u).mode = .frozen →
        let w := modEng s u (fun e => { e with mode := .running, passBreak := decide (n = 0), stepsLeft := if n = 0 then none else some n.toNat })
        okWith s (.engineResume q n) q (match plotOfPav s i with
          | some p => moved w p
          | none => w)))

/-- A wait cycle is recorded, reported and holds its plot after 256 qualifying frames (R184, R185); a plot reset ends at the tick after
its first, with RESET_DONE (R182, R405; the record's kind is the model's number, log entry 86); a quarter under power-up is then powered (R124). None of the three happens without its condition. -/
def Obligations.PlotEvents : Prop :=
  ∀ (s : State) (n core quarter : Nat),
    (256 ≤ (plotAt s n).quiet → plotRuns s n = true →
      exec (.waitCycle n) s = .next (settle (raiseHold (modPlot (emit s rkWaitCycle srcModule (some n) []) n
        (fun p => { p with waitReport := waitHeads s n ++ waitDescs s n, quiet := 0 })) n hcWaitCycle))) ∧
    ((plotAt s n).quiet < 256 ∨ plotRuns s n = false → exec (.waitCycle n) s = .next (settle s)) ∧
    ((plotAt s n).state = 4 → (plotAt s n).resetTick.toNat < s.sd.ticks.toNat →
      ∃ t, exec (.plotResetComplete n) s = .next t ∧
        t = { s with pavs := t.pavs, plots := t.plots, tele := told s rkResetDone srcModule (some n) [(8, 0)] } ∧
        plotAt t n = { plotAt s n with state := 0 } ∧ (∀ k, k ≠ n → plotAt t k = plotAt s k) ∧
        (∀ i, i ∉ pavsOfPlot s n → pavAt t i = pavAt s i) ∧
        (∀ i, i ∈ pavsOfPlot s n → (pavAt t i).sram = (pavAt s i).sram ∧ (pavAt t i).ctrs = (pavAt s i).ctrs ∧ (pavAt t i).vl = 512 ∧
          (pavAt t i).tiles = [] ∧ (pavAt t i).slots = [] ∧ (pavAt t i).latFull = false ∧
          ∀ e, e < 6 → engAt t ⟨i, e⟩ = engIdle (engAt s ⟨i, e⟩))) ∧
    ((plotAt s n).state ≠ 4 ∨ s.sd.ticks.toNat ≤ (plotAt s n).resetTick.toNat → exec (.plotResetComplete n) s = .next (settle s)) ∧
    (s.powering.getLsbD (4 * core + quarter) = true →
      exec (.quarterPowerUp core quarter) s = .next { s with
        powering := setBit s.powering (4 * core + quarter) false, powered := setBit s.powered (4 * core + quarter) true, tele := quiet s }) ∧
    (s.powering.getLsbD (4 * core + quarter) = false → exec (.quarterPowerUp core quarter) s = .next (settle s))

/-- The buffer pool manager gives out the free buffer with the lowest index under a new generation, counts references up and down, and
refuses with the status, count and last error of R190 and R193; a request for another plot's pool is a violation (Table 14.4). An
uncorrected error in the manager's state is uncontained, and the request is not served (R367).

BUFFER_ACQUIRE and BUFFER_RELEASE of the Kiosk do what the pool manager does, for a session that may act on the pool's plot (R191,
R193). -/
def Obligations.BufferPools : Prop :=
  (∀ (s : State) (r : PoolReq) (id : Nat) (p : Pool) (h : BitVec 32), poolAt? s id = some p → hPool h = id →
     let b := bufAt p (hIdx h)
     let put (p' : Pool) (o : Out) (te : Tele) : Host.Outcome State Fault Refusal :=
       .next { s with pools := tblSet s.pools id p', out := s.out ++ [o], tele := te }
     let err (st : U16) (h' : U32) : BitVec 64 := BitVec.ofNat 64 (st.toNat * 2 ^ 32 + h'.toNat)
     let src := srcHub (id % 4)
     (r.upset = true → ∀ c ∈ [Instr.poolAlloc r id, .poolAcquire r h, .poolRelease r h],
       exec c s = .next (settle (uncontained (emit s rkHubUncorrected src none [])))) ∧
     (r.upset = false → p.plot = r.plot →
       (∀ i, i < p.count → (bufAt p i).ref = 0 → (∀ j, j < i → (bufAt p j).ref ≠ 0) →
         let p' := { p with bufs := tblSet p.bufs i { ref := 1, gen := (bufAt p i).gen + 1 } }
         exec (.poolAlloc r id) s = put { p' with high := max p.high (heldCount p') } (.pool r stOk (mkHandle id i ((bufAt p i).gen + 1))) (quiet s)) ∧
       ((∀ i, i < p.count → (bufAt p i).ref ≠ 0) →
         exec (.poolAlloc r id) s = put { p with lastError := err stPoolEmpty 0, nEmpty := p.nEmpty + 1 } (.pool r stPoolEmpty 0)
           (told s rkPoolEmpty src (some p.plot) [])) ∧
       (handleValid p h = true → 0 < b.ref → b.ref ≠ 255 →
         exec (.poolAcquire r h) s = put { p with bufs := tblSet p.bufs (hIdx h) { b with ref := b.ref + 1 } } (.pool r stOk h) (quiet s)) ∧
       (handleValid p h = true → b.ref = 255 →
         exec (.poolAcquire r h) s = put { p with lastError := err stRefcountLimit h, nLimit := p.nLimit + 1 } (.pool r stRefcountLimit h)
           (told s rkRefcountLimit src (some p.plot) [(32, h.toNat)])) ∧
       (handleValid p h = false ∨ b.ref = 0 →
         exec (.poolAcquire r h) s = put { p with lastError := err stHandleInvalid h, nInvalid := p.nInvalid + 1 } (.pool r stHandleInvalid h)
           (told s rkHandleInvalid src (some p.plot) [(32, h.toNat)])) ∧
       (handleValid p h = true → 0 < b.ref →
         exec (.poolRelease r h) s = put { p with bufs := tblSet p.bufs (hIdx h) { b with ref := b.ref - 1 } } (.pool r stOk h) (quiet s)) ∧
       (handleValid p h = true → b.ref = 0 →
         exec (.poolRelease r h) s = put { p with lastError := err stDoubleFree h, nDouble := p.nDouble + 1 } (.pool r stDoubleFree h)
           (told s rkDoubleFree src (some p.plot) [(32, h.toNat)]))) ∧
     (r.upset = false → p.plot ≠ r.plot →
       ∀ c ∈ [Instr.poolAlloc r id, .poolAcquire r h, .poolRelease r h],
         ∃ t, exec c s = .next t ∧ t.pools = s.pools ∧ t.gate = { s.gate with violations := s.gate.violations + 1 } ∧
           (∃ h', t.out = s.out ++ [.pool r stPlotViolation h']) ∧
           (∀ k, plotAt t k = if k = r.plot then { plotAt s k with pendHold := setBit (plotAt s k).pendHold hcIsolation true } else plotAt s k))) ∧
  (∀ (s : State) (q : KReq) (p : Pool) (h : BitVec 32), admits s q 0x6900 0x0C true → poolAt? s (hPool h) = some p →
     let x := sessAt s q.slot
     let b := bufAt p (hIdx h)
     (x.role = .po → p.plot ≠ x.plot → notOk s (.bufferAcquire q h) q stKioskAccess ∧ notOk s (.bufferRelease q h) q stKioskAccess) ∧
     (x.role ≠ .po ∨ p.plot = x.plot → handleValid p h = true → 0 < b.ref →
       (b.ref ≠ 255 → okWith s (.bufferAcquire q h) q
         (setPool s (hPool h) { p with bufs := tblSet p.bufs (hIdx h) { b with ref := b.ref + 1 } })) ∧
       okWith s (.bufferRelease q h) q (setPool s (hPool h) { p with bufs := tblSet p.bufs (hIdx h) { b with ref := b.ref - 1 } })))

/-! ### Loading, activation and self-test (chapter 06) -/

/-- LOAD, ACTIVATE and CANCEL move the load state as R158, R159, R165 and R166 lay down, and are refused with LOAD_PENDING or KIOSK_STATE
where they do not apply.

The end of a verification puts the image and its streams into the shadow banks and clears the load result, or refuses the load with its
result word and restores the load state (R157, R158, R160); the active banks stay. It waits for a period write that waits for its snapshot
(R41; log entry 114).

An activation is one act: every engine of the plot switches banks and starts its program at index 0, every counter takes its declared
value or 0 with no flag, the start frame is this tick, and a configured plot is loaded (R165, R177); pavilions of other plots stay. -/
def Obligations.LoadAndActivation : Prop :=
  (∀ (s : State) (q : KReq) (n : Nat), admits s q (0x4000 + n) 0x0A true →
     let p := plotAt s n
     (p.loadState = 1 ∨ p.loadState = 3 → notOk s (.load q n) q stLoadPending ∧ notOk s (.activate q n) q stLoadPending) ∧
     (p.loadState ≠ 1 → p.loadState ≠ 3 →
       okWith s (.load q n) q (modPlot s n (fun p => { p with loadBack := p.loadState, loadState := 1, loading := p.imageObj })) ∧
       (p.shadow = none ∨ p.loadState ≠ 2 → notOk s (.activate q n) q stKioskState) ∧
       (∀ img, p.shadow = some img → p.loadState = 2 →
         (s.gate.entropyFailed = true → p.sprayHeld = false → notOk s (.activate q n) q stKioskState) ∧
         ((s.gate.entropyFailed = false ∨ p.sprayHeld = true) → (p.shadowDirty = false ∨ verifyShadow s n img = none) →
           okWith s (.activate q n) q (modPlot s n (fun p => { p with loadState := 3, actTicks := 0, shadowDirty := false }))) ∧
         (∀ r, (s.gate.entropyFailed = false ∨ p.sprayHeld = true) → p.shadowDirty = true → verifyShadow s n img = some r → r.status ≠ stOk →
           ∃ t, exec (.activate q n) s = .next t ∧ refused (refuseLoad s n r 2) q r.status t))) ∧
     (p.loadState = 1 → notOk s (.cancel q n) q stLoadPending) ∧
     (p.loadState = 0 ∨ p.loadState = 4 → notOk s (.cancel q n) q stKioskState) ∧
     (p.loadState = 3 → okWith s (.cancel q n) q (modPlot s n (fun p => { p with loadState := 2 }))) ∧
     (p.loadState = 2 → okWith s (.cancel q n) q (modPlot (clearShadow s n) n
       (fun p => { p with shadow := none, shadowDirty := false, loadState := if p.image.isSome then 4 else 0 })))) ∧
  (∀ (s : State) (n : Nat),
     ((plotAt s n).loadState ≠ 1 → exec (.verificationComplete n) s = .next (settle s)) ∧
     (periodPending s = true → exec (.verificationComplete n) s = .next (settle s)) ∧
     (∀ r, (plotAt s n).loadState = 1 → periodPending s = false → verifyImage s n (plotAt s n).loading = .error r →
       exec (.verificationComplete n) s = .next { s with
         plots := tblSet s.plots n { plotAt s n with loadResult := resultWord r, loadState := (plotAt s n).loadBack, loading := [] }
         tele := told s rkLoadRefused srcMgmt (some n) [(64, (resultWord r).toNat)] }) ∧
     (∀ img, (plotAt s n).loadState = 1 → periodPending s = false → verifyImage s n (plotAt s n).loading = .ok img →
       ∃ t, exec (.verificationComplete n) s = .next t ∧ t = { s with pavs := t.pavs, plots := t.plots, tele := quiet s } ∧
         plotAt t n = { plotAt s n with shadow := some img, shadowDirty := false, loadState := 2, loadResult := 0, loading := [] } ∧
         (∀ k, k ≠ n → plotAt t k = plotAt s k) ∧
         (∀ i, pavAt t i = { pavAt s i with engines := (pavAt t i).engines }) ∧
         (∀ i e, (i ∉ pavsOfPlot s n ∨ 6 ≤ e) → engAt t ⟨i, e⟩ = engAt s ⟨i, e⟩) ∧
         (∀ i e, i ∈ pavsOfPlot s n → e < 6 →
           activeBank (engAt t ⟨i, e⟩) = activeBank (engAt s ⟨i, e⟩) ∧
           (∀ ws, (relOfPav s n i, e, ws) ∈ img.streams → (∀ ws', (relOfPav s n i, e, ws') ∈ img.streams → ws' = ws) →
             shadowBank (engAt t ⟨i, e⟩) = ws) ∧
           ((∀ ws, (relOfPav s n i, e, ws) ∉ img.streams) → shadowBank (engAt t ⟨i, e⟩) = [])))) ∧
  (∀ (s : State) (n : Nat) (img : Image), (plotAt s n).shadow = some img →
     ((plotAt s n).loadState = 3 → mayActivate s n = true → (s.gate.entropyFailed = false ∨ (plotAt s n).sprayHeld = true) →
       ∃ t, exec (.activation n) s = .next t ∧
         (plotAt t n).image = some img ∧ (plotAt t n).shadow = none ∧ (plotAt t n).loadState = 4 ∧
         (plotAt t n).state = (if (plotAt s n).state = 0 then 1 else (plotAt s n).state) ∧ (plotAt t n).startFrame = s.sd.ticks ∧
         (plotAt t n).dropped = 0 ∧ (plotAt t n).ctrLimits = 0 ∧ (plotAt t n).sprayHeld = true ∧
         (plotAt t n).pavMask = (plotAt s n).pavMask ∧ (plotAt t n).portMask = (plotAt s n).portMask ∧ (plotAt t n).region = (plotAt s n).region ∧
         (∀ i e, i ∈ pavsOfPlot s n → e < 6 → engAt t ⟨i, e⟩ = switchBank (engAt s ⟨i, e⟩)) ∧
         (∀ i c, i ∈ pavsOfPlot s n → c < 64 → ∃ v, ctrAt t i c = { value := v, ovf := false, unf := false, poison := false } ∧
           ((∀ ds, (relOfPav s n i, ds) ∈ img.ctrs → ∀ d ∈ ds, d.ctr ≠ c) → v = 0)) ∧
         (∀ i, i ∉ pavsOfPlot s n → pavAt t i = pavAt s i)) ∧
     ((plotAt s n).loadState ≠ 3 ∨ mayActivate s n = false ∨ (s.gate.entropyFailed = true ∧ (plotAt s n).sprayHeld = false) →
       exec (.activation n) s = .next (settle s))) ∧
  (∀ (s : State) (n : Nat), ((plotAt s n).shadow = none → exec (.activation n) s = .next (settle s)) ∧
     ((plotAt s n).loadState = 3 → 1024 ≤ (plotAt s n).actTicks →
       mayActivate s n = false ∨ (s.gate.entropyFailed = true ∧ (plotAt s n).sprayHeld = false) →
       let b := (blockers s n).headD (0, 0, 0)
       exec (.loadBlocked n) s = .next { s with
         plots := tblSet s.plots n { plotAt s n with loadState := 2, loadResult := BitVec.setWidth 64 stLoadBlocked }
         tele := told s rkLoadBlocked srcMgmt (some n) [(16, (blockers s n).length), (8, b.1), (4, b.2.1), (16, b.2.2.toNat)] }) ∧
     ((plotAt s n).loadState ≠ 3 ∨ (plotAt s n).actTicks < 1024 → exec (.loadBlocked n) s = .next (settle s)))

/-- A bank write puts commands into the shadow bank of the selected engine and makes the shadow image of its plot altered (R163, R165);
one that addresses the active bank is refused with its record before every other test, and changes nothing. -/
def Obligations.BankWrites : Prop :=
  ∀ (s : State) (q : KReq) (d : DomSeg) (all : List Byte), admits s q 0x5000 0x0B false → wholeValue s q 0x5000 0x0B 65540 d all →
    let x := sessAt s q.slot
    let u : EngRef := ⟨field x.engSel 0 8, field x.engSel 8 4⟩
    let e := engAt s u
    let active : Prop := ∃ b, all.head? = some b ∧ b.toNat = (if e.active then 1 else 0)
    let first := numAt all 2 2
    let ws := cmdsOfBytes (all.drop 4)
    let new := putWords (shadowBank e) first ws
    let w := setEng s u (if e.active then { e with bank0 := new } else { e with bank1 := new })
    let formed : Prop := (all.headD 0).toNat ≤ 1 ∧ 4 ≤ all.length ∧ all.length % 16 = 4 ∧ all.getD 1 0 = 0 ∧ first + ws.length ≤ 4096
    (active → ∃ t, exec (.bankWrite q d) s = .next t ∧
      refused (emit s rkActiveBankWrite (srcPav u.pav) (plotOfPav s u.pav) [(4, u.eng)]) q stLoadActiveBank t) ∧
    (¬ active → ownsPav s x u.pav = false → domNotOk s (.bankWrite q d) q stKioskAccess) ∧
    (¬ active → ownsPav s x u.pav = true → ¬ formed → domNotOk s (.bankWrite q d) q stKioskRange) ∧
    (¬ active → ownsPav s x u.pav = true → formed →
      (plotOfPav s u.pav = none → domOk s (.bankWrite q d) q 0x5000 0x0B w) ∧
      (∀ n, plotOfPav s u.pav = some n → (plotAt s n).loadState = 1 ∨ (plotAt s n).loadState = 3 →
        domNotOk s (.bankWrite q d) q stLoadPending) ∧
      (∀ n, plotOfPav s u.pav = some n → (plotAt s n).loadState ≠ 1 → (plotAt s n).loadState ≠ 3 →
        domOk s (.bankWrite q d) q 0x5000 0x0B (setPlot w n (match (plotAt s n).shadow with
          | some img => { plotAt s n with shadow := some (putStream img (relOfPav s n u.pav) u.eng new), shadowDirty := true }
          | none => plotAt s n))))

/-- A self-test takes a unit that no plot owns, and its end leaves the verdict in 0x5000:0D; a pavilion that fails is marked failed (R167,
R168, R20). -/
def Obligations.SelfTests : Prop :=
  ∀ (s : State) (q : KReq) (i j : Nat) (pass : Bool),
    let x := sessAt s q.slot
    let p := field x.engSel 0 8
    let d := field x.engSel 0 4
    let verdict (y : State) : State := { y with testResult := if pass then stOk else stSelftestFail }
    let rk := if pass then rkSelftestDone else rkSelftestFail
    (admits s q 0x5000 0x0C true →
      (s.enableMap.getLsbD p = false → notOk s (.selftestPavilion q) q stKioskRange) ∧
      (s.enableMap.getLsbD p = true → (pavAt s p).testing = true → notOk s (.selftestPavilion q) q stSelftestBusy) ∧
      (∀ n, s.enableMap.getLsbD p = true → (pavAt s p).testing = false → maskOwner s p = some n →
        ∃ t, exec (.selftestPavilion q) s = .next t ∧ refused { s with testResult := stSelftestMapped } q stSelftestMapped t) ∧
      (s.enableMap.getLsbD p = true → (pavAt s p).testing = false → maskOwner s p = none →
        okWith s (.selftestPavilion q) q (setPav s p { pavAt s p with
          testing := true,
          engines := (List.range 6).map (fun e => (e, { engAt s ⟨p, e⟩ with mode := .selftest })) })) ∧
      ((dieAt s d).testing = true → notOk s (.selftestPortDie q) q stSelftestBusy) ∧
      ((dieAt s d).testing = false → plotsOfDie s d ≠ [] →
        ∃ t, exec (.selftestPortDie q) s = .next t ∧ refused { s with testResult := stSelftestMapped } q stSelftestMapped t) ∧
      ((dieAt s d).testing = false → plotsOfDie s d = [] →
        okWith s (.selftestPortDie q) q (setDie s d { dieAt s d with testing := true }))) ∧
    ((pavAt s i).testing = true →
      exec (.selftestDone (.pavilion i) pass) s = .next { verdict s with
        pavs := tblSet s.pavs i { pavAt s i with
          testing := false, engines := (pavAt s i).engines.map (fun e => (e.1, { e.2 with mode := .idle })) }
        failedMap := if pass then s.failedMap else setBit s.failedMap i true
        tele := told s rk (srcPav i) none [] }) ∧
    ((dieAt s j).testing = true →
      exec (.selftestDone (.portDie j) pass) s = .next { verdict (setDie s j { dieAt s j with testing := false }) with
        tele := told s rk (srcDie j) none [] }) ∧
    ((pavAt s i).testing = false → exec (.selftestDone (.pavilion i) pass) s = .next (settle s)) ∧
    ((dieAt s j).testing = false → exec (.selftestDone (.portDie j) pass) s = .next (settle s))

/-! ### Packets and windows (chapters 12 and 13) -/

/-- The checks of R290 in their order: a packet that fails one is dropped, counted and reported as the check says, and goes no further;
on a link that is not ACTIVE, and before all its flits stand confirmed at the head of its VC, no packet arrives (a segment may be relayed
before; see ProvisionalSegments). -/
def Obligations.PacketChecks : Prop :=
  ∀ (s : State) (l : Nat) (p : Pkt), ∀ row ∈ packetRows, p.opc = row.1 →
    let n := p.plot.toNat
    let x := linkAt s l
    let e := (plotAt s n).epoch
    let o := opened s l p
    let whole : Prop := flitsOk (encrypted x p) (headFlits x p) = true ∧ headerOk p = true
    let clear : Prop := p.poison = false ∧ whole ∧ (encrypted x p = true → authentic x p = true)
    (active s l = false ∨ (arrived s l p = false ∧ (p.opc = opSeg → arriving s l p = false)) → exec (row.2 l p) s = .next (settle s)) ∧
    (active s l = true → arrived s l p = true →
      (p.poison = true → exec (row.2 l p) s = .next (settle (freeRx (dropAt s l) l p))) ∧
      (p.poison = false → ¬ whole → exec (row.2 l p) s = .next (settle (freeRx (emit (dropAt s l) rkLinkHeader (srcLink l) (some n) []) l p))) ∧
      (p.poison = false → whole → encrypted x p = true → authentic x p = false →
        exec (row.2 l p) s = .next (settle (freeRx (containedHold (emit
          (setLink s l { x with authFails := x.authFails + 1 }) rkLinkAuthFail (srcLink l) (some n) []) [n] hcLink) l p))) ∧
      (clear → p.vc ≠ 0 → p.vc ≠ 6 → p.epoch.toNat < e.toNat →
        exec (row.2 l p) s = .next (settle (freeRx (sayOncePort (setDom o n { domAt s n with drops := (domAt s n).drops + 1 }) l
          rkEpochDrop (srcLink l) (some n) []) l p))) ∧
      (clear → p.vc ≠ 0 → p.vc ≠ 6 → e.toNat < p.epoch.toNat →
        exec (row.2 l p) s = .next (settle (freeRx (sendPull (sayOncePort (setDom o n { domAt s n with drops := (domAt s n).drops + 1 }) l
          rkEpochDrop (srcLink l) (some n) []) l n) l p))) ∧
      (clear → (p.vc = 0 ∨ p.vc = 6 ∨ p.epoch = e) → (plotAt s n).portMask.getLsbD (linkPort l) = false →
        exec (row.2 l p) s = .next (settle (freeRx (sayOncePort { dropAt o l with
          gate := { s.gate with foreign := s.gate.foreign + 1 } } l rkPlotForeign (srcLink l) (some n) []) l p))))

/-- A packet of STREAM, TELEMETRY, KIOSK, B2_STATUS or E2E_ACK that passes is handed to the one link its route names, and its flits are
freed (R292, R304, R314); an E2E_ACK also takes INC off its pair at an endpoint's port (R296). One that ends here only frees its flits, and
one without a route, or whose only routes turn, is counted and reported (R314). -/
def Obligations.PacketsAreSwitched : Prop :=
  ∀ (s : State) (l : Nat) (p : Pkt), passes s l p →
    let o := opened s l p
    (∀ k, routeOf s (some l) p = .out k → takes s k p →
      let t := queuedOn o k l p
      (p.opc = opStream → exec (.stream l p) s = .next (settle (freeRx t l p))) ∧
      (p.opc = opTelemetry → exec (.telemetry l p) s = .next (settle (freeRx t l p))) ∧
      (p.opc = opKiosk → exec (.kiosk l p) s = .next (settle (freeRx t l p))) ∧
      (p.opc = opB2Status → p.ext ≠ stB2Mismatch → exec (.b2Status l p) s = .next (settle (freeRx t l p))) ∧
      (p.opc = opE2eAck → exec (.e2eAck l p) s = .next (settle (freeRx (ackPair t k p) l p)))) ∧
    (∀ k, routeOf s (some l) p = .out k → active s k = false → p.opc = opStream →
      exec (.stream l p) s = .next (settle (freeRx (dropAt o k) l p))) ∧
    (routeOf s (some l) p = .consume ∨ routeOf s (some l) p = .deliver →
      (p.opc = opStream → exec (.stream l p) s = .next (settle (freeRx o l p))) ∧
      (p.opc = opTelemetry → exec (.telemetry l p) s = .next (settle (freeRx o l p))) ∧
      (p.opc = opKiosk → exec (.kiosk l p) s = .next (settle (freeRx o l p))) ∧
      (p.opc = opB2Status → p.ext ≠ stB2Mismatch → exec (.b2Status l p) s = .next (settle (freeRx o l p))) ∧
      (p.opc = opE2eAck → exec (.e2eAck l p) s = .next (settle (freeRx o l p)))) ∧
    (routeOf s (some l) p = .noRoute → p.opc = opStream →
      exec (.stream l p) s = .next (settle (freeRx (sayOnce { o with route := { s.route with noRoute := s.route.noRoute + 1 } } l
        rkNoRoute (srcLink l) (some p.plot.toNat) []) l p))) ∧
    (routeOf s (some l) p = .turn → p.opc = opStream →
      exec (.stream l p) s = .next (settle (freeRx (sayOnce { o with route := { s.route with turns := s.route.turns + 1 } } l
        rkRouteTurn (srcLink l) (some p.plot.toNat) []) l p)))

/-- A P2P packet from a switch passes unpoliced; from an endpoint it is counted in its pair, dropped beyond its window, or waits for a pair
entry, of which a half-port has half (R284); one that ends here is owed an acknowledgement (R295, R296). A pair entry that comes free
admits the packet that waited longest. -/
def Obligations.WindowedPackets : Prop :=
  ∀ (s : State) (l : Nat) (p : Pkt),
    let x := linkAt s l
    let n := p.plot.toNat
    let o := opened s l p
    let y := linkAt o l
    let w := (plotAt s n).windowEff.toNat
    let mine (q : Pair) : Bool := q.plot == n && q.dest == p.dest
    let counted := setLink o l { y with pairs := x.pairs.map (fun q => if mine q then { q with count := q.count + 1 } else q) }
    let entered := setLink o l { y with pairs := x.pairs ++ [Pair.mk n p.dest 1] }
    let said := setLink o l { y with windowSaid := addNew x.windowSaid (n, p.dest) }
    let dropped := { said with net := { said.net with windowDrops := s.net.windowDrops + 1 } }
    let onward (t : State) : Prop :=
      (∀ k, routeOf s (some l) p = .out k → takes s k p → exec (.p2p l p) s = .next (settle (freeRx (queuedOn t k l p) l p))) ∧
      (endsHere s l p = true → exec (.p2p l p) s = .next (settle (freeRx (oweAck t l p) l p)))
    (passes s l p → p.opc = opP2p →
      (partnerIsEndpoint x = false → onward o) ∧
      (partnerIsEndpoint x = true → (∀ e ∈ x.pairs, mine e = false) → 0 < w →
        (pairRoom s l ≤ x.pairs.length → exec (.p2p l p) s = .next { o with
          net := { o.net with links := tblSet o.net.links l { y with pairWait := x.pairWait ++ [p] }, pairStalls := s.net.pairStalls + 1 },
          tele := quiet s }) ∧
        (x.pairs.length < pairRoom s l → onward entered)) ∧
      (∀ e, partnerIsEndpoint x = true → x.pairs.find? mine = some e → e.count + 1 ≤ w → onward counted) ∧
      (partnerIsEndpoint x = true → ((∃ e, x.pairs.find? mine = some e ∧ w ≤ e.count) ∨ (x.pairs.find? mine = none ∧ w = 0)) →
        exec (.p2p l p) s = .next (settle (freeRx (if (n, p.dest) ∈ x.windowSaid then dropped
          else emit dropped rkLinkWindow (srcLink l) (some n) []) l p)))) ∧
    (pairRoom s l = if (portAt s (linkPort l)).mode = 1 then 512 else 1024) ∧
    (x.pairWait = [] ∨ pairRoom s l ≤ x.pairs.length → exec (.pairEntryAdmit l) s = .next (settle s)) ∧
    (∀ r, x.pairWait = p :: r → x.pairs.length < pairRoom s l →
      let s1 := setLink s l { x with pairWait := r }
      police s1 l p = .pass →
        (p.opc = opP2p → exec (.pairEntryAdmit l) s = .next (settle (p2pPass (countPair s1 l p) l p))) ∧
        (p.opc = opB2Launch → exec (.pairEntryAdmit l) s = .next (settle (launchPass (countPair s1 l p) l p))))

/-! ### Collectives (chapters 08 and 09) -/

/-- A launch block that reaches a module of its group builds the collective on its arrival die and counts it, or is refused to its endpoint
with a status, a count and a record; with B2 disabled it has no effect but its acknowledgement (R6, R222, R223, log entry 32). A B2_STATUS of
a mismatch takes the built descriptors away. -/
def Obligations.B2Packets : Prop :=
  ∀ (s : State) (l : Nat) (p : Pkt), passes s l p →
    let n := p.plot.toNat
    let g := launchOf p
    let src := p2pSrc p
    let o := opened s l p
    let owed := oweAck (countPair o l p) l p
    (p.opc = opB2Launch → police s l p = .pass →
      (∀ k, routeOf s (some l) p = .out k → takes s k p →
        exec (.b2Launch l p) s = .next (settle (freeRx (queuedOn (countPair o l p) k l p) l p))) ∧
      (endsHere s l p = true →
        let on (t : State) : Prop := exec (.b2Launch l p) s = .next (settle (freeRx t l p))
        (s.coll.b2Enable.getLsbD n = false → on owed) ∧
        (s.coll.b2Enable.getLsbD n = true → g.bytes < 4096 → on (refuseLaunch owed n g.tag src stB2MinSize)) ∧
        (s.coll.b2Enable.getLsbD n = true → 4096 ≤ g.bytes → (b2Groups s.coll.b2Groups)[g.grp]? = none →
          on (refuseLaunch owed n g.tag src stSegInvalid)) ∧
        (∀ home entries, s.coll.b2Enable.getLsbD n = true → 4096 ≤ g.bytes → (b2Groups s.coll.b2Groups)[g.grp]? = some (home, entries) →
          let fit : Prop := launchOk g = true ∧ (∃ e ∈ entries, BitVec.ofNat 24 (fieldN e 40 24) = src) ∧
            groupFits (portsOfPlot s n).length g entries = true ∧ tagTaken s n g = false
          (¬ fit → on (refuseLaunch owed n g.tag src stSegInvalid)) ∧
          (fit → b2Descs s n g.tag g.grp = [] →
            (slotFree s (linkDie l) = false → on (refuseLaunch owed n g.tag src stB2NoSlot)) ∧
            (slotFree s (linkDie l) = true → ∃ s', buildDesc owed n (linkDie l) g home entries [] = some s' ∧
              (b2Descs s' n g.tag g.grp).any (fun e => e.1 == linkDie l) = true ∧
              on (acceptLaunch s' l n p g home (b2Descs s' n g.tag g.grp) src) ∧
              (plotRuns s n = false →
                (acceptLaunch s' l n p g home (b2Descs s' n g.tag g.grp) src).coll.b2Launches = s.coll.b2Launches + 1)))))) ∧
    (p.opc = opB2Status → p.ext = stB2Mismatch → routeOf s (some l) p = .consume ∨ routeOf s (some l) p = .deliver →
      exec (.b2Status l p) s = .next (settle (freeRx (dropDescs o ((collDescs s n p.tag).filter (fun e => e.2.2.b2.isSome))) l p)))

/-- A launch of fewer than 4 KiB in B2 launch mode is refused with B2_MIN_SIZE: its endpoint hears the status, the refusal is counted and
reported, and nothing is transferred or reduced for it. -/
def Obligations.SmallB2LaunchIsRefused : Prop :=
  ∀ (s : State) (l : Nat) (p : Pkt), passes s l p → p.opc = opB2Launch → endsHere s l p = true → police s l p = .pass →
    s.coll.b2Enable.getLsbD p.plot.toNat = true → (launchOf p).bytes < 4096 →
      let n := p.plot.toNat
      let tag := (launchOf p).tag
      let owed := oweAck (countPair (opened s l p) l p) l p
      let told := sendOut owed none (b2StatusPkt owed n tag (p2pSrc p) stB2MinSize)
      let t := emit { told with coll := { s.coll with b2Refusals := s.coll.b2Refusals + 1 } } rkB2Refused srcModule (some n) []
      exec (.b2Launch l p) s = .next (settle (freeRx t l p)) ∧
      told.coll = s.coll ∧ told.hbm = s.hbm ∧ told.pavs = s.pavs ∧ told.pools = s.pools ∧ told.sigs = s.sigs

/-- A segment for this module is dropped where no descriptor matches its plot and TAG, where its run is neither the current nor the
next one, or where it is invalid for its descriptor (R197, R203, R208); one of the next run waits in a staging buffer, or at ingress for
lack of one (R207, R208); and a contribution to an all-gather goes down once on every link of a member (R195, R196). One for another
module is switched.

Segments held at ingress retry: one of the next run takes the buffer that has come free, one whose descriptor is gone is freed, one of a
stale run is dropped, and with nothing held or staged nothing changes (R207, R224). -/
def Obligations.Segments : Prop :=
  (∀ (s : State) (l : Nat) (p : Pkt) (cycle : BitVec 16), passes s l p → p.opc = opSeg →
     let j := linkDie l
     let o := opened s l p
     let on (t : State) : Prop := exec (.seg l p { cycle := cycle }) s = .next (settle t)
     (∀ k, routeOf s (some l) p = .out k → takes s k p → on (freeRx (queuedOn o k l p) l p)) ∧
     (endsHere s l p = true →
       (findDesc s j p.plot.toNat p.tag = none → on (freeRx (dropSeg o j rkCollSegInvalid stNoDescriptor p) l p)) ∧
       (∀ i d, findDesc s j p.plot.toNat p.tag = some (i, d) → descAt? s j i = some d → p.prov = false → d.provIn = [] → d.provOut = [] →
         let arr := arrivalOf o d l p cycle
         let staged (h : U32) : EarlySeg := { pkt := p, link := l, buf := h, arr := arr }
         (sRun p ≠ d.run + 1 → (d.triggered = false ∨ sRun p ≠ d.run) → on (freeRx (dropSeg o j rkCollStale stStaleRun p) l p)) ∧
         (d.triggered = true → sRun p = d.run → segFault o d l d.prog p = true →
           on (freeRx (dropSeg o j rkCollSegInvalid stSegInvalid p) l p)) ∧
         (sRun p = d.run + 1 → segFault o d l {} p = false → stagedSeg o d p = false →
           (∀ s', stageBuf o d = (s', none) → on (holdSeg s' j i l p arr)) ∧
           (∀ s' h, stageBuf o d = (s', some h) →
             on (freeRx (setDesc (fillBuf s' h p.body) j i { d with early := d.early ++ [staged h] }) l p))) ∧
         (d.triggered = true → sRun p = d.run → dDop d = 3 → sKind p = 0 → segFault o d l d.prog p = false → seenSeg o d d.prog p = false →
           stagedSeg o d p = false → segReady o d p = true →
           on (freeRx (modRun
             (sendDown o j i d (fun _ => true) none (segOp (sEoff p) (sRank p) (sNel p) d.run.toNat 1 0 0) p.body (sEoff p, sRank p)) j i
             (fun r =>
               let r := { r with got := r.got ++ [segKey p], nOffsched := r.nOffsched + bit (offSchedule o d l p) }
               if p.vc = 2 then noteArrival r (sRank p) arr else r)) l p))))) ∧
  (∀ (s : State) (j : Nat), (∀ e ∈ (dieAt s j).descs, e.2.early = []) →
     ((dieAt s j).held = [] → exec (.stagingRetry j {}) s = .next (settle s)) ∧
     (∀ h, (dieAt s j).held = [h] →
       let s1 := setDie s j { dieAt s j with held := [] }
       (descAt? s j h.idx = none → exec (.stagingRetry j {}) s = .next (settle (freeRx s1 h.link h.pkt))) ∧
       (∀ d, descAt? s j h.idx = some d → sRun h.pkt ≠ d.run + 1 → (d.triggered = false ∨ sRun h.pkt ≠ d.run) →
         exec (.stagingRetry j {}) s = .next (settle (freeRx (dropSeg s1 j rkCollStale stStaleRun h.pkt) h.link h.pkt))) ∧
       (∀ d s' b, descAt? s j h.idx = some d → h.pkt.prov = false → sRun h.pkt = d.run + 1 → segFault s1 d h.link {} h.pkt = false →
         stagedSeg s1 d h.pkt = false → stageBuf s1 d = (s', some b) →
         exec (.stagingRetry j {}) s = .next (settle (freeRx (setDesc (fillBuf s' b h.pkt.body) j h.idx
           { d with early := d.early ++ [{ pkt := h.pkt, link := h.link, buf := b, arr := h.arr }] }) h.link h.pkt)))))

/-- CONFIRM gives a provisional segment that was not relayed its effect and RETRACT voids it, and either does the same for a message of the
parameter service (R214, R216, R261); one that names nothing here is dropped. A relayed segment that is not confirmed by the end of the next
frame is retracted on (R215). A segment of which not every flit is confirmed yet has no effect but that it is relayed with PROV where
0x5800:06 enables its plot (R214). -/
def Obligations.ProvisionalSegments : Prop :=
  (∀ (s : State) (l : Nat) (p : Pkt) (cycle : BitVec 16), passes s l p →
     let j := linkDie l
     let o := opened s l p
     let confirmed (t : State) : Prop := p.opc = opConfirm → exec (.confirm l p cycle) s = .next (settle (freeRx t l p))
     let retracted (t : State) : Prop := p.opc = opRetract → exec (.retract l p) s = .next (settle (freeRx t l p))
     (∀ k, routeOf s (some l) p = .out k → takes s k p → confirmed (queuedOn o k l p) ∧ retracted (queuedOn o k l p)) ∧
     (endsHere s l p = true →
       (∀ q, s.coll.psWait.find? (fun q => psNamed q p) = some q →
         let o1 := { o with coll := { o.coll with psWait := o.coll.psWait.erase q } }
         retracted o1 ∧ confirmed (psEffect o1 { q with prov := false })) ∧
       (s.coll.psWait.find? (fun q => psNamed q p) = none →
         (findDesc s j p.plot.toNat p.tag = none →
           confirmed (dropSeg o j rkCollSegInvalid stNoDescriptor p) ∧ retracted (dropSeg o j rkCollSegInvalid stNoDescriptor p)) ∧
         (∀ i d v, findDesc s j p.plot.toNat p.tag = some (i, d) → d.provIn.find? (fun v => provMatch v.key v.run p) = some v →
           let s1 := freeBufs (setDesc o j i { d with provIn := d.provIn.erase v }) [v.buf]
           let q := { v.pkt with prov := false }
           retracted s1 ∧
           (∀ s', (v ∉ d.provOut ∨ inTime s v = false) → acceptSeg s1 j i v.link q (arrivalOf o d v.link q cycle) = .ok s' →
             confirmed s'))))) ∧
  (∀ (s : State) (l : Nat) (p : Pkt) (x : SegIn), arriving s l p = true →
     (endsHere s l p = false → exec (.seg l p x) s = .next (settle s)) ∧
     (endsHere s l p = true →
       (s.coll.relayEff.getLsbD p.plot.toNat = false → exec (.seg l p x) s = .next (settle s)) ∧
       (∀ i d, findDesc s (linkDie l) p.plot.toNat p.tag = some (i, d) → s.coll.relayEff.getLsbD p.plot.toNat = true →
         encrypted (linkAt s l) p = false → segRefusal s d l p = none → (∀ v ∈ d.provOut, provIs v (segKey p) (sRun p).toNat = false) →
         ∃ t, exec (.seg l p x) s = .next t ∧ t.pavs = s.pavs ∧ t.hbm = s.hbm ∧
           (relayLinks s d l p ≠ [] → (descAt? t (linkDie l) i).map (·.provOut) = some (d.provOut ++ [{
             key := segKey p, run := (sRun p).toNat, pkt := p, link := l, frame := s.sd.ticks, outLinks := relayLinks s d l p, own := true }]))))) ∧
  (∀ (s : State) (die idx : Nat),
     (descAt? s die idx = none → exec (.provDeadline die idx) s = .next (settle s)) ∧
     (∀ d, descAt? s die idx = some d →
       let late := d.provOut.filter (fun v => decide (v.frame.toNat + 2 ≤ s.sd.ticks.toNat))
       (late = [] → exec (.provDeadline die idx) s = .next (settle s)) ∧
       (late ≠ [] → ∃ t, exec (.provDeadline die idx) s = .next t ∧
         descAt? t die idx = some { d with
           provOut := d.provOut.filter (fun v => !late.contains v)
           prog := { d.prog with nRetracts := d.prog.nRetracts + late.length } } ∧
         t.coll.retractions = s.coll.retractions + BitVec.ofNat 64 late.length ∧ t.hbm = s.hbm ∧ t.pavs = s.pavs)))

/-- A descriptor whose trigger counter has reached TTHR starts its next run, less TTHR with TDEC (R206, R208); broken tables end the run
with a fault (R412). A staged chunk is fed into the slots of its home (R204); an increment of a release counter sends the next result chunk
(R205); and a run whose work is done and confirmed signals, writes its record and is armed again (R209). -/
def Obligations.DescriptorRuns : Prop :=
  ∀ (s : State) (die idx : Nat) (d : Desc), descAt? s die idx = some d → plotRuns s d.plot = true → d.prog.stuck = false → d.b2 = none →
    (∀ c, trigAt? s die d.plot (dTctr d) = some c → d.triggered = false →
      let s1 := if dTdec d then setTrig s die d.plot (dTctr d) { c.ctr with value := c.ctr.value - BitVec.ofNat 16 (dTthr d) } else s
      let d' := { d with triggered := true, run := d.run + 1, prog := { startTick := s.sd.ticks, step := (plotAt s d.plot).stepLatched } }
      let s2 := setDesc s1 die idx d'
      (waitHolds c.ctr (dTthr d) = false → exec (.descriptorTrigger die idx) s = .next (settle s)) ∧
      (∀ a, waitHolds c.ctr (dTthr d) = true → tablesBad s2 d' = some a →
        exec (.descriptorTrigger die idx) s = .next (settle (modRun (hbmUncorrected s2 a true) die idx (fun r => { r with stuck := true })))) ∧
      (waitHolds c.ctr (dTthr d) = true → tablesBad s2 d' = none → tablesOk s2 d' = false →
        exec (.descriptorTrigger die idx) s = .next (settle (runFault s2 die idx stVerifyFail))) ∧
      (waitHolds c.ctr (dTthr d) = true → tablesBad s2 d' = none → tablesOk s2 d' = true →
        emptyColl d = true ∨ (dDop d ≠ 5 ∧ dDop d ≠ 10) → d.early = [] → exec (.descriptorTrigger die idx) s = .next (settle s2))) ∧
    (d.triggered = true → exec (.descriptorTrigger die idx) s = .next (settle s)) ∧
    (∀ g r p bs, d.prog.staged = g :: r → d.triggered = true → dDop d ≠ 6 → pavOfRel s d.plot (homeEntry s d g.chunk).hpav = some p →
      stagedBytes s d.plot g = (s, some bs) →
      let f := dIfmt d
      let n := g.data.length * 8 / fmtBits f
      let js := slotRange (homeEntry s d g.chunk).slot n
      let s1 := freeBufs (modRun s die idx (fun r => { r with staged := r.staged.erase g })) [g.handle]
      ((∀ k ∈ js, feedOk d (slotAt (pavAt s p) k) = true) →
        exec (.chunkFeed die idx {}) s = .next (settle (chunkDone (contribute ⟨p, 1⟩ s1
          (js.zip (decodeArr f n (bs.take g.data.length) (bs.drop g.data.length)))) die idx g.chunk g.rank))) ∧
      ((∃ k ∈ js, feedOk d (slotAt (pavAt s p) k) = false) →
        exec (.chunkFeed die idx {}) s = .next (settle (runFault s1 die idx stVerifyFail)))) ∧
    (d.prog.staged = [] → exec (.chunkFeed die idx {}) s = .next (settle s)) ∧
    (∀ h c p t, d.triggered = true → dLead d = true → (dDeliv d = 0 ∨ dDeliv d = 1) → emptyColl d = false → dDop d ≤ 4 →
      (releasable s die d).findSome? (fun h => (nextChunk s d h).map (fun c => (h, c))) = some (h, c) → pavOfRel s d.plot h = some p →
      trigAt? s die d.plot (dRctr d + h) = some t →
      let s1 := setTrig s die d.plot (dRctr d + h) { t.ctr with value := t.ctr.value - 1 }
      let n := chunkLen d (xBlock s d) c
      let len := dataBytes (dOfmt d) n
      let bs := sramRead (pavAt s p) (homeEntry s d c).raddr len
      sramBad (pavAt s p) (homeEntry s d c).raddr len = none →
      exec (.resultRelease die idx {}) s = .next (settle (sendChunk s1 die idx c
        (bs.take (fmtSize (dOfmt d) n)) (bs.drop (fmtSize (dOfmt d) n))))) ∧
    (releasable s die d = [] → exec (.resultRelease die idx {}) s = .next (settle s)) ∧
    (d.triggered = true → (if emptyColl d then d.prog.startTick.toNat < s.sd.ticks.toNat else workDone s die d = true ∧ allConfirmed s die d = true) →
      exec (.runComplete die idx) s = .next (settle (completeRun s die idx d)) ∧
      (dDop d ≠ 10 → (dDeliv d ≠ 3 ∨ dLead d = false) → d.prog.nDrops = 0 → d.prog.nBad = 0 →
        let r := endSignals s die d
        let st := if r.2 then stCtrSaturated else stOk
        completeRun s die idx d = setDesc (writeRecord r.1 d st) die idx { d with
          triggered := false, laggard := laggardOf d, prog := { d.prog with status := st } })) ∧
    (d.triggered = false → exec (.runComplete die idx) s = .next (settle s))

/-! ### Shards and the global norm (chapter 10) -/

/-- The shard entry, the six shard commands, the norm configuration and the step counter are written under their conditions, and otherwise
refused with the status of the rule (R250, R254, R264, R265, R269). -/
def Obligations.ShardObjects : Prop :=
  ∀ (s : State) (q : KReq) (d : DomSeg) (all : List Byte),
    let x := sessAt s q.slot
    let n := x.shardSel.toNat
    let h := shardAt s n
    let e := BitVec.ofNat 512 (leNat all)
    let m := x.normSel.toNat
    (admits s q 0x6000 0x02 false → wholeValue s q 0x6000 0x02 64 d all → all.length = 64 →
      let c := Instr.shardEntryWrite q d
      (ownsPlot x (ePlot e) = false → domNotOk s c q stKioskAccess) ∧
      (shardValid h = true → ownsPlot x (ePlot h.entry) = false → domNotOk s c q stKioskAccess) ∧
      (ownsPlot x (ePlot e) = true → (shardValid h = true → ownsPlot x (ePlot h.entry) = true) →
        (field e 0 194 ≠ 0 ∨ entryInRange e = false → domNotOk s c q stKioskRange) ∧
        (field e 0 194 = 0 → entryInRange e = true →
          (1 < h.state ∨ entryFits s n e = false → domNotOk s c q stKioskState) ∧
          (h.state ≤ 1 → entryFits s n e = true →
            (eNparam e = 0 → domOk s c q 0x6000 0x02 (setShard s n { h with entry := e, state := 0, todo := none })) ∧
            (eNparam e ≠ 0 →
              let t := (plotAt s (ePlot e)).step
              domOk s c q 0x6000 0x02 (setShard s n { h with
                entry := e, state := 1, gen := t.toNat % 2, step := t, cur := t, blocks := 0, local_ := [], twin := [], twinHdr := none,
                nextHdr := none, nextList := [], todo := none, cmds := [] })))))) ∧
    (admits s q 0x6000 0x08 true →
      ∀ ck ∈ [(Instr.adoptLocal q, 1, [5]), (Instr.adoptTwin q, 2, [5]), (Instr.abandon q, 3, [5, 6]), (Instr.restore q, 4, [1, 6]),
        (Instr.invalidate q, 5, [1, 5, 6]), (Instr.commitDegraded q, 6, [3])],
      (shardValid h = true → ownsPlot x (ePlot h.entry) = false → notOk s ck.1 q stKioskAccess) ∧
      (shardValid h = true → ownsPlot x (ePlot h.entry) = true → h.state ∉ ck.2.2 → notOk s ck.1 q stShardState) ∧
      (shardValid h = true → ownsPlot x (ePlot h.entry) = true → h.state ∈ ck.2.2 →
        okWith s ck.1 q (setShard s n { h with cmds := h.cmds ++ [ck.2.1], cmdStatus := stOk })) ∧
      (h.state = 0 → ck.2.1 = 4 → eNparam h.entry ≠ 0 →
        okWith s ck.1 q (setShard s n { h with cmds := h.cmds ++ [4], cmdStatus := stOk }))) ∧
    (admits s q 0x6000 0x21 false → wholeValue s q 0x6000 0x21 64 d all → all.length = 64 → ownsPlot x m = true → field e 0 312 = 0 →
      xNmod e = 0 ∨ (xNmod e ≤ 65536 ∧ xTthr e ≠ 0 ∧ xRaddr e % 4 = 0 ∧ xRinc e ≠ 0) →
      ((normAt s m).collecting = true → domNotOk s (.normConfigWrite q d) q stKioskState) ∧
      ((normAt s m).collecting = false →
        domOk s (.normConfigWrite q d) q 0x6000 0x21 (setNorm s m { normAt s m with config := e }))) ∧
    (∀ (k : Nat) (v : BitVec 64), admits s q (0x4000 + k) 0x05 false →
      ((∃ o ∈ s.shards, ePlot o.2.entry = k ∧ (o.2.state ∈ [2, 3, 4, 5, 7, 8])) → notOk s (.stepCounterWrite q k v) q stKioskState) ∧
      ((∀ o ∈ s.shards, ePlot o.2.entry = k → o.2.state ∉ [2, 3, 4, 5, 7, 8]) →
        okWith s (.stepCounterWrite q k v) q (setPlot s k { plotAt s k with step := v })))

/-- A step of a shard: it begins when its trigger counter reaches the threshold, digests block by block, compares with its twin by
Table 10.7 once both lists are held, and commits while the plot runs (R259–R264). -/
def Obligations.ShardSteps : Prop :=
  ∀ (s : State) (n : Nat),
    let h := shardAt s n
    let e := h.entry
    let p := ePlot e
    let t := (plotAt s p).step
    (trigReady s (eTdie e) p (eTctr e) (eTthr e) = none ∨ h.state ≠ 1 → exec (.digestTrigger n) s = .next (settle s)) ∧
    (∀ c, trigReady s (eTdie e) p (eTctr e) (eTthr e) = some c → h.state = 1 →
      exec (.digestTrigger n) s = .next (settle (setShard (trigTake s (eTdie e) p (eTctr e) (eTthr e) c) n { h with
        state := 2, cur := t, blocks := 0, local_ := [], waitTicks := 0, lateSaid := false, todo := none,
        twinHdr := if h.hdrStep = t then h.twinHdr else none, twin := if h.hdrStep = t then h.twin else [] }))) ∧
    (∀ x, (mayDigest s n = false → exec (.digestBlock n x) s = .next (settle s)) ∧
      (mayDigest s n = true →
        let s1 := hbmUpset s x
        let g := newGen h
        (∀ a, blockBad s1 e g h.blocks = some a → exec (.digestBlock n x) s = .next (settle (damaged s1 n a))) ∧
        (blockBad s1 e g h.blocks = none →
          let d := blockDigest s1 e g h.blocks
          exec (.digestBlock n x) s = .next (settle (setShard (regWrite s1 p (dlstOff e g h.blocks) (natLe 8 d.toNat)) n { h with
            blocks := h.blocks + 1, local_ := h.local_ ++ [d], quotaTick := s.sd.ticks, quotaUsed := quotaOf s h + 1 }))))) ∧
    (h.state ≠ 2 ∨ h.blocks < nBlocks e → exec (.digestComplete n) s = .next (settle s)) ∧
    (h.state = 2 → nBlocks e ≤ h.blocks →
      (eTwin e = 0xFFFFFF →
        exec (.digestComplete n) s = .next (settle (setShard s n { h with state := 4, waitTicks := 0, todo := some (stDegradedCommit, 0x80) }))) ∧
      (exec (.digestComplete n) s = .next (settle (compareShard
        (modShard (sendList (sendHeader s n h.cur stOk) n h.cur h.local_) n (fun y => { y with state := 3, waitTicks := 0 })) n)))) ∧
    (h.state = 3 →
      let diff := (h.local_.zipIdx.filter (fun d => d.1 != tblGet 0 h.twin d.2)).map (·.2)
      (∀ fl, twinAbsent s h = some fl → compareShard s n = setShard s n { h with state := 4, todo := some (stDegradedCommit, fl) }) ∧
      (twinAbsent s h = none → h.hdrStep = h.cur → ∀ cfg st, h.twinHdr = some (cfg, st) →
        (h.twin.length < nBlocks cfg → compareShard s n = s) ∧
        (nBlocks cfg ≤ h.twin.length → cfg ≠ eConfig e → compareShard s n = diverged s n rkPsTwinMismatch stTwinConfig 0xFFFFFFFF 0) ∧
        (nBlocks cfg ≤ h.twin.length → cfg = eConfig e → diff = [] →
          compareShard s n = setShard s n { h with state := 4, todo := some (stOk, 0) }) ∧
        (nBlocks cfg ≤ h.twin.length → cfg = eConfig e → ∀ b r, diff = b :: r →
          compareShard s n = diverged s n rkPsDivergence stDivergence b diff.length))) ∧
    (h.todo = none ∨ h.state ≠ 4 ∨ mayCommit s p = false → exec (.shardCommit n) s = .next (settle s)) ∧
    (∀ st fl, h.todo = some (st, fl) → h.state = 4 → mayCommit s p = true →
      let s1 := setShard s n (promote { h with
        gen := newGen h, step := h.cur + 1, state := 1, todo := none, record := commitRecord s h.cur 0xFFFFFFFF 0 st fl,
        commits := h.commits + 1, degraded := if st = stDegradedCommit then h.degraded + 1 else h.degraded })
      let s2 := signalRel s1 p (eCpav e) (eCctr e) (eCinc e) ⟨4, n⟩
      exec (.shardCommit n) s = .next (settle (advanceStep
        (emit s2 (if st = stDegradedCommit then rkPsDegraded else rkPsCommit) (srcShard n) (some p) []) p))) ∧
    (h.state = 3 → 4096 ≤ h.waitTicks → h.lateSaid = false →
      exec (.psTwinLate n) s = .next (settle (emit (setShard s n { h with lateSaid := true }) rkPsTwinLate (srcShard n) (some p) []))) ∧
    (h.state ≠ 3 ∨ h.waitTicks < 4096 ∨ h.lateSaid = true → exec (.psTwinLate n) s = .next (settle s))

/-- A message of a shard's twin: kept for the present step or one deep, counted when its step is past, TWIN_SKEW when it is further ahead
(R262, R266); a restore request is served or refused, restore data is written, and a refusal ends the restore (R267, R268). One that does
not come from the twin changes nothing, and a provisional copy only waits (R216, R261). -/
def Obligations.TwinMessages : Prop :=
  ∀ (s : State) (l : Nat) (p : Pkt), passes s l p → p.opc = opPsmsg →
    let n := mShard p
    let h := shardAt s n
    let step := mStep p
    let now := stepNow h
    let o := opened s l p
    let b := { o with coll := { o.coll with psWait := o.coll.psWait.filter (fun q => !(q.plot == p.plot && q.op == p.op)) } }
    let after (t : State) : Host.Outcome State Fault Refusal := .next (settle (freeRx t l p))
    let cfg := BitVec.ofNat 512 (leNat p.body)
    let ds := ((pieces 8 p.body).take (mNel p)).map (fun b => BitVec.ofNat 64 (leNat b))
    let ended (st : U16) : State := setShard b n { h with state := h.backState, cmdStatus := st, restoreStep := none, got := [] }
    let rows : List (Nat × Instr) := [(2, .digestHeader l p), (3, .digestList l p), (4, .restoreRequest l p), (5, .restoreData l p),
      (6, .abortNotice l p), (7, .restoreRefusal l p)]
    let keeping : List (Nat × Instr × (Bool → Shard)) := [
      (2, .digestHeader l p, fun next => keepHeader h next step cfg (mStatus p)),
      (3, .digestList l p, fun next => keepList h next step (mPos p) ds),
      (6, .abortNotice l p, fun next => keepHeader h next step 0 (mStatus p))]
    (∀ r ∈ rows,
      (mKind p ≠ r.1 → exec r.2 s = .next (settle s)) ∧
      (mKind p = r.1 →
        (∀ k, routeOf s (some l) p = .out k → takes s k p → exec r.2 s = after (queuedOn o k l p)) ∧
        (endsHere s l p = true → p.prov = true → exec r.2 s = after { o with coll := { o.coll with psWait := o.coll.psWait ++ [p] } }) ∧
        (endsHere s l p = true → p.prov = false → fromTwin h p = false → exec r.2 s = after b))) ∧
    (endsHere s l p = true → p.prov = false → fromTwin h p = true →
      (∀ r ∈ keeping, mKind p = r.1 → h.state ≠ 0 → (h.state ≠ 7 ∨ r.1 = 6) →
        (step.toNat < now.toNat →
          exec r.2.1 s = after (emit (setShard b n { h with stale := h.stale + 1 }) rkPsStale (srcShard n) (some (ePlot h.entry)) [])) ∧
        (step = now → h.state ≠ 3 → h.state ≠ 5 → h.state ≠ 6 → exec r.2.1 s = after (setShard b n (r.2.2 false))) ∧
        (step = now → h.state = 3 → exec r.2.1 s = after (compareShard (setShard b n (r.2.2 false)) n)) ∧
        (step = now → h.state = 5 ∨ h.state = 6 → exec r.2.1 s = after (setShard b n (r.2.2 true))) ∧
        (h.state = 4 → step.toNat = now.toNat + 1 → exec r.2.1 s = after (setShard b n (r.2.2 true))) ∧
        (now.toNat < step.toNat → (h.state ≠ 4 ∨ step.toNat ≠ now.toNat + 1) → exec r.2.1 s = after (twinSkew b n))) ∧
      (h.state = 0 → ∀ r ∈ keeping, mKind p = r.1 → exec r.2.1 s = after b) ∧
      (mKind p = 2 → h.state = 7 →
        (cfg ≠ eConfig h.entry → exec (.digestHeader l p) s = after (ended stTwinConfig)) ∧
        (cfg = eConfig h.entry → h.restoreNew = true → step ≠ h.cur + 1 → exec (.digestHeader l p) s = after (ended stTwinSkew)) ∧
        (cfg = eConfig h.entry → (h.restoreNew = false ∨ step = h.cur + 1) → exec (.digestHeader l p) s =
          after (checkBlocks (setShard b n { h with restoreStep := some step, twinHdr := some (cfg, mStatus p), hdrStep := step }) n))) ∧
      (mKind p = 3 → h.state = 7 →
        exec (.digestList l p) s = after (checkBlocks (setShard b n { h with twin := putEntries h.twin (mPos p) ds }) n)) ∧
      (mKind p = 4 →
        (∀ st, serveFrom b h (bitAt (p.body.getD 0 0) 0) step = .ok st →
          exec (.restoreRequest l p) s = after (serve b n st (if mNel p = 0 then none else some (mPos p)))) ∧
        (∀ st, serveFrom b h (bitAt (p.body.getD 0 0) 0) step = .error st →
          exec (.restoreRequest l p) s = after (toTwin b n 7 step 0 0 st []))) ∧
      (mKind p = 5 →
        (h.state = 7 → exec (.restoreData l p) s = after (takeRestore b n step (mPos p) (p.body.take (mNel p)))) ∧
        (h.state ≠ 7 → exec (.restoreData l p) s = after b)) ∧
      (mKind p = 7 →
        (h.state = 7 → exec (.restoreRefusal l p) s = after (ended (mStatus p))) ∧
        (h.state ≠ 7 → exec (.restoreRefusal l p) s = after b)))

/-- The global norm: the trigger collects the listed slots and sends their exact partial to the root, or holds it there; the root adds
the partials of all modules and rounds once; a result is written and signalled at its member (R254–R257, R269). A message of a step that is
past is counted and reported (R262). -/
def Obligations.GlobalNorm : Prop :=
  ∀ (s : State) (n l slot : Nat) (p : Pkt),
    let x := normAt s n
    let c := x.config
    let step := (plotAt s n).step
    let ks := normSlots s n c
    let y := normAt s p.plot.toNat
    let o := opened s l p
    let b := { o with coll := { o.coll with psWait := o.coll.psWait.filter (fun q => !(q.plot == p.plot && q.op == p.op)) } }
    let after (t : State) : Host.Outcome State Fault Refusal := .next (settle (freeRx t l p))
    (trigReady s (xTdie c) n (xTctr c) (xTthr c) = none ∨ xNmod c = 0 ∨ x.collecting = true →
      exec (.normTrigger ⟨n, {}, slot⟩) s = .next (settle s)) ∧
    (∀ k, trigReady s (xTdie c) n (xTctr c) (xTthr c) = some k → xNmod c ≠ 0 → x.collecting = false →
      let s1 := setNorm (trigTake s (xTdie c) n (xTctr c) (xTthr c) k) n { x with collecting := true, step := step }
      let got := collectPartial s1 ks
      (∀ a, regBad s n (xSlist c) (4 * xNslot c) = some a → exec (.normTrigger ⟨n, {}, slot⟩) s = .next (settle (hbmUncorrected s1 a true))) ∧
      (regBad s n (xSlist c) (4 * xNslot c) = none → ks.all (normSlotOk s) = false →
        let s2 := setNorm (writeNorm s1 n c (nanBits fFP32)) n { x with collecting := false, step := step, doneStep := some step }
        exec (.normTrigger ⟨n, {}, slot⟩) s = .next (settle (containedHold
          (emit s2 rkPsNormFault (srcHub (n % 4)) (some n) []) [n] hcShard))) ∧
      (regBad s n (xSlist c) (4 * xNslot c) = none → ks.all (normSlotOk s) = true → isRoot s c = false →
        exec (.normTrigger ⟨n, {}, slot⟩) s = .next (settle (sendOut got.1 none
          (psPkt s n (xRootId c) (xRplot c) 0 0 step 0 0 0 (partialBytes got.2))))) ∧
      (regBad s n (xSlist c) (4 * xNslot c) = none → ks.all (normSlotOk s) = true → isRoot s c = true →
        exec (.normTrigger ⟨n, {}, slot⟩) s = .next (settle (finishNorm (holdPartial got.1 n step (selfId s) n got.2) n)))) ∧
    (passes s l p → p.opc = opPsmsg →
      let m := p.plot.toNat
      (endsHere s l p = true → p.prov = true →
        (mKind p = 0 → exec (.normPartial l p) s = after { o with coll := { o.coll with psWait := o.coll.psWait ++ [p] } }) ∧
        (mKind p = 1 → exec (.normResult l p) s = after { o with coll := { o.coll with psWait := o.coll.psWait ++ [p] } })) ∧
      (mKind p = 0 → endsHere s l p = true → p.prov = false →
        (xNmod y.config = 0 ∨ isRoot s y.config = false → exec (.normPartial l p) s = after b) ∧
        (xNmod y.config ≠ 0 → isRoot s y.config = true → y.collecting = true → mStep p = y.step →
          exec (.normPartial l p) s = after (finishNorm (holdPartial b m (mStep p) (mSrc p) (mSplot p) (partialOf p.body)) m)) ∧
        (xNmod y.config ≠ 0 → isRoot s y.config = true → y.collecting = true → (mStep p).toNat < y.step.toNat →
          exec (.normPartial l p) s = after (emit (setNorm b m { y with stale := y.stale + 1 }) rkPsStale (srcHub (m % 4)) (some m) []))) ∧
      (mKind p = 1 → endsHere s l p = true → p.prov = false →
        (xNmod y.config = 0 ∨ mSrc p ≠ xRootId y.config ∨ mSplot p ≠ xRplot y.config → exec (.normResult l p) s = after b) ∧
        (xNmod y.config ≠ 0 → mSrc p = xRootId y.config → mSplot p = xRplot y.config → y.collecting = true → mStep p = y.step →
          let bits := fieldN (leNat p.body) 0 32
          let s1 := signalRel (writeNorm b m y.config bits) m (xRpav y.config) (xRctr y.config) (xRinc y.config) ⟨4, m⟩
          exec (.normResult l p) s = after (modNorm s1 m (fun z => { z with
            collecting := false, last := BitVec.ofNat 32 bits, doneStep := some y.step,
            held := z.held.filter (fun e => decide (y.step.toNat < e.1.toNat)) })))) ∧
      (∀ k, routeOf s (some l) p = .out k → takes s k p →
        (mKind p = 0 → exec (.normPartial l p) s = after (queuedOn o k l p)) ∧
        (mKind p = 1 → exec (.normResult l p) s = after (queuedOn o k l p))))

/-! ### HBM (chapter 11) -/

/-- A region is written where the rules allow it, with a new interleave key, and what leaves it is scrubbed to zero (R274–R276); refresh,
patrol scrub, pressure, stack failure and temperature do what the rules give them (R278, R280, R281, Table 11.3). -/
def Obligations.MemoryServices : Prop :=
  ∀ (s : State) (q : KReq) (n stack : Nat) (v : BitVec 64),
    let t := stackAt s stack
    (admits s q (0x4000 + n) 0x04 false →
      let c := Instr.regionWrite q n v
      let gone := (regUnits (plotAt s n).region).filter (fun u => !(regUnits v).contains u)
      let s1 := scrubUnits s gone
      (field v 0 38 ≠ 0 ∨ 508 < regBase v + regSize v → notOk s c q stKioskRange) ∧
      (regionInRange v = true → (plotAt s n).loadState ≠ 0 → notOk s c q stKioskState) ∧
      (regionInRange v = true → (∃ m ∈ allPlots, m ≠ n ∧ regionsMeet v (plotAt s m).region = true) → notOk s c q stKioskState) ∧
      (regionInRange v = true → regionFits s n v = true → s.gate.entropyFailed = true → notOk s c q stKioskState) ∧
      (regionInRange v = true → regionFits s n v = true → s.gate.entropyFailed = false →
        okWith s c q (setPlot { s1 with gate := { s.gate with draws := s.gate.draws + 1 } } n { plotAt s n with
          region := v, ilvKey := Config.drbg s.gate.draws, ilvSerial := (plotAt s n).ilvSerial + 1, ilvTick := s.sd.ticks }))) ∧
    (∀ unit,
      (unit ∉ t.scrubbing → exec (.scrubComplete stack unit) s = .next (settle s)) ∧
      (unit ∈ t.scrubbing →
        let a := stack * 2 ^ 35 + unit * 2 ^ 26
        exec (.scrubComplete stack unit) s = .next { s with
          hbm := {
            mem := memZero s.hbm.mem a (2 ^ 26)
            badWords := s.hbm.badWords.filter (fun w => !(decide (a ≤ 32 * w) && decide (32 * w < a + 2 ^ 26)))
            stks := tblSet s.hbm.stks stack { t with scrubbing := t.scrubbing.filter (· != unit) } }
          tele := quiet s })) ∧
    (∀ channel bank,
      (t.state ≠ 1 → exec (.refresh stack channel bank) s = .next (settle s)) ∧
      (t.state = 1 → exec (.refresh stack channel bank) s = .next { s with
        hbm := { s.hbm with stks := tblSet s.hbm.stks stack { t with refreshing := some (channel, bank) } }
        sd := { s.sd with refreshes := s.sd.refreshes + 1 }, tele := quiet s })) ∧
    (∀ addr o, let y := stackAt s (addr / 2 ^ 35)
      (y.state ≠ 1 → exec (.patrolScrub addr o) s = .next (settle s)) ∧
      (y.state = 1 → s.hbm.badWords.contains (addr / 32) = false →
        exec (.patrolScrub addr .clean) s = .next (settle s) ∧
        exec (.patrolScrub addr .onDie) s = .next { s with
          hbm := { s.hbm with stks := tblSet s.hbm.stks (addr / 2 ^ 35) { y with corrected := y.corrected + 1 } }, tele := quiet s } ∧
        exec (.patrolScrub addr .corrected) s = .next { s with
          hbm := { s.hbm with stks := tblSet s.hbm.stks (addr / 2 ^ 35) { y with
            corrected := y.corrected + 1, lastError := BitVec.ofNat 64 addr } }
          tele := told s rkHbmCorrected (srcStack (addr / 2 ^ 35)) (plotOfAddr s addr) [] }) ∧
      (y.state = 1 → o = .uncorrectable ∨ s.hbm.badWords.contains (addr / 32) = true → inReserved addr = false →
        exec (.patrolScrub addr o) s = .next { s with
          hbm := {
            mem := s.hbm.mem
            badWords := if s.hbm.badWords.contains (addr / 32) then s.hbm.badWords else addNew s.hbm.badWords (addr / 32)
            stks := tblSet s.hbm.stks (addr / 2 ^ 35) { y with
              uncorrected := y.uncorrected + 1, lastError := BitVec.ofNat 64 (2 ^ 56 + addr) } }
          tele := told s rkHbmUncorrected (srcStack (addr / 2 ^ 35)) (plotOfAddr s addr) [] })) ∧
    (t.above < 4096 ∨ t.armed = false → exec (.hbmPressure stack) s = .next (settle s)) ∧
    (4096 ≤ t.above → t.armed = true → exec (.hbmPressure stack) s = .next { s with
      hbm := { s.hbm with stks := tblSet s.hbm.stks stack { t with armed := false, notices := t.notices + 1, below := 0 } }
      tele := told s rkHbmPressure (srcStack stack) (some t.topPlot) [(16, t.ratio.toNat)] }) ∧
    (t.state ≠ 1 → exec (.hbmStackFail stack) s = .next (settle s)) ∧
    (t.state = 1 → exec (.hbmStackFail stack) s = .next (settle (containedHold
      (emit (setStack s stack { t with state := 2 }) rkHbmStackFail (srcStack stack) none [])
      (allPlots.filter (fun m => (regStacks (plotAt s m).region).contains stack && decide (0 < regSize (plotAt s m).region))) hcMemory))) ∧
    (∀ mC : Int, exec (.stackTemperature stack mC) s = .next { s with
      hbm := { s.hbm with stks := tblSet s.hbm.stks stack { t with doubled := decide (85000 < mC) } }, tele := quiet s })

/-! ### Links (chapter 12) -/

/-- On an ACTIVE link a flit is taken in sequence, or answered with a NAK once per value in any 4 µs, or reported as a damaged ordered set (R288, R292, R293,
R297); a LINK set acknowledges and returns credits; a NAK, or 10 µs without progress, starts a replay, and the ninth in a row takes the
link down. On a link that is not ACTIVE none of these happens. -/
def Obligations.LinkFlits : Prop :=
  ∀ (s : State) (l : Nat),
    let x := linkAt s l
    let due : Prop := (x.rxAny = true ∧ x.ackSaid ≠ some x.seqRx) ∨ (∃ v, v < 8 ∧ tblGet 0 x.ret v ≠ tblGet 0 x.retSaid v)
    let put (y : Link) : Host.Outcome State Fault Refusal := .next (settle (setLink s l y))
    (active s l = false →
      (∀ bs cycle, exec (.flitReceive l ⟨bs, cycle⟩) s = .next (settle s)) ∧ (∀ a v r, exec (.linkSet l a v r) s = .next (settle s)) ∧
      exec (.linkSetDue l) s = .next (settle s) ∧ (∀ k, exec (.nak l k) s = .next (settle s)) ∧
      exec (.replayTimeout l) s = .next (settle s) ∧ (∀ b, exec (.heartbeat l b) s = .next (settle s))) ∧
    (active s l = true →
      (∀ (bs : List Byte) (cycle : Nat), bs.length = 256 →
        let c := Instr.flitReceive l ⟨bs, cycle⟩
        let h := flitHead bs
        let type := fieldN h 120 6
        let now := s.sd.tickCycle + BitVec.ofNat 64 cycle
        let answered := ∃ t, x.nakSaid = some (x.seqRx, t) ∧ (now - t).toNat < 7200
        let room (z : Link) (v : Nat) : Prop := (tblGet [] z.rx v).length < z.alloc.getD v 0
        let taken (z : Link) (v : Nat) : Link :=
          { z with rx := tblSet z.rx v (tblGet [] z.rx v ++ [bs]), rcvd := tblMod 0 z.rcvd v (· + 1) }
        let moved (z : Link) (g : Nat) : Host.Outcome State Fault Refusal :=
          .next (settle (movedBy (setLink s l z) (fieldN g 96 5) (BitVec.ofNat 8 (fieldN g 48 8)) (BitVec.ofNat 16 (fieldN g 32 16))))
        (fieldN h 126 2 = 0 → flitCrcOk bs = true → type ≤ 7 → exec c s = .next (settle s)) ∧
        (fieldN h 126 2 = 0 → flitCrcOk bs = false ∨ 7 < type →
          exec c s = .next { s with tele := told s rkLinkOsError (srcLink l) none [] }) ∧
        (fieldN h 126 2 ≠ 0 → flitCrcOk bs = false ∨ fieldN h 126 2 = 3 ∨ fieldN h 112 14 ≠ x.seqRx.toNat →
          (answered → exec c s = .next (settle s)) ∧
          (¬answered → exec c s =
            put { x with nakSaid := some (x.seqRx, now), osq := x.osq ++ [orderedSet 2 (natLe 2 x.seqRx.toNat)] })) ∧
        (flitCrcOk bs = true → fieldN h 112 14 = x.seqRx.toNat →
          let y := { x with seqRx := x.seqRx + 1, rxAny := true, nakSaid := none }
          (fieldN h 126 2 = 1 →
            let v := fieldN h 104 3
            (room y v → exec c s = moved (taken y v) h) ∧
            (¬room y v → exec c s = .next (settle (linkDown (setLink s l y) l stCreditOverrun true false)))) ∧
          (fieldN h 126 2 = 2 →
            let a := if fieldN h 97 1 = 1 then ackTo y (BitVec.ofNat 14 (fieldN h 98 14)) else y
            let z := retReport a (fieldN h 94 3) (BitVec.ofNat 16 (fieldN h 78 16))
            (∀ v g, payloadVc x (fieldN h 74 4) = some v → lastHeader x v = some g → room z v → exec c s = moved (taken z v) g) ∧
            (∀ v, payloadVc x (fieldN h 74 4) = some v → ¬room z v →
              exec c s = .next (settle (linkDown (setLink s l z) l stCreditOverrun true false)))))) ∧
      (∀ a v r, exec (.linkSet l a v r) s =
        put ((List.range 8).foldl (fun y k => retReport y k (r.getD k 0)) (if v then ackTo x a else x))) ∧
      ((due → exec (.linkSetDue l) s = put { x with
          osq := x.osq ++ [linkSetBytes x], retSaid := x.ret, ackSaid := if x.rxAny then some x.seqRx else x.ackSaid }) ∧
        (¬due → exec (.linkSetDue l) s = .next (settle s))) ∧
      (∀ k : BitVec 14, let i := (k - (x.seqTx - BitVec.ofNat 14 x.retry.length)).toNat
        (x.retry.length ≤ i → exec (.nak l k) s = .next (settle s)) ∧
        (i < x.retry.length → x.replays < 8 → exec (.nak l k) s =
          put { x with replay := x.retry.length - i, replays := x.replays + 1 }) ∧
        (i < x.retry.length → 8 ≤ x.replays → exec (.nak l k) s = .next (settle (linkDown s l stLinkRetryFail true false)))) ∧
      (x.retry = [] → exec (.replayTimeout l) s = .next (settle s)) ∧
      (x.retry ≠ [] → x.replays < 8 → exec (.replayTimeout l) s =
        put { x with replay := x.retry.length, replays := x.replays + 1 }) ∧
      (x.retry ≠ [] → 8 ≤ x.replays → exec (.replayTimeout l) s = .next (settle (linkDown s l stLinkRetryFail true false))) ∧
      (∀ b, let s1 := setLink s l { x with hbHeard := true, hbMissed := 0 }
        let s2 := { s1 with lodge := { s.lodge with suspects := s.lodge.suspects.filter (· != x.partner.extractLsb' 0 24) } }
        (hbPlot s (linkPort l) = none → exec (.heartbeat l b) s = .next (settle s2)) ∧
        (∀ n, hbPlot s (linkPort l) = some n →
          (b.epoch.toNat ≤ (plotAt s n).epoch.toNat → exec (.heartbeat l b) s = .next (settle s2)) ∧
          ((plotAt s n).epoch.toNat < b.epoch.toNat → exec (.heartbeat l b) s = .next (settle (sendPull s2 l n))))))

/-- Bring-up goes state by state from DETECT to ACTIVE, a failed attempt goes back to DETECT with its cause (R302), a failing lane is
spared and the link retrained or taken down (R287), and a link leaves ACTIVE with a cause (R303). -/
def Obligations.LinkStates : Prop :=
  ∀ (s : State) (l : Nat),
    let x := linkAt s l
    let put (y : Link) : Host.Outcome State Fault Refusal := .next (settle (setLink s l y))
    let stays (c : Instr) : Prop := exec c s = .next (settle s)
    let fails (c : Instr) (cause : U16) : Prop := exec c s = .next { s with
      net := { s.net with links := tblSet s.net.links l { x with state := 1 } }
      tele := told s rkLinkTrainFail (srcLink l) none [(16, cause.toNat)] }
    let falls (c : Instr) (cause : U16) (tell : Bool) : Prop := exec c s = .next (settle (linkDown s l cause tell false))
    (∀ st ∈ [(1, 2, Instr.linkSignalDetect l), (2, 3, Instr.trainDone l), (3, 4, Instr.alignDone l)],
      (x.state ≠ st.1 ∨ linkExists s l = false → stays st.2.2) ∧
      (x.state = st.1 → linkExists s l = true → st.1 ≠ 1 ∨ ((dieAt s (linkDie l)).failed = false ∧ (dieAt s (linkDie l)).testing = false) →
        exec st.2.2 s = put { x with state := st.2.1 })) ∧
    ((dieAt s (linkDie l)).failed = true ∨ (dieAt s (linkDie l)).testing = true → stays (.linkSignalDetect l)) ∧
    (∀ c, (x.state ≠ 4 → stays (.lanecheckDone l c)) ∧
      (x.state = 4 → c.channel ≠ [] →
        let r := spareLanes s l (sortNat c.serdes)
        exec (.lanecheckDone l c) s = .next (settle (trainFail r.1 l stLaneChannel)) ∧
        (c.serdes = [] → fails (.lanecheckDone l c) stLaneChannel)) ∧
      (x.state = 4 → c.channel = [] →
        let r := spareLanes s l (sortNat c.serdes)
        (r.2 = true → exec (.lanecheckDone l c) s = .next (settle (trainFail r.1 l stSpareNone))) ∧
        (r.2 = false → exec (.lanecheckDone l c) s = .next (settle (setLink { r.1 with out := r.1.out ++ [.wire l (paramBytes r.1 l)] } l
          { linkAt r.1 l with state := 5 })))) ∧
      (x.state = 4 → c.channel = [] → c.serdes ≠ [] → freeSpares s (linkDie l) = 0 → fails (.lanecheckDone l c) stSpareNone) ∧
      (x.state = 4 → c.channel = [] → c.serdes = [] → exec (.lanecheckDone l c) s =
        .next (settle (setLink { s with out := s.out ++ [.wire l (paramBytes s l)] } l { x with state := 5 }))) ∧
      (∀ a, x.state = 4 → c.channel = [] → c.serdes = [a] → freeSpares s (linkDie l) ≠ 0 → exec (.lanecheckDone l c) s = .next { s with
        net := { s.net with
          sparesUsed := tblMod 0 s.net.sparesUsed (linkDie l) (· + 1)
          links := tblSet s.net.links l { x with spared := setBit x.spared a true, state := 5 } }
        out := s.out ++ [.wire l (paramBytes s l)]
        tele := told s rkLaneSpared (srcLink l) none [] })) ∧
    (∀ b, (x.state ≠ 5 → stays (.param l b)) ∧
      (x.state = 5 → paramOk s l b = false → fails (.param l b) stLinkPartner) ∧
      (x.state = 5 → paramOk s l b = true → exec (.param l b) s = .next (settle (linkActive s l b)) ∧
        (maskOf s l = 0 →
          let y := linkAt (linkActive s l b) l
          y.state = 6 ∧ y.capacity.toNat = capacityOf (fullFrame s l) x.rtt.toNat % 2 ^ 32 ∧ y.alloc = allocOf s l ∧
          y.init = b.init.map (·.toNat) ∧ y.retry = [] ∧ y.pairs = [] ∧ y.seqTx = 0 ∧ y.seqRx = 0))) ∧
    (2 ≤ x.state ∧ x.state ≤ 5 → fails (.linkStateTimeout l) stOk) ∧
    (x.state < 2 ∨ 5 < x.state → stays (.linkStateTimeout l)) ∧
    (x.attempts = none ∨ 1 < x.state → stays (.linkReattempt l)) ∧
    (x.attempts = some 0 → x.state ≤ 1 → exec (.linkReattempt l) s = put { x with state := 7, attempts := none }) ∧
    (∀ k, x.attempts = some (k + 1) → x.state ≤ 1 → exec (.linkReattempt l) s = put { x with state := 1, attempts := some k }) ∧
    (active s l = false → (∀ a b, stays (.laneFail l a b)) ∧ stays (.laneRetrainDone l) ∧ (∀ a b, stays (.spare l a b)) ∧
      stays (.signalLost l) ∧ (∀ c, stays (.down l c))) ∧
    (active s l = true →
      (∀ a, falls (.laneFail l a true) stLaneChannel true) ∧
      (∀ a, freeSpares s (linkDie l) = 0 → falls (.laneFail l a false) stSpareNone true) ∧
      (∀ a, freeSpares s (linkDie l) ≠ 0 → exec (.laneFail l a false) s = .next { s with
        net := { s.net with
          sparesUsed := tblMod 0 s.net.sparesUsed (linkDie l) (· + 1)
          links := tblSet s.net.links l { x with spared := setBit x.spared a true, retrain := some a, osq := x.osq ++ [spareSet a 0] } }
        tele := told s rkLaneSpared (srcLink l) none [] }) ∧
      (x.retrain = none → stays (.laneRetrainDone l)) ∧
      (∀ a, x.retrain = some a → exec (.laneRetrainDone l) s =
        put { x with retrain := none, replay := x.retry.length, osq := x.osq ++ [spareSet a 1] }) ∧
      (∀ a : BitVec 16, a.toNat ≤ 15 → exec (.spare l a 0) s = put { x with stopped := true } ∧
        exec (.spare l a 1) s = put { x with stopped := false }) ∧
      (∀ (a : BitVec 16) b, 15 < a.toNat → stays (.spare l a b)) ∧
      falls (.signalLost l) stSignalLost true ∧ (∀ c, falls (.down l c) c false)) ∧
    (∀ (q : KReq) (n : Nat) (half : Bool), admits s q (0x3000 + n) 0x02 true → l = 2 * n + bit half →
      ((dieAt s (linkDie l)).testing = true → notOk s (.linkBringUp q n half) q stSelftestBusy) ∧
      (half = true → splitPort s n = false →
        ((dieAt s (linkDie l)).testing = false → notOk s (.linkBringUp q n half) q stKioskState) ∧ notOk s (.linkTakeDown q n half) q stKioskState) ∧
      (half = false ∨ splitPort s n = true → (dieAt s (linkDie l)).testing = false →
        (x.state = 0 ∨ x.state = 7 → okWith s (.linkBringUp q n half) q (setLink s l { x with state := 1, attempts := none })) ∧
        (x.state ≠ 0 → x.state ≠ 7 → okWith s (.linkBringUp q n half) q s)) ∧
      (half = false ∨ splitPort s n = true →
        (active s l = true → (∀ k, (sessAt s k).transport ≠ .inband) →
          okWith s (.linkTakeDown q n half) q (linkDown s l stLinkCommanded true true)) ∧
        (active s l = false →
          okWith s (.linkTakeDown q n half) q (setLink s l { x with state := 0, downCause := stLinkCommanded, attempts := none }))))

/-! ### The sender, routes and notices (chapter 13) -/

/-- At a free flit boundary a link sends an ordered set that is due, then a flit to be replayed with unchanged bytes, then a flit of the
packet that R323 chooses: VC0 before VC1 before the hierarchy (R293, R323). A key with no counter left ends its plot's sending (R301). A stopped link and a full retry buffer send no new flit. -/
def Obligations.LinkSender : Prop :=
  ∀ (s : State) (l : Nat),
    let x := linkAt s l
    let ready := startedFirst (x.txq.filter (canSend x))
    (active s l = false → exec (.linkSendSlot l) s = .next (settle s)) ∧
    (active s l = true →
      (∀ o r, x.osq = o :: r → exec (.linkSendSlot l) s = .next { s with
        out := s.out ++ [.wire l o], net := { s.net with links := tblSet s.net.links l { x with osq := r } }, tele := quiet s }) ∧
      (x.osq = [] →
        (x.stopped = true ∨ x.retrain ≠ none → exec (.linkSendSlot l) s = .next (settle s)) ∧
        (x.stopped = false → x.retrain = none →
          (∀ f, 0 < x.replay → x.retry[x.retry.length - x.replay]? = some f →
            let s1 := movedBy (setLink s l { x with replay := x.replay - 1, retried := x.retried + 1 }) f.plot f.opc f.tag
            exec (.linkSendSlot l) s = .next (settle { s1 with
              out := s1.out ++ [.wire l f.bytes], sd := { s1.sd with retried := s1.sd.retried + 1 } })) ∧
          (x.replay = 0 → retryDepth s l ≤ x.retry.length → exec (.linkSendSlot l) s = .next (settle s)) ∧
          (x.replay = 0 → x.retry.length < retryDepth s l →
            let s1 := exhaustKeys s l
            let z := linkAt s1 l
            ((∀ k ∈ x.keys, keyNeeded x k = false) → s1 = s) ∧
            (∀ t, ready.find? (fun t => t.pkt.vc == 0) = some t → s1 = s → exec (.linkSendSlot l) s = .next (settle (sendFlit s l x t))) ∧
            (∀ t, ready.find? (fun t => t.pkt.vc == 0) = none → ready.find? (fun t => t.pkt.vc == 1) = some t → s1 = s →
              exec (.linkSendSlot l) s = .next (settle (sendFlit s l x t))) ∧
            (∀ t y, pickNext s1 l z = (some t, y) → exec (.linkSendSlot l) s = .next (settle (sendFlit s1 l y t))) ∧
            (∀ y, pickNext s1 l z = (none, y) → exec (.linkSendSlot l) s = .next (settle (setLink s1 l y))))))) ∧
    (∀ k, x.keys = [k] → keyNeeded x k = true →
      exhaustKeys s l = containedHold (emit (setLink s l { x with keys := [{ k with stopped := true }] })
        rkLinkKeyExhausted (srcLink l) (some k.plot) [(16, stKeyExhausted.toNat)]) [k.plot] hcLink) ∧
    (∀ t : TxPkt, encrypted x t.pkt = false → t.sent = 0 → t.pkt.len = 0 → t.spray = none → x.txq = [t] → t.pkt.vc.toNat < 2 →
      rsvDue s l x t = none →
      let bytes := headerFlit t.pkt x.seqTx
      let y := { x with
        txq := [], seqTx := x.seqTx + 1, sent := tblMod 0 x.sent t.pkt.vc.toNat (· + 1)
        retry := x.retry ++ [TxFlit.mk bytes t.source t.pkt.plot.toNat t.pkt.opc t.pkt.tag] }
      sendFlit s l x t = movedBy { setLink s l y with out := s.out ++ [.wire l bytes] } t.pkt.plot.toNat t.pkt.opc t.pkt.tag)

/-- The route table, the direction map and the port mode are written under their conditions (R284, R313, R318); a stalled VC, a sprayed
range under pressure and a starved service are each reported once (R312, R317, R326). -/
def Obligations.RoutesAndNotices : Prop :=
  ∀ (s : State) (q : KReq),
    (∀ d all, admits s q 0x3400 0x01 false → wholeValue s q 0x3400 0x01 131088 d all →
      (∀ es, routeTable? s all = .ok es →
        domOk s (.routeTableWrite q d) q 0x3400 0x01 { s with route := { s.route with table := es, written := true, dirty := true } }) ∧
      (∀ st, routeTable? s all = .error st → domNotOk s (.routeTableWrite q d) q st)) ∧
    (∀ v : BitVec 256, admits s q 0x3400 0x02 false →
      (2 ^ 128 ≤ v.toNat → notOk s (.directionMapWrite q v) q stKioskRange) ∧
      (v.toNat < 2 ^ 128 → okWith s (.directionMapWrite q v) q { s with route := { s.route with dir := v, dirty := true } })) ∧
    (∀ (n : Nat) (v : BitVec 8), admits s q (0x3000 + n) 0x01 false →
      let free := (∀ l ∈ [2 * n, 2 * n + 1], (linkAt s l).state = 0 ∨ (linkAt s l).state = 7) ∧ plotsOfPort s n = []
      (1 < v.toNat → notOk s (.portModeWrite q n v) q stKioskRange) ∧
      (v.toNat ≤ 1 → ¬ free → notOk s (.portModeWrite q n v) q stKioskState) ∧
      (v.toNat ≤ 1 → free → awaitsSnapshot s (.portModeWrite q n v) q
        { slot := some q.slot, seq := q.seq, sel := 0
          entry := some { index := BitVec.ofNat 16 (0x3000 + n), sub := 0x01, value := natLe 1 v.toNat } }) ∧
      (∀ o : FlashObs, n < 64 → v.toNat ≤ 1 → free → s.journal.pend = [] → o.first = true ∨ o.second = true →
        ∃ t u, exec (.portModeWrite q n v) s = .next t ∧ exec (.snapshot o) t = .next u ∧ portAt u n = { portAt s n with mode := v })) ∧
    (∀ l vc, let x := linkAt s l
      (s.route.stallLimit.toNat ≤ tblGet 0 x.stall vc → vc ∉ x.stallSaid → exec (.routeStall l vc) s = .next { s with
        net := { s.net with links := tblSet s.net.links l { x with stallSaid := x.stallSaid ++ [vc] } }
        tele := told s rkRouteStall (srcLink l) none [(8, l), (3, vc)] }) ∧
      (tblGet 0 x.stall vc < s.route.stallLimit.toNat ∨ vc ∈ x.stallSaid → exec (.routeStall l vc) s = .next (settle s))) ∧
    (∀ e, let p := tblGet {} s.route.sprays e
      (4096 ≤ p.above → p.armed = true → exec (.sprayPressure e) s = .next { s with
        route := { s.route with sprays := tblSet s.route.sprays e { p with armed := false } }
        tele := told s rkSprayPressure srcModule (some p.plot) [(16, e), (16, p.ratio)] }) ∧
      (p.above < 4096 ∨ p.armed = false → exec (.sprayPressure e) s = .next (settle s))) ∧
    (∀ l sub cls, let x := linkAt s l
      (x.services.find? (fun v => v.sub == sub && v.cls == cls) = none → exec (.schedStarved l sub cls) s = .next (settle s)) ∧
      (∀ v, x.services.find? (fun v => v.sub == sub && v.cls == cls) = some v →
        (v.dry < s.route.starveLimit.toNat ∨ v.said = true → exec (.schedStarved l sub cls) s = .next (settle s)) ∧
        (s.route.starveLimit.toNat ≤ v.dry → v.said = false → exec (.schedStarved l sub cls) s = .next { s with
          net := { s.net with links := tblSet s.net.links l { x with
            services := x.services.map (fun w => if w.sub == sub && w.cls == cls then { w with said := true } else w) } }
          route := { s.route with notices := s.route.notices + 1 }
          tele := told s rkSchedStarved (srcLink l) (if sub < 32 then some sub else none) [(8, l), (8, sub), (2, cls), (32, v.dry)] })))

/-! ### Plots and the Gatehouse (chapter 14) -/

/-- Masks, seed and energy budget are written and plot commands accepted under their conditions; an accepted plot command waits for the
next tick (R18, R331, R332, R334, R341, R369, R397). -/
def Obligations.PlotObjects : Prop :=
  ∀ (s : State) (q : KReq) (n : Nat),
    let p := plotAt s n
    (∀ v : BitVec 256, admits s q (0x4000 + n) 0x02 false →
      let c := Instr.pavilionMaskWrite q n v
      ((∃ i, i < 256 ∧ v.getLsbD i = true ∧ s.enableMap.getLsbD i = false) → notOk s c q stKioskRange) ∧
      ((∀ i, i < 256 → v.getLsbD i = true → s.enableMap.getLsbD i = true) →
        (p.loadState ≠ 0 → notOk s c q stKioskState) ∧
        (p.loadState = 0 → (∃ i, i < 256 ∧ v.getLsbD i = true ∧
          (s.failedMap.getLsbD i = true ∨ ∃ m, m ≠ n ∧ maskOwner s i = some m)) → notOk s c q stKioskState) ∧
        (p.loadState = 0 → (∀ i, i < 256 → v.getLsbD i = true → s.failedMap.getLsbD i = false ∧ (∀ m, maskOwner s i = some m → m = n)) →
          (∃ i, i < 256 ∧ v.getLsbD i = true ∧ p.pavMask.getLsbD i = false ∧ (pavAt s i).testing = true) → notOk s c q stSelftestBusy) ∧
        (p.loadState = 0 → (∀ i, i < 256 → v.getLsbD i = true →
            s.failedMap.getLsbD i = false ∧ (∀ m, maskOwner s i = some m → m = n) ∧ (p.pavMask.getLsbD i = true ∨ (pavAt s i).testing = false)) →
          okWith s c q (setPavMask s n v) ∧ (plotAt (setPavMask s n v) n).pavMask = v ∧
            (plotAt (setPavMask s n v) n).pavSeen = p.pavSeen &&& v))) ∧
    (∀ v : BitVec 64, admits s q (0x4000 + n) 0x03 false →
      let t := setPlot s n { p with portMask := v }
      let added := (bitsSet v 64).filter (fun j => !p.portMask.getLsbD j)
      let kept := (bitsSet p.portMask 64).all (fun j => v.getLsbD j && added.all (fun a => decide (j < a)))
      (p.loadState ≠ 0 → kept = false → notOk s (.portMaskWrite q n v) q stKioskState) ∧
      (p.loadState = 0 ∨ kept = true →
        (added.any (portOver t) = true → notOk s (.portMaskWrite q n v) q stKioskState) ∧
        (added.any (portOver t) = false → (∃ j ∈ added, (dieAt s (j / 4)).testing = true) → notOk s (.portMaskWrite q n v) q stSelftestBusy) ∧
        (added.any (portOver t) = false → (∀ j ∈ added, (dieAt s (j / 4)).testing = false) → okWith s (.portMaskWrite q n v) q t))) ∧
    (admits s q (0x4000 + n) 0x10 true →
      ∀ c ∈ [(Instr.plotStart q n, PlotCmd.start, decide (p.state = 1) && decide ((domAt s n).state ≠ 3) && decide ((domAt s n).state ≠ 4)),
        (.suspend q n, .suspend, decide (p.state = 2)), (.plotResume q n, .resume, decide (p.state = 3)),
        (.plotReset q n, .reset, decide (p.state ≤ 3)),
        (.releaseHold q n, .release, p.held && (bitsSet p.causes 32).all (mayRelease s n))],
      (p.pendingCmd ≠ none → c.2.1 ≠ .reset → notOk s c.1 q stKioskPending) ∧
      (p.pendingCmd = none → c.2.2 = false → notOk s c.1 q stKioskState) ∧
      (p.pendingCmd = none ∨ c.2.1 = .reset → c.2.2 = true → okWith s c.1 q (setPlot s n { p with pendingCmd := some c.2.1 }))) ∧
    (∀ d all, admits s q (0x4000 + n) 0x06 false → wholeValue s q (0x4000 + n) 0x06 16 d all →
      (all.length ≠ 16 → domNotOk s (.jobSeedWrite q n d) q stKioskRange) ∧
      (all.length = 16 → 1 < p.state → domNotOk s (.jobSeedWrite q n d) q stKioskState) ∧
      (all.length = 16 → p.state ≤ 1 →
        domOk s (.jobSeedWrite q n d) q (0x4000 + n) 0x06 (setPlot s n { p with seed := BitVec.ofNat 128 (leNat all) }))) ∧
    (∀ v : BitVec 32, admits s q (0x4000 + n) 0x08 false →
      (moduleEnergy s.sd.period.toNat < v.toNat → notOk s (.energyBudgetWrite q n v) q stKioskRange) ∧
      (v.toNat ≤ moduleEnergy s.sd.period.toNat →
        ((∃ i ∈ admitted p, v.toNat < energyPeak i) → notOk s (.energyBudgetWrite q n v) q stKioskState) ∧
        ((∀ i ∈ admitted p, energyPeak i ≤ v.toNat) → okWith s (.energyBudgetWrite q n v) q (setPlot s n { p with energy := v }))))

/-- Key agreement of a link goes HELLO, RESPONSE, FINISH; a message out of turn or ill-formed, and 5 ms without agreement, fail it (R342,
R343); no RESPONSE is drawn once the entropy source has failed (R340); a key generation that was asked for is installed, up to 255
(R301). -/
def Obligations.KeyAgreement : Prop :=
  ∀ (s : State) (l : Nat) (m : KeyxMsg),
    let x := linkAt s l
    let after (c : Instr) (t : State) : Prop := exec c s = .next (settle t)
    let rows : List (Instr × KeyxState × List Nat × State) := [
      (.hello l m, .awaitHello, [1, 2, 4, 5, 6],
        if s.gate.entropyFailed then keyxFail s l else sendKeyx (setLink s l { x with keyx := .awaitFinish }) l 2),
      (.response l m, .awaitResponse, [1, 3, 4, 5, 6], keyxDone (sendKeyx s l 3) l),
      (.finish l m, .awaitFinish, [7], keyxDone s l)]
    (∀ r ∈ rows,
      (active s l = false ∨ x.keyx = .idle ∨ x.keyx = .failed → after r.1 s) ∧
      (active s l = true → x.keyx = r.2.1 → keyxOk m r.2.2.1 = true → after r.1 r.2.2.2) ∧
      (active s l = true → x.keyx = r.2.1 → keyxOk m r.2.2.1 = false → after r.1 (keyxFail s l)) ∧
      (active s l = true → x.keyx ∈ [KeyxState.awaitHello, .awaitResponse, .awaitFinish] → x.keyx ≠ r.2.1 → after r.1 (keyxFail s l)) ∧
      (active s l = true → x.keyx = .agreed → r.2.1 ≠ .awaitHello ∨ renewDue x = false → after r.1 s) ∧
      (active s l = true → x.keyx = .agreed → r.2.1 = .awaitHello → renewDue x = true → keyxOk m r.2.2.1 = true → after r.1 r.2.2.2)) ∧
    (active s l = true → x.keyx ∈ [KeyxState.awaitHello, .awaitResponse, .awaitFinish] → after (.keyAgreeTimeout l) (keyxFail s l)) ∧
    (active s l = false ∨ x.keyx ∉ [KeyxState.awaitHello, .awaitResponse, .awaitFinish] → after (.keyAgreeTimeout l) s) ∧
    (let t := emit s rkKeyAgreeFail (srcLink l) none []
     keyxFail s l = if x.keys.isEmpty then linkDown t l stKeyAgreeFail true false else setLink t l { x with keyx := .failed }) ∧
    (∀ n,
      ((∃ k ∈ x.keys, k.plot = n ∧ k.asked = true ∧ k.txGen ≠ 255) → after (.keyInstalled l n) (setLink s l { x with
        keys := x.keys.map (fun k => if k.plot = n ∧ k.asked = true ∧ k.txGen ≠ 255 then { k with nextReady := true, stopped := false } else k) })) ∧
      ((∀ k ∈ x.keys, k.plot = n → k.asked = true → k.txGen = 255) → after (.keyInstalled l n) s))

/-- The Gatehouse: ZEROISE waits for its marker and then takes the anchors and sets state 2, an attestation request keeps its nonce and its report has the layout of Table 14.9, a
failed entropy source fails once until power-good, and a lockstep failure is uncontained (R339, R340, R346, R347). -/
def Obligations.Gatehouse : Prop :=
  ∀ (s : State) (q : KReq),
    (∀ v : BitVec 8, admits s q 0x7000 0x20 true →
      (v ≠ 0x5A → notOk s (.zeroise q v) q stKioskRange) ∧
      (v = 0x5A → awaitsSnapshot s (.zeroise q v) q { slot := some q.slot, seq := q.seq, entry := none, zmark := some true } ∧
        (∀ o : FlashObs, s.journal.pend = [] → o.first = true ∨ o.second = true →
          ∃ t u, exec (.zeroise q v) s = .next t ∧ exec (.snapshot o) t = .next u ∧ u.gate.state = 2 ∧ u.gate.trust = []))) ∧
    (∀ d all, admits s q 0x7000 0x30 false → wholeValue s q 0x7000 0x30 32 d all →
      (all.length ≠ 32 → domNotOk s (.attestationRequest q d) q stKioskRange) ∧
      (all.length = 32 → domOk s (.attestationRequest q d) q 0x7000 0x30 { s with gate := { s.gate with nonce := some all, reporting := true } })) ∧
    (s.gate.nonce = none ∨ s.gate.reporting = false → exec .attestationReportReady s = .next (settle s)) ∧
    (∀ nonce, s.gate.nonce = some nonce → s.gate.reporting = true →
      let b := reportBody s nonce
      exec .attestationReportReady s = .next (settle (bumpChange { s with gate := { s.gate with
        reporting := false, report := b ++ padTo 96 (Config.ecdsaP384 b) ++ padTo 4627 (Config.mlDsa87 b) } } 0x7000 0x31))) ∧
    (s.gate.entropyFailed = false → exec .entropyFail s = .next { s with
      gate := { s.gate with entropyFailed := true }, tele := told s rkEntropyFail srcGate none [] }) ∧
    (s.gate.entropyFailed = true → exec .entropyFail s = .next (settle s)) ∧
    exec .lockstepFail s = .next (settle (uncontained (emit s rkLockstepFail srcGate none [])))

/-! ### The Kiosk (chapter 15) -/

/-- The checks of R359 in their order, for every write and command whose row names one object: the status of the first that fails, or a
message discarded unanswered; a refusal changes nothing else (R352). -/
def Obligations.KioskChecks : Prop :=
  ∀ (s : State) (q : KReq) (n : Nat) (d : DomSeg) (v8 : BitVec 8) (v32 : BitVec 32) (v64 : BitVec 64) (v256 : BitVec 256) (b : Bool) (e : StartEnv) (tag : BitVec 16),
    let x := sessAt s q.slot
    let rows : List (Instr × Nat × Nat × Bool) := [
      (.periodWrite q v8, 0x1200, 0x01, false), (.engineResume q tag, 0x5000, 0x05, true), (.counterAdjust q v32, 0x5000, 0x12, true),
      (.counterFlagClear q v8, 0x5000, 0x13, true), (.bankWrite q d, 0x5000, 0x0B, false), (.shardEntryWrite q d, 0x6000, 0x02, false),
      (.adoptLocal q, 0x6000, 0x08, true), (.normConfigWrite q d, 0x6000, 0x21, false), (.stepCounterWrite q n v64, 0x4000 + n, 0x05, false),
      (.regionWrite q n v64, 0x4000 + n, 0x04, false), (.routeTableWrite q d, 0x3400, 0x01, false),
      (.directionMapWrite q v256, 0x3400, 0x02, false), (.portModeWrite q n v8, 0x3000 + n, 0x01, false),
      (.pavilionMaskWrite q n v256, 0x4000 + n, 0x02, false), (.portMaskWrite q n v64, 0x4000 + n, 0x03, false),
      (.plotStart q n, 0x4000 + n, 0x10, true), (.energyBudgetWrite q n v32, 0x4000 + n, 0x08, false), (.zeroise q v8, 0x7000, 0x20, true),
      (.attestationRequest q d, 0x7000, 0x30, false), (.membershipTableWrite q d, 0x9100, 0x02, false),
      (.claimDead q v32, 0x9100, 0x09, true), (.moduleWarmReset q e, 0xA000, 0x20, true), (.pavilionReset q b, 0xA000, 0x20, true),
      (.engineReset q, 0xA000, 0x20, true), (.preferredSlotWrite q v8, 0xA000, 0x32, false)]
    ∀ r ∈ rows,
      let acc := objAcc r.2.1 r.2.2.1 x.role x.plot
      let may := if r.2.2.2 then acc = .cmd else acc.writes = true
      (q.wellFormed = false → notOk s r.1 q stKioskMalformed) ∧
      (q.wellFormed = true →
        (x.isOpen = false → exec r.1 s = .next { s with
          kiosk := { s.kiosk with refusals := s.kiosk.refusals + 1 }, tele := quiet s }) ∧
        (x.isOpen = true → x.transport = .inband → x.authed = false ∨ q.macOk = false ∨ q.mctr.toNat ≤ x.mctrIn.toNat → exec r.1 s = .next { s with
          kiosk := { s.kiosk with refusals := s.kiosk.refusals + 1 }, tele := told s rkKioskAuthFail srcMgmt none [] }) ∧
        (gateSession s q = .pass →
          (x.transport = .i3c → notOk s r.1 q stKioskAccess) ∧
          (x.transport ≠ .i3c → kioskReady s = false → notOk s r.1 q stKioskNotReady) ∧
          (x.transport ≠ .i3c → kioskReady s = true →
            (objExists r.2.1 r.2.2.1 = false → notOk s r.1 q stKioskNoObject) ∧
            (objExists r.2.1 r.2.2.1 = true →
              (¬ may → notOk s r.1 q stKioskAccess) ∧
              (may → s.gate.state = 2 → notOk s r.1 q stZeroised) ∧
              (may → s.gate.state ≠ 2 → ∀ k, ((objFind r.2.1 r.2.2.1).bind (fun o => o.ty.size)) = some k → q.len ≠ k →
                notOk s r.1 q stKioskType)))))

/-- OPEN_SESSION takes the lowest free slot of 0 to 6 for a chain that leads to an anchor list, AUTH binds an in-band session, and a session
ends by CLOSE, by command, by time and with its connection (R354–R356). -/
def Obligations.Sessions : Prop :=
  ∀ (s : State) (q : KReq) (c : ChainVerdict) (link k : Nat),
    let x := sessAt s q.slot
    let y := sessAt s k
    let opened (t : Transport) (z : Session) : Session := { z with
      transport := t, isOpen := true, sid := Config.sessionId (s.kiosk.sids + 1), opened := s.sd.ticks.extractLsb' 0 32 }
    let answerOk (p : BitVec 32) (body : List Byte) : List Out :=
      s.out ++ [.kiosk k { notify := false, seq := q.seq, status := stOk, param := p, body := body }]
    let turned (t : Transport) (st : U16) : Prop := exec (.openSession q t link c) s = .next { s with
      out := s.out ++ [.kiosk q.slot { notify := false, seq := q.seq, status := st }]
      kiosk := { s.kiosk with refusals := s.kiosk.refusals + 1 }, tele := quiet s }
    let closes (i : Instr) (slot : Nat) : Prop := exec i s = .next (settle (closeSlot s slot))
    (active s link = false → exec (.openSession q .inband link c) s = .next (settle s)) ∧
    (∀ t, t ≠ .inband ∨ active s link = true →
      (q.wellFormed = false → turned t stKioskMalformed) ∧
      (q.wellFormed = true → t = .i3c → turned t stKioskAccess) ∧
      (q.wellFormed = true → t ≠ .i3c → kioskReady s = false → turned t stKioskNotReady) ∧
      (q.wellFormed = true → t ≠ .i3c → kioskReady s = true → freeSlot s = none →
        exec (.openSession q t link c) s = .next { s with
          out := s.out ++ [.kiosk q.slot { notify := false, seq := q.seq, status := stSessionLimit }]
          kiosk := { s.kiosk with refusals := s.kiosk.refusals + 1 }, tele := told s rkSessionRefused srcMgmt none [] }) ∧
      (q.wellFormed = true → kioskReady s = true → freeSlot s = some k →
        (t = .tls0 ∨ t = .tls1 → bindRole s c = none → turned t stKioskAuth) ∧
        (∀ r n, t = .tls0 ∨ t = .tls1 → bindRole s c = some (r, n) → exec (.openSession q t link c) s = .next { s with
          out := answerOk (BitVec.ofNat 32 (k + 8 * roleCode r + 32 * n)) []
          kiosk := { s.kiosk with sids := s.kiosk.sids + 1, sessions := tblSet s.kiosk.sessions k (opened t { role := r, plot := n }) }
          tele := quiet s }) ∧
        (t = .inband → s.gate.state = 2 → turned t stKioskAuth) ∧
        (t = .inband → s.gate.state ≠ 2 → s.gate.entropyFailed = true → turned t stKioskState) ∧
        (t = .inband → s.gate.state ≠ 2 → s.gate.entropyFailed = false →
          let nonce : BitVec 256 := Config.drbg s.gate.draws ++ Config.drbg (s.gate.draws + 1)
          exec (.openSession q t link c) s = .next { s with
            out := answerOk (BitVec.ofNat 32 (k + 8 * roleCode .ob)) (natLe 32 nonce.toNat)
            gate := { s.gate with draws := s.gate.draws + 2 }
            kiosk := { s.kiosk with
              sids := s.kiosk.sids + 1
              sessions := tblSet s.kiosk.sessions k (opened t { link := link, nonce := nonce, mctrOut := 1 }) }
            tele := quiet s }))) ∧
    (q.wellFormed = true → x.isOpen = true → kioskReady s = true →
      (x.transport = .tls0 ∨ x.transport = .tls1 ∨ (x.transport = .inband ∧ x.authed = true) →
        exec (.auth q c) s = .next (settle (refuse s q stKioskState))) ∧
      (x.transport = .inband → x.authed = false →
        (bindRole s c = none → exec (.auth q c) s = .next (settle (refuse s q stKioskAuth))) ∧
        (∀ r n, bindRole s c = some (r, n) → exec (.auth q c) s =
          .next (settle (accept (setSess s q.slot { x with role := r, plot := n, authed := true }) q))))) ∧
    (gateSession s q = .pass → x.transport ≠ .i3c → kioskReady s = true →
      exec (.close q) s = .next (settle (closeSlot (accept (heardReq s q) q) q.slot))) ∧
    (∀ v : BitVec 8, admits s q 0x1100 0x05 true →
      (6 < v.toNat → notOk s (.closeSession q v) q stKioskRange) ∧
      (v.toNat ≤ 6 → (sessAt s v.toNat).isOpen = false → notOk s (.closeSession q v) q stKioskState) ∧
      (v.toNat ≤ 6 → (sessAt s v.toNat).isOpen = true →
        exec (.closeSession q v) s = .next (settle (closeSlot (accept (heardReq s q) q) v.toNat)))) ∧
    (y.isOpen = true → y.transport = .inband → y.authed = false → closes (.authTimeout k) k) ∧
    (y.isOpen = false ∨ y.transport ≠ .inband ∨ y.authed = true → exec (.authTimeout k) s = .next (settle s)) ∧
    (y.isOpen = true → closes (.sessionTimeout k) k) ∧ (y.isOpen = false → exec (.sessionTimeout k) s = .next (settle s)) ∧
    (y.isOpen = true → y.transport = .tls0 ∨ y.transport = .tls1 → closes (.tlsConnectionEnd k) k) ∧
    (y.isOpen = false ∨ (y.transport ≠ .tls0 ∧ y.transport ≠ .tls1) → exec (.tlsConnectionEnd k) s = .next (settle s)) ∧
    (k ≠ 7 → closeSlot s k = { s with
      kiosk := { s.kiosk with sessions := tblSet s.kiosk.sessions k {} }
      journal := { s.journal with pend := s.journal.pend.map (fun p => if p.slot = some k then { p with slot := none } else p) } }) ∧
    closeSlot s 7 = s

/-- Subscriptions are kept up to 32 a session, end by UNSUBSCRIBE, and give a notification when due, of which the queue of 64 keeps the
newest of each subscription (R360); a ring is read from a byte offset on, and records whose last byte is returned become read (R375). -/
def Obligations.SubscriptionsAndRings : Prop :=
  ∀ (s : State) (q : KReq) (index : BitVec 16) (sub : BitVec 8) (period : BitVec 32) (slot cls offset len : Nat),
    let x := sessAt s q.slot
    let h := heardReq s q
    let v := readObject h (sessAt h q.slot) q.slot index.toNat sub.toNat
    let others := x.subs.filter (fun u => !(u.index == index && u.sub == sub))
    let y := sessAt s slot
    (gateSession s q = .pass → x.transport ≠ .i3c → kioskReady s = true →
      (∀ st, subscribable x index.toNat sub.toNat = .error st → notOk s (.subscribe q index sub period) q st) ∧
      (subscribable x index.toNat sub.toNat = .ok () →
        (period ≠ 0 → period.toNat < 256 → notOk s (.subscribe q index sub period) q stKioskRange) ∧
        (period = 0 ∨ 256 ≤ period.toNat → 32 ≤ others.length → notOk s (.subscribe q index sub period) q stSubLimit) ∧
        (period = 0 ∨ 256 ≤ period.toNat → others.length < 32 → okWith s (.subscribe q index sub period) q (setSess s q.slot { x with
          subs := others ++ [{ index := index, sub := sub, period := period, since := s.sd.ticks, lastValue := v }] }))) ∧
      ((∀ u ∈ x.subs, u.index ≠ index ∨ u.sub ≠ sub) → notOk s (.unsubscribe q index sub) q stKioskState) ∧
      ((∃ u ∈ x.subs, u.index = index ∧ u.sub = sub) → okWith s (.unsubscribe q index sub) q (setSess s q.slot { x with subs := others }))) ∧
    (y.subs.find? (fun u => u.index == index && u.sub == sub) = none ∨ y.isOpen = false → exec (.notify slot index sub) s = .next (settle s)) ∧
    (∀ u, y.subs.find? (fun u => u.index == index && u.sub == sub) = some u → y.isOpen = true →
      let w := readObject s y slot index.toNat sub.toNat
      (u.period = 0 → w = u.lastValue → exec (.notify slot index sub) s = .next (settle s)) ∧
      (u.period ≠ 0 → s.sd.ticks.toNat < u.since.toNat + u.period.toNat → exec (.notify slot index sub) s = .next (settle s)) ∧
      ((u.period = 0 ∧ w ≠ u.lastValue) ∨ (u.period ≠ 0 ∧ u.since.toNat + u.period.toNat ≤ s.sd.ticks.toNat) →
        let m : KMsg := { notify := true, seq := 0, index := index, sub := sub, param := u.missed, body := w }
        let next := if u.period = 0 then u.since else u.since + BitVec.setWidth 64 u.period
        let upd (f : Sub → Sub) : List Sub := y.subs.map (fun z => if z.index = index ∧ z.sub = sub then f z else z)
        let queued (z : KMsg) : Prop := z.notify = true ∧ z.index = index ∧ z.sub = sub
        (y.outq.length < 64 → exec (.notify slot index sub) s = .next (settle (setSess s slot { y with
          subs := upd (fun z => { z with since := next, lastValue := w, missed := 0 }), outq := y.outq ++ [m]
          mctrOut := if y.transport = .inband then y.mctrOut + 1 else y.mctrOut }))) ∧
        (64 ≤ y.outq.length → (∃ z ∈ y.outq, queued z) → exec (.notify slot index sub) s = .next (settle (setSess s slot { y with
          subs := upd (fun z => { z with since := next, lastValue := w })
          outq := y.outq.map (fun z => if z.notify = true ∧ z.index = index ∧ z.sub = sub then { m with param := z.param } else z) }))) ∧
        (64 ≤ y.outq.length → (∀ z ∈ y.outq, ¬ queued z) → exec (.notify slot index sub) s = .next (settle (setSess s slot { y with
          subs := upd (fun z => { z with since := next, missed := z.missed + 1 }) }))))) ∧
    (gateSession s q = .pass →
      let r := sessAt h q.slot
      (ringReadable h r = false → exec (.ringRead q cls offset len) s = .next (settle (refuse h q stKioskNotReady))) ∧
      (ringReadable h r = true →
        let all := (ringOf s.tele cls).flatMap (fun r => recBytes r.rec_)
        let body := sliceB all offset (min len (bodyLimit x.transport))
        exec (.ringRead q cls offset len) s = .next (settle (sendMsg
          { h with tele := markRead s.tele cls (fun i _ => decide (offset < 32 * i + 32) && decide (32 * i + 32 ≤ offset + body.length)) } q.slot {
            notify := false, seq := q.seq, index := 0x8000, sub := BitVec.ofNat 8 (cls + 1), status := stOk
            param := tblGet 0 s.tele.ringPuts cls, last := decide (all.length ≤ offset + body.length), body := body }))))

/-- OBJECT_WRITE: a selector belongs to its session, an RW object takes its value at once, an RWS object waits for its snapshot; a value
outside its range is refused; what has a row of its own is left to it. -/
def Obligations.ObjectWrites : Prop :=
  ∀ (s : State) (q : KReq) (d : DomSeg),
    let x := sessAt s q.slot
    let v := leNat d.data
    let c (i : BitVec 16) (j : BitVec 8) : Instr := .objectWrite q i j false d
    let rws : List (BitVec 16 × BitVec 8 × Nat × Bool) := [
      (0x1100, 0x06, 4, decide (1000 ≤ v ∧ v ≤ 3600000)), (0x2000, 0x01, 1, decide (v ≤ 3)),
      (0x2000, 0x02, 4, decide (-1074 ≤ signedN 32 v ∧ signedN 32 v ≤ 417)), (0x3400, 0x03, 4, decide (v < 2 ^ 24)),
      (0x5900, 0x01, 4, true), (0x8000, 0x10, 4, decide (v < 2 ^ 24)), (0x8000, 0x11, 1, decide (v ≤ 15)),
      (0x9100, 0x06, 4, decide (100 ≤ v ∧ v ≤ 1500)), (0x9100, 0x07, 2, decide (1 ≤ v ∧ v ≤ 32))]
    let rw : List (BitVec 16 × BitVec 8 × Bool × State) := [
      (0x3400, 0x07, decide (v ≠ 0), { s with route := { s.route with stallLimit := BitVec.ofNat 32 v } }),
      (0x3500, 0x04, decide (v ≠ 0), { s with route := { s.route with starveLimit := BitVec.ofNat 32 v } }),
      (0x3500, 0x02, true, { s with route := { s.route with weights := tblSet s.route.weights x.subSel.toNat (BitVec.ofNat 16 v) } }),
      (0x5800, 0x06, true, { s with coll := { s.coll with relay := BitVec.ofNat 32 v } })]
    let sel : List (BitVec 16 × BitVec 8 × Bool × Session) := [
      (0x1100, 0x02, decide (v ≤ 7), { x with sessSel := BitVec.ofNat 8 v }), (0x3500, 0x05, decide (v ≤ 127), { x with linkSel := BitVec.ofNat 8 v }),
      (0x5000, 0x10, decide (v ≤ 63), { x with ctrSel := BitVec.ofNat 8 v }), (0x5800, 0x12, decide (v < 2 ^ 14), { x with trigSel := BitVec.ofNat 16 v }),
      (0x6800, 0x01, decide (v ≤ 7), { x with stackSel := BitVec.ofNat 8 v }), (0xA000, 0x10, decide (v ≤ 67), { x with sensSel := BitVec.ofNat 8 v })]
    (∀ r ∈ rws, admits s q r.1.toNat r.2.1.toNat false →
      (r.2.2.2 = false → notOk s (c r.1 r.2.1) q stKioskRange) ∧
      (r.2.2.2 = true → awaitsSnapshot s (c r.1 r.2.1) q
        { slot := some q.slot, seq := q.seq, sel := 0, entry := some { index := r.1, sub := r.2.1, value := natLe r.2.2.1 v } })) ∧
    (∀ r ∈ rw, admits s q r.1.toNat r.2.1.toNat false →
      (r.2.2.1 = false → notOk s (c r.1 r.2.1) q stKioskRange) ∧ (r.2.2.1 = true → okWith s (c r.1 r.2.1) q r.2.2.2)) ∧
    (∀ r ∈ sel, admits s q r.1.toNat r.2.1.toNat false →
      (r.2.2.1 = false → notOk s (c r.1 r.2.1) q stKioskRange) ∧
      (r.2.2.1 = true → okWith s (c r.1 r.2.1) q (setSess s q.slot r.2.2.2))) ∧
    (∀ i j, writeRow i.toNat j.toNat = true → exec (c i j) s = .next (settle s)) ∧
    (∀ i j, commandRow i.toNat j.toNat v = true → exec (.objectWrite q i j true d) s = .next (settle s))

/-- The period and the preferred slot wait for their snapshots, which put them in force (R41, R408); a snapshot commits its value and answers its writer, or after
two failed verifies leaves the old set in force (R362, R364); records are exported and an incident's tail window leaves at its end (R372,
R374). -/
def Obligations.JournalAndExport : Prop :=
  ∀ (s : State) (q : KReq) (v : BitVec 8) (o : FlashObs) (link : Option Nat) (plot : Option Nat),
    let waits (i : Instr) (index : BitVec 16) (sub : BitVec 8) : Prop := awaitsSnapshot s i q
      { slot := some q.slot, seq := q.seq, sel := 0, entry := some { index := index, sub := sub, value := natLe 1 v.toNat } }
    (admits s q 0x1200 0x01 false →
      (2 < v.toNat → notOk s (.periodWrite q v) q stKioskRange) ∧
      (v.toNat ≤ 2 → (∃ n ∈ allPlots, (plotAt s n).loadState ≠ 0) → notOk s (.periodWrite q v) q stKioskState) ∧
      (v.toNat ≤ 2 → (∀ n ∈ allPlots, (plotAt s n).loadState = 0) → waits (.periodWrite q v) 0x1200 0x01 ∧
        (s.journal.pend = [] → o.first = true ∨ o.second = true → ∃ t u, exec (.periodWrite q v) s = .next t ∧ exec (.snapshot o) t = .next u ∧
          u.sd = { s.sd with period := v, periodSet := true } ∧ u.journal.pend = []))) ∧
    (admits s q 0xA000 0x32 false →
      let image := if v = 0 then s.power.versionA else s.power.versionB
      (1 < v.toNat → notOk s (.preferredSlotWrite q v) q stKioskRange) ∧
      (v.toNat ≤ 1 → image = 0 → notOk s (.preferredSlotWrite q v) q stKioskState) ∧
      (v.toNat ≤ 1 → image ≠ 0 → waits (.preferredSlotWrite q v) 0xA000 0x32 ∧
        (s.journal.pend = [] → o.first = true ∨ o.second = true → ∃ t u, exec (.preferredSlotWrite q v) s = .next t ∧
          exec (.snapshot o) t = .next u ∧ u.power = { s.power with preferred := v } ∧ u.journal.pend = []))) ∧
    (s.journal.pend = [] → exec (.snapshot o) s = .next (settle s)) ∧
    (∀ p r e, s.journal.pend = p :: r → p.entry = some e → p.zmark = none → o.first = true ∨ o.second = true →
      let s0 := { s with journal := { s.journal with pend := r } }
      let s1 := rwsPut s0 e.index.toNat e.sub.toNat p.sel e.value
      let s2 := { s1 with journal := runSnapshot s1.journal true s.sd.boot s.journal.zmark (rwsSet s1) }
      (objFind e.index.toNat e.sub.toNat).any (fun x => x.ty == .domain) = false →
        exec (.snapshot o) s = .next (settle (answerPend s2 p stOk))) ∧
    (∀ p r, s.journal.pend = p :: r → o.first = false → o.second = false →
      let j := { s.journal with pend := r }
      let s1 := { s with journal := if targetB j then { j with b := {} } else { j with a := {} } }
      exec (.snapshot o) s = .next (settle (answerPend (emit s1 rkJournalWriteFail srcMgmt none []) p stJournalFail))) ∧
    (s.tele.collector = 0x00FFFFFF ∨ s.tele.toSend = [] → exec (.telemetryExport link) s = .next (settle s)) ∧
    (s.tele.collector ≠ 0x00FFFFFF → s.tele.toSend ≠ [] →
      let rs := s.tele.toSend.take 120
      let p := telemetryPkt s rs
      let t := (List.range 4).foldl (fun t c => markRead t c (fun _ r => rs.contains r.rec_)) { s.tele with toSend := s.tele.toSend.drop 120 }
      (∀ l, link = some l → routeOf s none p ≠ .out l → exec (.telemetryExport link) s = .next (settle s)) ∧
      (link = none ∨ (∃ l, link = some l ∧ routeOf s none p = .out l) →
        exec (.telemetryExport link) s = .next (settle (sendOut { s with tele := t } none p)))) ∧
    (s.tele.incidents.find? (fun i => i.plot == plot) = none → exec (.incidentEnd plot) s = .next (settle s)) ∧
    (∀ i, s.tele.incidents.find? (fun i => i.plot == plot) = some i →
      (s.sd.ticks.toNat < i.last.toNat + 4096 → exec (.incidentEnd plot) s = .next (settle s)) ∧
      (i.last.toNat + 4096 ≤ s.sd.ticks.toNat → exec (.incidentEnd plot) s = .next (settle { s with
        tele := i.tail.foldl (fun t r => collectTele (stageRec t r))
          { s.tele with incidents := s.tele.incidents.filter (fun j => j.plot != plot) } })))

/-- A record of class B, C or D carries its tick, boot count, epoch, source, sequence number and packed arguments, and reaches the ring of its class
(R371–R373, R375). -/
def Obligations.RecordsReachTheirRing : Prop :=
  ∀ (s : State) (k : RecKind) (src : Src) (plot : Option Nat) (args : List (Nat × Nat)),
    (∀ g ∈ s.tele.stages, g.staged = []) → 1 ≤ k.cls → k.cls ≤ 3 → (ringOf s.tele k.cls).length < ringCap k.cls →
      let r : Rec := {
        tick := s.sd.ticks, boot := s.sd.boot, code := k.code, epoch := (match plot with | some n => (plotAt s n).epoch | none => 0)
        cls := k.cls, plot := plot, src := src, sseq := (stageOf s.tele src).sseq, count := 1, arg := BitVec.ofNat 64 (packArgs 0 args) }
      let t := (settle (emit s k src plot args)).tele
      ringOf t k.cls = ringOf s.tele k.cls ++ [{ rec_ := r }] ∧ (∀ c, c ≤ 3 → c ≠ k.cls → ringOf t c = ringOf s.tele c) ∧
      (stageOf t src).sseq = r.sseq + 1 ∧ t.emitted = s.tele.emitted + 1 ∧
      t.toSend = (if s.tele.collector ≠ 0x00FFFFFF ∧ s.tele.classes.getLsbD k.cls = true then s.tele.toSend ++ [r] else s.tele.toSend) ∧
      t.lossB = s.tele.lossB ∧ t.lossC = s.tele.lossC ∧ t.lossD = s.tele.lossD

/-- The Gatehouse SRAM keeps the 64 most recent A records of the module; a module warm reset leaves them, and 0x9000:01 reads them oldest
first (R376). -/
def Obligations.RecentRecordsAreKept : Prop :=
  ∀ (s : State) (k : RecKind) (src : Src) (plot : Option Nat) (args : List (Nat × Nat)) (x : Session) (slot : Nat),
    let r : Rec := {
      tick := s.sd.ticks, boot := s.sd.boot, code := k.code, epoch := (match plot with | some n => (plotAt s n).epoch | none => 0)
      cls := k.cls, plot := plot, src := src, sseq := (stageOf s.tele src).sseq, count := 1, arg := BitVec.ofNat 64 (packArgs 0 args) }
    let t := settle (emit s k src plot args)
    (k.cls = 0 → t.tele.kept = (s.tele.kept ++ [r]).drop (s.tele.kept.length + 1 - 64)) ∧
    (k.cls ≠ 0 → t.tele.kept = s.tele.kept) ∧
    (s.tele.kept.length ≤ 64 → t.tele.kept.length ≤ 64) ∧
    (warmState s).tele.kept = s.tele.kept ∧
    readObject s x slot 0x9000 0x01 = s.tele.kept.flatMap recBytes

/-! ### The Lodge (chapter 16) -/

/-- What a LODGE packet of each type does at a module whose table has its DOMAIN: accusations are held and flooded on, the lowest proposal
is acknowledged, acknowledgements and commits are kept, NOQUORUM holds the plot, a PULL is answered with kept commits, and a PROBE with its
reply (R379–R386). One of another DOMAIN is discarded, and one for another module is switched. -/
def Obligations.LodgePackets : Prop :=
  ∀ (s : State) (l : Nat) (p : Pkt), passes s l p → p.opc = opLodge →
    let after (c : Instr) (t : State) : Prop := exec c s = .next (settle (freeRx t l p))
    let rows : List (Nat × Instr) := [(0, .accuse l p), (1, .propose l p), (2, .ack l p), (3, .commit l p), (4, .noquorum l p), (5, .pull l p),
      (6, .probe l p), (7, .probeReply l p)]
    (∀ r ∈ rows,
      (lType p ≠ r.1 → exec r.2 s = .next (settle s)) ∧
      (lType p = r.1 → endsHere s l p = true → lodgePlot s p = none → after r.2 s) ∧
      (lType p = r.1 → ∀ k, routeOf s (some l) p = .out k → takes s k p → after r.2 (queuedOn s k l p))) ∧
    (∀ n, endsHere s l p = true → lodgePlot s p = some n →
      let d := domAt s n
      let e := (plotAt s n).epoch.toNat
      let on := forward s n l p true
      let sends (t : State) (type subj : Nat) : State := sendOut t none
        (lodgePkt t n (lOrigin p) type (lEpoch p) (selfId s).toNat d.self subj 0 false [])
      let opened := d.state = 1 ∨ d.state = 2
      (lType p = 0 →
        (lEpoch p ≠ e ∨ ¬ opened → after (.accuse l p) on) ∧
        (lEpoch p = e → opened → e ≠ 0xFFFE →
          after (.accuse l p) (modDom on n (fun d => { d with accusals := addNew d.accusals (lSubj p, lOidx p) })))) ∧
      (lType p = 1 →
        (lEpoch p ≠ e + 1 ∨ ¬ opened ∨ (∃ o, d.proposed = some o ∧ o < lOidx p) → after (.propose l p) s) ∧
        (lEpoch p = e + 1 → opened → d.proposed = some (lOidx p) → after (.propose l p) on) ∧
        (lEpoch p = e + 1 → opened → (∀ o, d.proposed = some o → lOidx p < o) →
          after (.propose l p) (sends (modDom on n (fun d => { d with proposed := some (lOidx p), round := none, state := 2 })) 2 0x3FFFF))) ∧
      (lType p = 2 →
        (d.round = none → after (.ack l p) s) ∧
        (∀ r, d.round = some r →
          (r.epoch.toNat ≠ lEpoch p → after (.ack l p) s) ∧
          (r.epoch.toNat = lEpoch p → after (.ack l p) (setDom s n { d with round := some { r with acks := addNew r.acks (lOidx p) } })))) ∧
      (lType p = 3 →
        (lEpoch p ≠ e + 1 ∨ d.state = 4 → after (.commit l p) on) ∧
        (lEpoch p = e + 1 → d.state ≠ 4 →
          after (.commit l p) (modDom on n (fun d => { d with coming := some (takePart d.coming p) })))) ∧
      (lType p = 4 →
        (lEpoch p ≠ e + 1 ∨ ¬ opened → after (.noquorum l p) on) ∧
        (lEpoch p = e + 1 → opened →
          after (.noquorum l p) (emit (modDom (raiseHold on n hcNoQuorum) n (fun d => { d with state := 3, round := none }))
            rkLodgeNoQuorum srcModule (some n) [(16, stNoQuorum.toNat)]))) ∧
      (lType p = 5 →
        (e ≤ lEpoch p → after (.pull l p) s) ∧
        (lEpoch p < e → after (.pull l p)
          ((d.kept.filter (fun c => decide (lEpoch p < c.epoch.toNat))).foldl (fun s c => resend s n l c) s))) ∧
      (lType p = 6 → after (.probe l p) (sends s 7 (lSubj p))) ∧
      (lType p = 7 →
        (∀ m t, d.probe = some (m, t) → m = lSubj p → m = lOidx p →
          after (.probeReply l p) (emit (setDom s n { d with probe := none, claim := 1 }) rkLodgeClaim srcModule (some n) [])) ∧
        (d.probe = none → after (.probeReply l p) s) ∧
        (∀ m t, d.probe = some (m, t) → m ≠ lSubj p ∨ m ≠ lOidx p → after (.probeReply l p) s)))

/-- A neighbour silent for four heartbeats is accused in every domain that lists both (R378); the warden, or after the takeover delay
another module, starts a round, which closes with COMMIT or NOQUORUM (R380–R382); a complete COMMIT is adopted at the tick, or fences this
member (R383).

A membership table is taken while the load state is 0, and the Lodge runs at its epoch (R377); a claim that a member is dead probes
it, and a claim that a dead member is alive is refused with EPOCH_FENCED (R386). -/
def Obligations.LodgeRounds : Prop :=
  (∀ (s : State) (n : Nat),
     let d := domAt s n
     let e := (plotAt s n).epoch.toNat
     let stays (c : Instr) : Prop := exec c s = .next (settle s)
     let begun := floodMap (setDom s n { d with
       state := 2, proposed := some d.self
       round := some { epoch := BitVec.ofNat 16 (e + 1), suspects := accused d, acks := [], started := s.sd.ticks } }) n 1 (e + 1) (accused d)
     (∀ epid,
       (silent s epid = false ∨ epid ∈ s.lodge.suspects → stays (.neighbourSuspect epid)) ∧
       (silent s epid = true → epid ∉ s.lodge.suspects → exec (.neighbourSuspect epid) s = .next (settle (allPlots.foldl (fun s k => accuseIn s k epid)
         (emit { s with lodge := { s.lodge with suspects := s.lodge.suspects ++ [epid] } } rkLodgeSuspect srcModule none []))))) ∧
     (mayRound s n = false → stays (.roundStart n) ∧ stays (.roundTakeover n)) ∧
     (mayRound s n = true →
       (wardenOf d = some d.self → exec (.roundStart n) s = .next (settle begun) ∧ stays (.roundTakeover n)) ∧
       (wardenOf d ≠ some d.self → stays (.roundStart n) ∧
         (d.accusedTicks < s.lodge.takeover.toNat → stays (.roundTakeover n)) ∧
         (s.lodge.takeover.toNat ≤ d.accusedTicks →
           exec (.roundTakeover n) s = .next (settle (emit begun rkLodgeTakeover srcModule (some n) []))))) ∧
     (∀ late, (d.round = none → stays (.roundClose n late)) ∧
       (∀ r, d.round = some r →
         (late = false ∨ windowEnded s r = false → allAcked d r = false → stays (.roundClose n late)) ∧
         ((late = true ∧ windowEnded s r = true) ∨ allAcked d r = true →
           let present := (aliveOf d).filter (fun i => i == d.self || r.acks.contains i)
           let dead := (List.range d.members.length).filter (fun i => !present.contains i)
           let s1 := setDom s n { d with round := none }
           let majority := (aliveOf d).length < 2 * present.length ∧
             ∀ i ∈ aliveOf d, ∀ m, d.members[i]? = some m → m.ps = true → i ∈ present ∨ m.twin ∈ present
           (majority → exec (.roundClose n late) s = .next (settle (modDom (floodMap s1 n 3 r.epoch.toNat dead) n (fun y => { y with
             coming := some {
               epoch := r.epoch, origin := selfId s, oidx := d.self, dead := dead, parts := List.range (nParts d.members.length)
               last := some (nParts d.members.length - 1) } })))) ∧
           (¬ majority → exec (.roundClose n late) s = .next (settle (emit (modDom (raiseHold
             (originate s1 n (lodgePkt s1 n 0xFFFFFE 4 r.epoch.toNat (selfId s).toNat d.self 0x3FFFF 0 false [])) n hcNoQuorum) n
             (fun y => { y with state := 3, round := none })) rkLodgeNoQuorum srcModule (some n) [(16, stNoQuorum.toNat)])))))) ∧
     (d.coming = none → stays (.epochAdopt n)) ∧
     (∀ c, d.coming = some c →
       (complete c = false ∨ (plotAt s n).pendHold ≠ 0 → stays (.epochAdopt n)) ∧
       (complete c = true → (plotAt s n).pendHold = 0 → d.self ∈ c.dead →
         exec (.epochAdopt n) s = .next { s with
           plots := tblSet s.plots n { plotAt s n with pendHold := setBit 0 hcFenced true }
           lodge := { s.lodge with domains := tblSet s.lodge.domains n { d with state := 4, coming := none, round := none } }
           tele := told s rkLodgeFenced srcModule (some n) [] }) ∧
       (complete c = true → (plotAt s n).pendHold = 0 → d.self ∉ c.dead →
         let s1 := setPlot s n { plotAt s n with epoch := c.epoch, pendHold := setBit 0 hcMemberLost true }
         ∃ t, exec (.epochAdopt n) s = .next (settle (t.shards.foldl (fun y e => if ePlot e.2.entry = n then compareShard y e.1 else y) t)) ∧
           t.plots = s1.plots ∧ t.shards = s.shards ∧ t.tele = (emit s1 rkLodgeCommit srcModule (some n) []).tele ∧
           domAt t n = { d with
             dead := c.dead.foldl addNew d.dead, state := if d.state = 2 then 1 else d.state, coming := none, accusals := [], accusedTicks := 0
             proposed := none, round := none, seen := d.seen.filter (fun k => decide (c.epoch.toNat ≤ k.2.1))
             kept := (d.kept ++ [c]).drop (d.kept.length + 1 - 16), decisions := d.decisions + 1, lastDecision := s.sd.ticks })) ∧
     (∀ m t, d.probe = some (m, t) →
       (s.sd.ticks.toNat < t.toNat + 16 → stays (.probeTimeout n)) ∧
       (t.toNat + 16 ≤ s.sd.ticks.toNat → exec (.probeTimeout n) s = .next { s with
         lodge := { s.lodge with domains := tblSet s.lodge.domains n { d with probe := none, claim := 2 } }
         tele := told s rkLodgeClaim srcModule (some n) [] })) ∧
     (d.probe = none → stays (.probeTimeout n))) ∧
  (∀ (s : State) (q : KReq),
     let n := (sessAt s q.slot).domSel.toNat
     let d := domAt s n
     (∀ g all, admits s q 0x9100 0x02 false → wholeValue s q 0x9100 0x02 2097160 g all →
       let h := numAt all 0 16
       (tableOk s all = false → domNotOk s (.membershipTableWrite q g) q stKioskRange) ∧
       (tableOk s all = true → (plotAt s n).loadState ≠ 0 → domNotOk s (.membershipTableWrite q g) q stKioskState) ∧
       (tableOk s all = true → (plotAt s n).loadState = 0 → domOk s (.membershipTableWrite q g) q 0x9100 0x02
         (setPlot (setDom s n {
           bytes := all, id := BitVec.ofNat 32 (fieldN h 96 32), self := fieldN h 60 18
           members := ((pieces 8 (all.drop 16)).map leNat).map memberOfEntry, state := 1, claim := d.claim, drops := d.drops
           decisions := d.decisions, lastDecision := d.lastDecision }) n { plotAt s n with epoch := BitVec.ofNat 16 (fieldN h 44 16) }))) ∧
     (∀ v : BitVec 32, admits s q 0x9100 0x09 true →
       let m := field v 0 18
       let x := sessAt s q.slot
       ∀ c ∈ [Instr.claimDead q v, Instr.claimAlive q v],
         (ownsPlot x n = false → notOk s c q stKioskAccess) ∧
         (ownsPlot x n = true → field v 18 13 ≠ 0 → notOk s c q stKioskRange) ∧
         (ownsPlot x n = true → field v 18 13 = 0 →
           (d.state = 0 ∨ d.members.length ≤ m → notOk s c q stKioskState) ∧
           (d.state ≠ 0 → m < d.members.length →
             (bitAt v 31 = true → m ∉ d.dead → okWith s c q s) ∧
             (bitAt v 31 = true → m ∈ d.dead → exec c s = .next (settle
               (emit (refuse (heardReq s q) q stEpochFenced) rkLodgeClaim srcModule (some n) []))) ∧
             (bitAt v 31 = false → m = d.self → okWith s c q
               (emit (setDom s n { d with probe := none, claim := 1 }) rkLodgeClaim srcModule (some n) [])) ∧
             (∀ e, bitAt v 31 = false → m ≠ d.self → d.members[m]? = some e → okWith s c q
               (sendOut (setDom s n { d with probe := some (m, s.sd.ticks), claim := 0 }) none
                 (lodgePkt s n e.epid 6 (plotAt s n).epoch.toNat (selfId s).toNat d.self m 0 false [])))))))

/-! ### Power, temperature and resets (chapter 17) -/

/-- Input power, coolant and temperature: main power starts the module, what leaves its range is reported at most once in 4,096 ticks,
105 °C holds every plot, 115 °C and a loss of power leave only the carrier's flash and the fuses (R395, R398–R401, R406). -/
def Obligations.PowerAndTemperature : Prop :=
  ∀ (s : State),
    let stays (c : Instr) : Prop := exec c s = .next (settle s)
    let due (said : Option (BitVec 64)) : Prop := ∀ t, said = some t → t.toNat + 4096 ≤ s.sd.ticks.toNat
    (∀ env : StartEnv, (s.power.pg = true ∨ env.reached < 3 → stays (.powerGood env)) ∧
      (s.power.pg = false →
        let p := { s.power with pg := true, status := stOk, stopped := false, step := 3 }
        let s0 := { s with sd := { s.sd with boot := nextBoot s }, power := p }
        (3 ≤ env.reached → exec (.powerGood env) s = .next (settle (startFrom { s0 with power := { p with step := 2 } } env true 3))) ∧
        (env.reached = 3 → env.hotJunction = false → exec (.powerGood env) s = .next { s0 with tele := quiet s }) ∧
        (env.reached = 3 → env.hotJunction = true → exec (.powerGood env) s = .next (settle (stopStart s0 stStartupThermal))) ∧
        (3 < env.reached → env.katFail = true → exec (.powerGood env) s = .next (settle (stopStart
          (emit { s0 with gate := { s.gate with state := 1, status := stKatFail } } rkKatFail srcGate none []) stKatFail))) ∧
        (∀ v svn, 10 < env.reached → env.katFail = false → env.slotA = .good v svn → env.slotB = .good v svn →
          s.gate.rollback.toNat ≤ svn.toNat → env.fuseOk = true → env.bistHub = false → env.tallyOk = true → env.snapshotOk = true →
          ∃ t, exec (.powerGood env) s = .next t ∧ t.power.step = 11 ∧ t.power.stopped = false ∧ t.power.status = stOk ∧ kioskReady t = true ∧
            t.enableMap = s.enableMap))) ∧
    (s.power.pg = true → 3 ≤ s.power.step → s.power.step ≤ 10 → s.power.stopped = false →
      exec .startupTimeout s = .next (settle (stopStart s stStartupTimeout))) ∧
    (s.power.pg = false ∨ s.power.step < 3 ∨ 10 < s.power.step ∨ s.power.stopped = true → stays .startupTimeout) ∧
    (∀ st, stopStart s st = { s with
      power := { s.power with stopped := true, status := st }
      net := { s.net with links := s.net.links.map (fun e => (e.1, { clearLink e.2 with state := 0 })) }
      tele := (emit s rkStartupFail srcModule none []).tele }) ∧
    (∀ v : BitVec 32, let odd := (44000 ≤ v.toNat ∧ v.toNat < 48000) ∨ (60000 < v.toNat ∧ v.toNat ≤ 62000)
      (s.power.pg = false ∨ ¬ odd → stays (.vinRange v)) ∧
      (s.power.pg = true → odd → due s.power.vinSaid → exec (.vinRange v) s = .next { s with
        power := { s.power with millivolts := v, vinSaid := some s.sd.ticks }, tele := told s rkVinRange srcModule none [(32, v.toNat)] }) ∧
      (s.power.pg = true → odd → ¬ due s.power.vinSaid → exec (.vinRange v) s = .next { s with
        power := { s.power with millivolts := v }, tele := quiet s })) ∧
    (∀ (inlet : Int) (flow : BitVec 32), let odd := 40000 < inlet ∨ flow.toNat < 3000
      (s.power.pg = false → stays (.coolantWarn inlet flow)) ∧
      (s.power.pg = true → odd → due s.power.coolantSaid → exec (.coolantWarn inlet flow) s = .next { s with
        power := { s.power with inlet := inlet, flow := flow, coolantSaid := some s.sd.ticks }
        tele := told s rkCoolantWarn srcModule none [] }) ∧
      (s.power.pg = true → ¬ odd ∨ ¬ due s.power.coolantSaid → exec (.coolantWarn inlet flow) s = .next { s with
        power := { s.power with inlet := inlet, flow := flow }, tele := quiet s })) ∧
    (∀ rs : List Reading, let s1 := takeReadings s rs
      let hotOne := rs.find? (fun r => decide (r.sensor < 68) && decide (105000 < r.mC))
      (s.power.pg = false → stays (.sensorConversion rs)) ∧
      (s.power.pg = true → hotOne = none → exec (.sensorConversion rs) s = .next (settle s1)) ∧
      (∀ r, s.power.pg = true → hotOne = some r →
        (kioskReady s = true → s.power.hot = true → exec (.sensorConversion rs) s = .next (settle (plainHold s1 allPlots hcThermal))) ∧
        (kioskReady s = true → s.power.hot = false → exec (.sensorConversion rs) s = .next (settle
          (let t := plainHold s1 allPlots hcThermal
           emit { t with power := { t.power with hot := true, thermalHolds := t.power.thermalHolds + 1 } } rkThermalHold srcModule none
             [(8, r.sensor), (32, toN 32 r.mC)]))) ∧
        (s.power.stopped = false → 3 ≤ s.power.step → s.power.step ≤ 9 →
          exec (.sensorConversion rs) s = .next (settle (stopStart s1 stStartupThermal))))) ∧
    (∀ c r, s.power.pg = false → stays (.powerLoss c) ∧ stays (.thermtrip r) ∧ stays .resetN) ∧
    (s.power.pg = true →
      (∀ c, exec (.powerLoss c) s = .next (settle (unpowered s))) ∧
      exec .resetN s = .next (settle { unpowered s with power := { (unpowered s).power with coldPending := true } }) ∧
      (∀ r : Reading, r.mC ≤ 115000 → stays (.thermtrip r)) ∧
      (∀ r : Reading, 115000 < r.mC → exec (.thermtrip r) s = .next (settle { unpowered s with
        power := { (unpowered s).power with tripLatched := true, thermtripN := false } }))) ∧
    (let t := unpowered s
     t.pending = s.pending ∧ t.out = s.out ∧ t.gate.rollback = s.gate.rollback ∧
     (s.journal.pend = [] → t.journal.a = s.journal.a ∧ t.journal.b = s.journal.b) ∧
     (if targetB s.journal then t.journal.a = s.journal.a else t.journal.b = s.journal.b) ∧
     t.journal.tally = s.journal.tally ∧ t.power.versionA = s.power.versionA ∧ t.power.versionB = s.power.versionB ∧ t.power.pg = false ∧
     t.enableMap = s.enableMap ∧ t.pavs = State.reset.pavs ∧ t.plots = State.reset.plots ∧ t.hbm = State.reset.hbm ∧ t.net = State.reset.net ∧ t.tele = State.reset.tele ∧
     t.sd = State.reset.sd) ∧
    exec .vauxRemoved s = .next { s with power := { s.power with thermtripN := true }, tele := quiet s } ∧
    (∀ port, exec (.managementLinkUp port) s = .next { s with
      kiosk := { s.kiosk with addrsEff := tblSet s.kiosk.addrsEff port s.kiosk.addrs }, tele := quiet s })

/-- The reset commands of 0xA000:20 wait for the next tick, but for the cold reset, which removes power at once (R405, R406); a firmware
image is checked as at boot, and the slot that does not run is erased and then valid (R407, Table 17.8). -/
def Obligations.ResetsAndUpdate : Prop :=
  ∀ (s : State) (q : KReq) (env : StartEnv) (b : Bool),
    let x := sessAt s q.slot
    let u := selEng x
    (admits s q 0xA000 0x20 true →
      (x.role = .po → notOk s (.moduleWarmReset q env) q stKioskAccess) ∧
      (x.role ≠ .po → s.power.warm ≠ none → notOk s (.moduleWarmReset q env) q stResetPending) ∧
      (x.role ≠ .po → s.power.warm = none → okWith s (.moduleWarmReset q env) q { s with power := { s.power with warm := some env } }) ∧
      (ownsPav s x u.pav = false → notOk s (.pavilionReset q b) q stKioskAccess ∧ notOk s (.engineReset q) q stKioskAccess) ∧
      (ownsPav s x u.pav = true → (pavAt s u.pav).testing = true →
        notOk s (.pavilionReset q b) q stSelftestBusy ∧ notOk s (.engineReset q) q stSelftestBusy) ∧
      (ownsPav s x u.pav = true → (pavAt s u.pav).testing = false →
        okWith s (.pavilionReset q b) q { s with power := { s.power with pavResets := s.power.pavResets ++ [(u.pav, b)] } } ∧
        okWith s (.engineReset q) q { s with power := { s.power with engResets := s.power.engResets ++ [u] } })) ∧
    (gateObj s q 0xA000 0x20 true true = .pass →
      (x.role = .po → exec (.coldReset q) s = .next (settle (refuse (heardReq s q) q stKioskAccess))) ∧
      (x.role ≠ .po → s.power.warm ≠ none → exec (.coldReset q) s = .next (settle (refuse (heardReq s q) q stResetPending))) ∧
      (x.role ≠ .po → s.power.warm = none →
        let t := unpowered (accept (heardReq s q) q)
        exec (.coldReset q) s = .next (settle { t with power := { t.power with coldPending := true } }))) ∧
    (∀ st, gateObj s q 0xA000 0x20 true true = .refuse st → exec (.coldReset q) s = .next (settle (refuse (heardReq s q) q st))) ∧
    (gateObj s q 0xA000 0x20 true true = .discard → exec (.coldReset q) s = .next (settle (discardReq s q))) ∧
    (∀ d all v, admits s q 0xA000 0x30 false → wholeValue s q 0xA000 0x30 33554432 d all →
      let c := Instr.firmwareImageWrite q d v
      let s1 := setVersion s (otherSlot s) 0
      (s.power.update = 1 ∨ s.power.update = 2 → notOk s c q stKioskState) ∧
      (s.power.update ≠ 1 → s.power.update ≠ 2 →
        (∀ st, slotStatus s v = some st → ∃ t, exec c s = .next t ∧
          refused { unstaged s q with power := { s.power with update := 4 } } q st t) ∧
        (slotStatus s v = none → domOk s c q 0xA000 0x30 { s1 with
          power := { s1.power with update := 2, updateVersion := verdictVersion 0 v } }))) ∧
    (s.power.update ≠ 2 → exec .updateDone s = .next (settle s)) ∧
    (s.power.update = 2 →
      let p := if 1 ≤ s.power.running.toNat then { s.power with versionA := s.power.updateVersion } else { s.power with versionB := s.power.updateVersion }
      exec .updateDone s = .next { s with power := { p with update := 3 }, tele := told s rkUpdateDone srcMgmt none [] })

/-! ### The sundial and the tick (chapter 02) -/

/-- A SUNDIAL set measures its link's round trip; one from the parent ends a holdover and gives the next frame number and the hops, and by
the measured error the alignment state (R43–R47, R298, Table 2.3); a set of another period, from any link, is the loss of the sundial; four
missed sets are holdover, and an error above 71 ns or holdover beyond its limit is the loss of the sundial. What a module in state 4 does that
misses sets, and the end and sign of an excursion, are the model's choice (log entry 80). -/
def Obligations.SundialSets : Prop :=
  ∀ (s : State) (l : Nat) (b : SundialBody) (trx : BitVec 64) (prx : Nat),
    let c := Instr.sundial l b trx prx
    let x := linkAt s l
    let blind : Prop := b.echots = BitVec.allOnes 64
    let r : Int := (trx - b.echots).toNat - b.hold.toNat
    let s1 := setLink s l { x with
      lastSundial := some (b.txs, trx), rtt := if blind then x.rtt else BitVec.ofNat 32 (r.toNat * 10 / 18) }
    let sd1 := { s.sd with
      align := if s.sd.align = 3 then 1 else s.sd.align, heard := true, missed := 0, nextFrame := some (b.frame + 1)
      hops := if b.hops = 0xFF then 0xFF else b.hops + 1 }
    let err := (reducePhase (cycles10 s.sd.periodEff.toNat) (10 * b.phase.toNat + 5 * r - 10 * prx)).tdiv 18 + b.err.toInt
    let sd2 := { sd1 with err := BitVec.ofInt 32 err }
    let a := err.natAbs
    let own := parentLink s = some l
    let u := if own then (if blind then { s1 with sd := sd1 } else { s1 with sd := sd2 }) else s1
    (active s l = false → exec c s = .next (settle s)) ∧
    (active s l = true → b.period ≠ s.sd.periodEff →
      (s.sd.align = 4 → exec c s = .next (settle u)) ∧
      (s.sd.align ≠ 4 → s.sd.excursion = none → exec c s = .next (settle (holdPortOwners
        (emit { u with sd := { u.sd with align := 4 } } rkPeriodMismatch (srcHub 0) none [])))) ∧
      (∀ p, s.sd.align ≠ 4 → s.sd.excursion = some p → exec c s = .next (settle (holdPortOwners
        (emit (emit { u with sd := { u.sd with align := 4, excursion := none } } rkSundialAlign (srcHub 0) none [(32, p)])
          rkPeriodMismatch (srcHub 0) none []))))) ∧
    (active s l = true → b.period = s.sd.periodEff →
      (¬ own ∨ blind → exec c s = .next (settle u)) ∧
      (own → ¬ blind →
        (a ≤ 20 → s.sd.excursion = none → exec c s = .next (settle { s1 with sd := { sd2 with align := 2 } })) ∧
        (∀ p, a ≤ 20 → s.sd.excursion = some p → exec c s = .next { s1 with
          sd := { sd2 with align := 2, excursion := none }, tele := told s rkSundialAlign (srcHub 0) none [(32, p)] }) ∧
        (20 < a → a ≤ 71 → exec c s = .next (settle { s1 with
          sd := { sd2 with align := 1, excursion := some (max a (s.sd.excursion.getD 0)) } })) ∧
        (71 < a → exec c s = .next (settle { s1 with sd := sd2 })))) ∧
    (let holds := (parentLink s).isSome = true ∧ 4 ≤ s.sd.missed ∧ s.sd.align ≠ 3 ∧ s.sd.align ≠ 4
     (¬ holds → exec .sundialHoldover s = .next (settle s)) ∧
     (holds → s.sd.excursion = none → exec .sundialHoldover s = .next { s with
       sd := { s.sd with align := 3, holdover := 0 }, tele := told s rkSundialHoldover (srcHub 0) none [] }) ∧
     (∀ p, holds → s.sd.excursion = some p → exec .sundialHoldover s = .next (settle (emit
       (emit { s with sd := { s.sd with align := 3, holdover := 0, excursion := none } } rkSundialAlign (srcHub 0) none [(32, p)])
       rkSundialHoldover (srcHub 0) none [])))) ∧
    (let late := s.sd.align = 3 ∧ holdoverLimit s.sd.periodEff.toNat < s.sd.holdover.toNat
     let far := (parentLink s).isSome = true ∧ s.sd.align ≠ 4 ∧ s.sd.align ≠ 3 ∧ 71 < s.sd.err.toInt.natAbs
     (¬ late → ¬ far → exec .sundialLost s = .next (settle s)) ∧
     (late ∨ far → s.sd.excursion = none → exec .sundialLost s = .next (settle (holdPortOwners
       (emit { s with sd := { s.sd with align := 4 } } rkSundialLost (srcHub 0) none [])))) ∧
     (∀ p, late ∨ far → s.sd.excursion = some p → exec .sundialLost s = .next (settle (holdPortOwners (emit
       (emit { s with sd := { s.sd with align := 4, excursion := none } } rkSundialAlign (srcHub 0) none [(32, p)])
       rkSundialLost (srcHub 0) none [])))))

/-- The steps of a tick in the order of Table 2.2, after what the frame just ended shows: the counts, epochs and pending holds, commands,
activations, boundary values and shards, the slew, and a SUNDIAL and a HEARTBEAT set on every ACTIVE link (R38, R41, R42, R46, R318, R334, R368). -/
def Obligations.TickSteps : Prop :=
  ∀ (s : State) (env : TickEnv),
    (s.power.pg = false → exec (.tick env) s = .next (settle s)) ∧
    (s.power.pg = true →
      let s1 := stepCount (if s.sd.ticking then frameEnd s env else s)
      let s2 := stepHolds { s1 with tele := uncoalesce s1.tele }
      exec (.tick env) s = .next (settle ((List.range 128).foldl sendBeats (stepSlew (stepBoundary (stepActivations (stepCommands s2)))))) ∧
      ∃ t, exec (.tick env) s = .next t ∧ t.sd.ticking = true ∧ t.sd.heard = false ∧
        t.sd.ticks = (if s.sd.ticking then s.sd.ticks + 1 else s.sd.ticks) ∧ -4 ≤ t.sd.slew ∧ t.sd.slew ≤ 4) ∧
    (s.sd.ticking = true → stepCount s = { s with sd := { s.sd with
      ticks := s.sd.ticks + 1, frame := s.sd.nextFrame.getD (s.sd.frame + 1), nextFrame := none, phaseStep := 0
      tickCycle := s.sd.tickCycle + BitVec.ofInt 64 (nominalLength s.sd.periodEff.toNat s.sd.ticks.toNat + s.sd.slew + s.sd.phaseStep) } }) ∧
    (s.sd.ticking = false → stepCount s = { s with sd := { s.sd with
      ticking := true, frame := s.sd.nextFrame.getD s.sd.frame, nextFrame := none, phaseStep := 0
      tickCycle := BitVec.ofInt 64 s.sd.phaseStep } }) ∧
    (∀ n, let p := plotAt s n
      (p.pavMask &&& s.failedMap = 0 ∨ p.state = 0 ∨ p.state = 4 → failedHold s n = s) ∧
      (1 ≤ p.state → p.state ≤ 3 → p.pavMask &&& s.failedMap ≠ 0 → p.causes.getLsbD hcPavilion = false →
        failedHold s n = setPlot s n { p with pendHold := setBit p.pendHold hcPavilion true }) ∧
      (p.loadState ≠ 3 → activationTick s n = s) ∧
      (p.pendHold = 0 → holdNow s n = s) ∧
      (p.pendHold ≠ 0 → holdNow s n = { s with
        plots := tblSet s.plots n { p with held := true, causes := p.causes ||| p.pendHold, pendHold := 0 }
        tele := told s rkPlotHold srcModule (some n) [(32, (p.causes ||| p.pendHold).toNat)] }) ∧
      (p.pendingCmd = none → commandNow s n = s) ∧
      (p.pendingCmd = some .start → commandNow s n = setPlot s n { p with
        pendingCmd := none, state := 2, startFrame := s.sd.ticks, quiet := 0, moved := true }) ∧
      (p.pendingCmd = some .suspend → commandNow s n = setPlot s n { p with pendingCmd := none, state := 3 }) ∧
      (p.pendingCmd = some .resume → commandNow s n = setPlot s n { p with pendingCmd := none, state := 2, quiet := 0 }) ∧
      (p.pendingCmd = some .release → commandNow s n = { s with
        plots := tblSet s.plots n { p with pendingCmd := none, held := false, causes := 0, quiet := 0 }
        tele := told s rkHoldReleased srcModule (some n) [] })) ∧
    (s.power.warm = none → stepCommands s =
      (let t := allPlots.foldl commandNow s
       t.power.engResets.foldl engResetNow (t.power.pavResets.foldl pavResetNow
         { t with power := { t.power with pavResets := [], engResets := [] } }))) ∧
    (∀ e, s.power.warm = some e → stepCommands s = warmReset s e) ∧
    (s.sd.periodSet = true → boundaryPeriod s = emit { s with sd := { s.sd with periodSet := false, periodEff := s.sd.period } }
      rkPeriodChanged (srcHub 0) none [(8, s.sd.periodEff.toNat), (8, s.sd.period.toNat), (64, s.sd.ticks.toNat)]) ∧
    (s.route.dirty = true → boundaryRoutes s = { s with route := { s.route with
      tableEff := s.route.table, dirEff := s.route.dir, gen := s.route.gen + 1, dirty := false, sprays := [] } }) ∧
    (∀ n k, let h := shardAt s n
      h.cmds = [k] → shardCmdOk h k = true → k = 1 ∨ k = 5 ∨ k = 6 →
        shardTick s n = setShard s n (
          if k = 1 then { h with cmds := [], cmdStatus := stOk, state := 4, todo := some (stOk, 0x04) }
          else if k = 5 then { h with cmds := [], cmdStatus := stOk, state := 0 }
          else { h with cmds := [], cmdStatus := stOk, state := 4, todo := some (stDegradedCommit, 0x08) }))
end

