-- ==== Sys2Proof/Laws/State.lean ====
section
/-! SUPPORT. What each update of a unit of the state leaves alone: one law for each field and each update, so that no proof unfolds
a record update. -/

namespace Sys2Proof.Machine

variable (s : State)

/-! ### setPav -/

@[simp] theorem setPav_pending (i : Nat) (x : Pavilion) : (setPav s i x).pending = s.pending := rfl
@[simp] theorem setPav_out (i : Nat) (x : Pavilion) : (setPav s i x).out = s.out := rfl
@[simp] theorem setPav_sd (i : Nat) (x : Pavilion) : (setPav s i x).sd = s.sd := rfl
@[simp] theorem setPav_ar (i : Nat) (x : Pavilion) : (setPav s i x).ar = s.ar := rfl
@[simp] theorem setPav_enableMap (i : Nat) (x : Pavilion) : (setPav s i x).enableMap = s.enableMap := rfl
@[simp] theorem setPav_failedMap (i : Nat) (x : Pavilion) : (setPav s i x).failedMap = s.failedMap := rfl
@[simp] theorem setPav_powered (i : Nat) (x : Pavilion) : (setPav s i x).powered = s.powered := rfl
@[simp] theorem setPav_powering (i : Nat) (x : Pavilion) : (setPav s i x).powering = s.powering := rfl
@[simp] theorem setPav_sigs (i : Nat) (x : Pavilion) : (setPav s i x).sigs = s.sigs := rfl
@[simp] theorem setPav_plots (i : Nat) (x : Pavilion) : (setPav s i x).plots = s.plots := rfl
@[simp] theorem setPav_coll (i : Nat) (x : Pavilion) : (setPav s i x).coll = s.coll := rfl
@[simp] theorem setPav_pools (i : Nat) (x : Pavilion) : (setPav s i x).pools = s.pools := rfl
@[simp] theorem setPav_shards (i : Nat) (x : Pavilion) : (setPav s i x).shards = s.shards := rfl
@[simp] theorem setPav_norms (i : Nat) (x : Pavilion) : (setPav s i x).norms = s.norms := rfl
@[simp] theorem setPav_hbm (i : Nat) (x : Pavilion) : (setPav s i x).hbm = s.hbm := rfl
@[simp] theorem setPav_net (i : Nat) (x : Pavilion) : (setPav s i x).net = s.net := rfl
@[simp] theorem setPav_route (i : Nat) (x : Pavilion) : (setPav s i x).route = s.route := rfl
@[simp] theorem setPav_gate (i : Nat) (x : Pavilion) : (setPav s i x).gate = s.gate := rfl
@[simp] theorem setPav_kiosk (i : Nat) (x : Pavilion) : (setPav s i x).kiosk = s.kiosk := rfl
@[simp] theorem setPav_journal (i : Nat) (x : Pavilion) : (setPav s i x).journal = s.journal := rfl
@[simp] theorem setPav_tele (i : Nat) (x : Pavilion) : (setPav s i x).tele = s.tele := rfl
@[simp] theorem setPav_lodge (i : Nat) (x : Pavilion) : (setPav s i x).lodge = s.lodge := rfl
@[simp] theorem setPav_power (i : Nat) (x : Pavilion) : (setPav s i x).power = s.power := rfl
@[simp] theorem setPav_testResult (i : Nat) (x : Pavilion) : (setPav s i x).testResult = s.testResult := rfl

/-! ### setEng -/

@[simp] theorem setEng_pending (u : EngRef) (x : Engine) : (setEng s u x).pending = s.pending := rfl
@[simp] theorem setEng_out (u : EngRef) (x : Engine) : (setEng s u x).out = s.out := rfl
@[simp] theorem setEng_sd (u : EngRef) (x : Engine) : (setEng s u x).sd = s.sd := rfl
@[simp] theorem setEng_ar (u : EngRef) (x : Engine) : (setEng s u x).ar = s.ar := rfl
@[simp] theorem setEng_enableMap (u : EngRef) (x : Engine) : (setEng s u x).enableMap = s.enableMap := rfl
@[simp] theorem setEng_failedMap (u : EngRef) (x : Engine) : (setEng s u x).failedMap = s.failedMap := rfl
@[simp] theorem setEng_powered (u : EngRef) (x : Engine) : (setEng s u x).powered = s.powered := rfl
@[simp] theorem setEng_powering (u : EngRef) (x : Engine) : (setEng s u x).powering = s.powering := rfl
@[simp] theorem setEng_sigs (u : EngRef) (x : Engine) : (setEng s u x).sigs = s.sigs := rfl
@[simp] theorem setEng_plots (u : EngRef) (x : Engine) : (setEng s u x).plots = s.plots := rfl
@[simp] theorem setEng_coll (u : EngRef) (x : Engine) : (setEng s u x).coll = s.coll := rfl
@[simp] theorem setEng_pools (u : EngRef) (x : Engine) : (setEng s u x).pools = s.pools := rfl
@[simp] theorem setEng_shards (u : EngRef) (x : Engine) : (setEng s u x).shards = s.shards := rfl
@[simp] theorem setEng_norms (u : EngRef) (x : Engine) : (setEng s u x).norms = s.norms := rfl
@[simp] theorem setEng_hbm (u : EngRef) (x : Engine) : (setEng s u x).hbm = s.hbm := rfl
@[simp] theorem setEng_net (u : EngRef) (x : Engine) : (setEng s u x).net = s.net := rfl
@[simp] theorem setEng_route (u : EngRef) (x : Engine) : (setEng s u x).route = s.route := rfl
@[simp] theorem setEng_gate (u : EngRef) (x : Engine) : (setEng s u x).gate = s.gate := rfl
@[simp] theorem setEng_kiosk (u : EngRef) (x : Engine) : (setEng s u x).kiosk = s.kiosk := rfl
@[simp] theorem setEng_journal (u : EngRef) (x : Engine) : (setEng s u x).journal = s.journal := rfl
@[simp] theorem setEng_tele (u : EngRef) (x : Engine) : (setEng s u x).tele = s.tele := rfl
@[simp] theorem setEng_lodge (u : EngRef) (x : Engine) : (setEng s u x).lodge = s.lodge := rfl
@[simp] theorem setEng_power (u : EngRef) (x : Engine) : (setEng s u x).power = s.power := rfl
@[simp] theorem setEng_testResult (u : EngRef) (x : Engine) : (setEng s u x).testResult = s.testResult := rfl

/-! ### setCtr -/

@[simp] theorem setCtr_pending (p c : Nat) (x : Counter) : (setCtr s p c x).pending = s.pending := rfl
@[simp] theorem setCtr_out (p c : Nat) (x : Counter) : (setCtr s p c x).out = s.out := rfl
@[simp] theorem setCtr_sd (p c : Nat) (x : Counter) : (setCtr s p c x).sd = s.sd := rfl
@[simp] theorem setCtr_ar (p c : Nat) (x : Counter) : (setCtr s p c x).ar = s.ar := rfl
@[simp] theorem setCtr_enableMap (p c : Nat) (x : Counter) : (setCtr s p c x).enableMap = s.enableMap := rfl
@[simp] theorem setCtr_failedMap (p c : Nat) (x : Counter) : (setCtr s p c x).failedMap = s.failedMap := rfl
@[simp] theorem setCtr_powered (p c : Nat) (x : Counter) : (setCtr s p c x).powered = s.powered := rfl
@[simp] theorem setCtr_powering (p c : Nat) (x : Counter) : (setCtr s p c x).powering = s.powering := rfl
@[simp] theorem setCtr_sigs (p c : Nat) (x : Counter) : (setCtr s p c x).sigs = s.sigs := rfl
@[simp] theorem setCtr_plots (p c : Nat) (x : Counter) : (setCtr s p c x).plots = s.plots := rfl
@[simp] theorem setCtr_coll (p c : Nat) (x : Counter) : (setCtr s p c x).coll = s.coll := rfl
@[simp] theorem setCtr_pools (p c : Nat) (x : Counter) : (setCtr s p c x).pools = s.pools := rfl
@[simp] theorem setCtr_shards (p c : Nat) (x : Counter) : (setCtr s p c x).shards = s.shards := rfl
@[simp] theorem setCtr_norms (p c : Nat) (x : Counter) : (setCtr s p c x).norms = s.norms := rfl
@[simp] theorem setCtr_hbm (p c : Nat) (x : Counter) : (setCtr s p c x).hbm = s.hbm := rfl
@[simp] theorem setCtr_net (p c : Nat) (x : Counter) : (setCtr s p c x).net = s.net := rfl
@[simp] theorem setCtr_route (p c : Nat) (x : Counter) : (setCtr s p c x).route = s.route := rfl
@[simp] theorem setCtr_gate (p c : Nat) (x : Counter) : (setCtr s p c x).gate = s.gate := rfl
@[simp] theorem setCtr_kiosk (p c : Nat) (x : Counter) : (setCtr s p c x).kiosk = s.kiosk := rfl
@[simp] theorem setCtr_journal (p c : Nat) (x : Counter) : (setCtr s p c x).journal = s.journal := rfl
@[simp] theorem setCtr_tele (p c : Nat) (x : Counter) : (setCtr s p c x).tele = s.tele := rfl
@[simp] theorem setCtr_lodge (p c : Nat) (x : Counter) : (setCtr s p c x).lodge = s.lodge := rfl
@[simp] theorem setCtr_power (p c : Nat) (x : Counter) : (setCtr s p c x).power = s.power := rfl
@[simp] theorem setCtr_testResult (p c : Nat) (x : Counter) : (setCtr s p c x).testResult = s.testResult := rfl

/-! ### setPlot -/

@[simp] theorem setPlot_pending (i : Nat) (x : Plot) : (setPlot s i x).pending = s.pending := rfl
@[simp] theorem setPlot_out (i : Nat) (x : Plot) : (setPlot s i x).out = s.out := rfl
@[simp] theorem setPlot_sd (i : Nat) (x : Plot) : (setPlot s i x).sd = s.sd := rfl
@[simp] theorem setPlot_ar (i : Nat) (x : Plot) : (setPlot s i x).ar = s.ar := rfl
@[simp] theorem setPlot_enableMap (i : Nat) (x : Plot) : (setPlot s i x).enableMap = s.enableMap := rfl
@[simp] theorem setPlot_failedMap (i : Nat) (x : Plot) : (setPlot s i x).failedMap = s.failedMap := rfl
@[simp] theorem setPlot_powered (i : Nat) (x : Plot) : (setPlot s i x).powered = s.powered := rfl
@[simp] theorem setPlot_powering (i : Nat) (x : Plot) : (setPlot s i x).powering = s.powering := rfl
@[simp] theorem setPlot_pavs (i : Nat) (x : Plot) : (setPlot s i x).pavs = s.pavs := rfl
@[simp] theorem setPlot_sigs (i : Nat) (x : Plot) : (setPlot s i x).sigs = s.sigs := rfl
@[simp] theorem setPlot_coll (i : Nat) (x : Plot) : (setPlot s i x).coll = s.coll := rfl
@[simp] theorem setPlot_pools (i : Nat) (x : Plot) : (setPlot s i x).pools = s.pools := rfl
@[simp] theorem setPlot_shards (i : Nat) (x : Plot) : (setPlot s i x).shards = s.shards := rfl
@[simp] theorem setPlot_norms (i : Nat) (x : Plot) : (setPlot s i x).norms = s.norms := rfl
@[simp] theorem setPlot_hbm (i : Nat) (x : Plot) : (setPlot s i x).hbm = s.hbm := rfl
@[simp] theorem setPlot_net (i : Nat) (x : Plot) : (setPlot s i x).net = s.net := rfl
@[simp] theorem setPlot_route (i : Nat) (x : Plot) : (setPlot s i x).route = s.route := rfl
@[simp] theorem setPlot_gate (i : Nat) (x : Plot) : (setPlot s i x).gate = s.gate := rfl
@[simp] theorem setPlot_kiosk (i : Nat) (x : Plot) : (setPlot s i x).kiosk = s.kiosk := rfl
@[simp] theorem setPlot_journal (i : Nat) (x : Plot) : (setPlot s i x).journal = s.journal := rfl
@[simp] theorem setPlot_tele (i : Nat) (x : Plot) : (setPlot s i x).tele = s.tele := rfl
@[simp] theorem setPlot_lodge (i : Nat) (x : Plot) : (setPlot s i x).lodge = s.lodge := rfl
@[simp] theorem setPlot_power (i : Nat) (x : Plot) : (setPlot s i x).power = s.power := rfl
@[simp] theorem setPlot_testResult (i : Nat) (x : Plot) : (setPlot s i x).testResult = s.testResult := rfl

/-! ### setDie -/

@[simp] theorem setDie_pending (i : Nat) (x : Dovecote) : (setDie s i x).pending = s.pending := rfl
@[simp] theorem setDie_out (i : Nat) (x : Dovecote) : (setDie s i x).out = s.out := rfl
@[simp] theorem setDie_sd (i : Nat) (x : Dovecote) : (setDie s i x).sd = s.sd := rfl
@[simp] theorem setDie_ar (i : Nat) (x : Dovecote) : (setDie s i x).ar = s.ar := rfl
@[simp] theorem setDie_enableMap (i : Nat) (x : Dovecote) : (setDie s i x).enableMap = s.enableMap := rfl
@[simp] theorem setDie_failedMap (i : Nat) (x : Dovecote) : (setDie s i x).failedMap = s.failedMap := rfl
@[simp] theorem setDie_powered (i : Nat) (x : Dovecote) : (setDie s i x).powered = s.powered := rfl
@[simp] theorem setDie_powering (i : Nat) (x : Dovecote) : (setDie s i x).powering = s.powering := rfl
@[simp] theorem setDie_pavs (i : Nat) (x : Dovecote) : (setDie s i x).pavs = s.pavs := rfl
@[simp] theorem setDie_sigs (i : Nat) (x : Dovecote) : (setDie s i x).sigs = s.sigs := rfl
@[simp] theorem setDie_plots (i : Nat) (x : Dovecote) : (setDie s i x).plots = s.plots := rfl
@[simp] theorem setDie_pools (i : Nat) (x : Dovecote) : (setDie s i x).pools = s.pools := rfl
@[simp] theorem setDie_shards (i : Nat) (x : Dovecote) : (setDie s i x).shards = s.shards := rfl
@[simp] theorem setDie_norms (i : Nat) (x : Dovecote) : (setDie s i x).norms = s.norms := rfl
@[simp] theorem setDie_hbm (i : Nat) (x : Dovecote) : (setDie s i x).hbm = s.hbm := rfl
@[simp] theorem setDie_net (i : Nat) (x : Dovecote) : (setDie s i x).net = s.net := rfl
@[simp] theorem setDie_route (i : Nat) (x : Dovecote) : (setDie s i x).route = s.route := rfl
@[simp] theorem setDie_gate (i : Nat) (x : Dovecote) : (setDie s i x).gate = s.gate := rfl
@[simp] theorem setDie_kiosk (i : Nat) (x : Dovecote) : (setDie s i x).kiosk = s.kiosk := rfl
@[simp] theorem setDie_journal (i : Nat) (x : Dovecote) : (setDie s i x).journal = s.journal := rfl
@[simp] theorem setDie_tele (i : Nat) (x : Dovecote) : (setDie s i x).tele = s.tele := rfl
@[simp] theorem setDie_lodge (i : Nat) (x : Dovecote) : (setDie s i x).lodge = s.lodge := rfl
@[simp] theorem setDie_power (i : Nat) (x : Dovecote) : (setDie s i x).power = s.power := rfl
@[simp] theorem setDie_testResult (i : Nat) (x : Dovecote) : (setDie s i x).testResult = s.testResult := rfl

/-! ### setShard -/

@[simp] theorem setShard_pending (i : Nat) (x : Shard) : (setShard s i x).pending = s.pending := rfl
@[simp] theorem setShard_out (i : Nat) (x : Shard) : (setShard s i x).out = s.out := rfl
@[simp] theorem setShard_sd (i : Nat) (x : Shard) : (setShard s i x).sd = s.sd := rfl
@[simp] theorem setShard_ar (i : Nat) (x : Shard) : (setShard s i x).ar = s.ar := rfl
@[simp] theorem setShard_enableMap (i : Nat) (x : Shard) : (setShard s i x).enableMap = s.enableMap := rfl
@[simp] theorem setShard_failedMap (i : Nat) (x : Shard) : (setShard s i x).failedMap = s.failedMap := rfl
@[simp] theorem setShard_powered (i : Nat) (x : Shard) : (setShard s i x).powered = s.powered := rfl
@[simp] theorem setShard_powering (i : Nat) (x : Shard) : (setShard s i x).powering = s.powering := rfl
@[simp] theorem setShard_pavs (i : Nat) (x : Shard) : (setShard s i x).pavs = s.pavs := rfl
@[simp] theorem setShard_sigs (i : Nat) (x : Shard) : (setShard s i x).sigs = s.sigs := rfl
@[simp] theorem setShard_plots (i : Nat) (x : Shard) : (setShard s i x).plots = s.plots := rfl
@[simp] theorem setShard_coll (i : Nat) (x : Shard) : (setShard s i x).coll = s.coll := rfl
@[simp] theorem setShard_pools (i : Nat) (x : Shard) : (setShard s i x).pools = s.pools := rfl
@[simp] theorem setShard_norms (i : Nat) (x : Shard) : (setShard s i x).norms = s.norms := rfl
@[simp] theorem setShard_hbm (i : Nat) (x : Shard) : (setShard s i x).hbm = s.hbm := rfl
@[simp] theorem setShard_net (i : Nat) (x : Shard) : (setShard s i x).net = s.net := rfl
@[simp] theorem setShard_route (i : Nat) (x : Shard) : (setShard s i x).route = s.route := rfl
@[simp] theorem setShard_gate (i : Nat) (x : Shard) : (setShard s i x).gate = s.gate := rfl
@[simp] theorem setShard_kiosk (i : Nat) (x : Shard) : (setShard s i x).kiosk = s.kiosk := rfl
@[simp] theorem setShard_journal (i : Nat) (x : Shard) : (setShard s i x).journal = s.journal := rfl
@[simp] theorem setShard_tele (i : Nat) (x : Shard) : (setShard s i x).tele = s.tele := rfl
@[simp] theorem setShard_lodge (i : Nat) (x : Shard) : (setShard s i x).lodge = s.lodge := rfl
@[simp] theorem setShard_power (i : Nat) (x : Shard) : (setShard s i x).power = s.power := rfl
@[simp] theorem setShard_testResult (i : Nat) (x : Shard) : (setShard s i x).testResult = s.testResult := rfl

/-! ### setNorm -/

@[simp] theorem setNorm_pending (i : Nat) (x : Norm) : (setNorm s i x).pending = s.pending := rfl
@[simp] theorem setNorm_out (i : Nat) (x : Norm) : (setNorm s i x).out = s.out := rfl
@[simp] theorem setNorm_sd (i : Nat) (x : Norm) : (setNorm s i x).sd = s.sd := rfl
@[simp] theorem setNorm_ar (i : Nat) (x : Norm) : (setNorm s i x).ar = s.ar := rfl
@[simp] theorem setNorm_enableMap (i : Nat) (x : Norm) : (setNorm s i x).enableMap = s.enableMap := rfl
@[simp] theorem setNorm_failedMap (i : Nat) (x : Norm) : (setNorm s i x).failedMap = s.failedMap := rfl
@[simp] theorem setNorm_powered (i : Nat) (x : Norm) : (setNorm s i x).powered = s.powered := rfl
@[simp] theorem setNorm_powering (i : Nat) (x : Norm) : (setNorm s i x).powering = s.powering := rfl
@[simp] theorem setNorm_pavs (i : Nat) (x : Norm) : (setNorm s i x).pavs = s.pavs := rfl
@[simp] theorem setNorm_sigs (i : Nat) (x : Norm) : (setNorm s i x).sigs = s.sigs := rfl
@[simp] theorem setNorm_plots (i : Nat) (x : Norm) : (setNorm s i x).plots = s.plots := rfl
@[simp] theorem setNorm_coll (i : Nat) (x : Norm) : (setNorm s i x).coll = s.coll := rfl
@[simp] theorem setNorm_pools (i : Nat) (x : Norm) : (setNorm s i x).pools = s.pools := rfl
@[simp] theorem setNorm_shards (i : Nat) (x : Norm) : (setNorm s i x).shards = s.shards := rfl
@[simp] theorem setNorm_hbm (i : Nat) (x : Norm) : (setNorm s i x).hbm = s.hbm := rfl
@[simp] theorem setNorm_net (i : Nat) (x : Norm) : (setNorm s i x).net = s.net := rfl
@[simp] theorem setNorm_route (i : Nat) (x : Norm) : (setNorm s i x).route = s.route := rfl
@[simp] theorem setNorm_gate (i : Nat) (x : Norm) : (setNorm s i x).gate = s.gate := rfl
@[simp] theorem setNorm_kiosk (i : Nat) (x : Norm) : (setNorm s i x).kiosk = s.kiosk := rfl
@[simp] theorem setNorm_journal (i : Nat) (x : Norm) : (setNorm s i x).journal = s.journal := rfl
@[simp] theorem setNorm_tele (i : Nat) (x : Norm) : (setNorm s i x).tele = s.tele := rfl
@[simp] theorem setNorm_lodge (i : Nat) (x : Norm) : (setNorm s i x).lodge = s.lodge := rfl
@[simp] theorem setNorm_power (i : Nat) (x : Norm) : (setNorm s i x).power = s.power := rfl
@[simp] theorem setNorm_testResult (i : Nat) (x : Norm) : (setNorm s i x).testResult = s.testResult := rfl

/-! ### setStack -/

@[simp] theorem setStack_pending (i : Nat) (x : Stack) : (setStack s i x).pending = s.pending := rfl
@[simp] theorem setStack_out (i : Nat) (x : Stack) : (setStack s i x).out = s.out := rfl
@[simp] theorem setStack_sd (i : Nat) (x : Stack) : (setStack s i x).sd = s.sd := rfl
@[simp] theorem setStack_ar (i : Nat) (x : Stack) : (setStack s i x).ar = s.ar := rfl
@[simp] theorem setStack_enableMap (i : Nat) (x : Stack) : (setStack s i x).enableMap = s.enableMap := rfl
@[simp] theorem setStack_failedMap (i : Nat) (x : Stack) : (setStack s i x).failedMap = s.failedMap := rfl
@[simp] theorem setStack_powered (i : Nat) (x : Stack) : (setStack s i x).powered = s.powered := rfl
@[simp] theorem setStack_powering (i : Nat) (x : Stack) : (setStack s i x).powering = s.powering := rfl
@[simp] theorem setStack_pavs (i : Nat) (x : Stack) : (setStack s i x).pavs = s.pavs := rfl
@[simp] theorem setStack_sigs (i : Nat) (x : Stack) : (setStack s i x).sigs = s.sigs := rfl
@[simp] theorem setStack_plots (i : Nat) (x : Stack) : (setStack s i x).plots = s.plots := rfl
@[simp] theorem setStack_coll (i : Nat) (x : Stack) : (setStack s i x).coll = s.coll := rfl
@[simp] theorem setStack_pools (i : Nat) (x : Stack) : (setStack s i x).pools = s.pools := rfl
@[simp] theorem setStack_shards (i : Nat) (x : Stack) : (setStack s i x).shards = s.shards := rfl
@[simp] theorem setStack_norms (i : Nat) (x : Stack) : (setStack s i x).norms = s.norms := rfl
@[simp] theorem setStack_net (i : Nat) (x : Stack) : (setStack s i x).net = s.net := rfl
@[simp] theorem setStack_route (i : Nat) (x : Stack) : (setStack s i x).route = s.route := rfl
@[simp] theorem setStack_gate (i : Nat) (x : Stack) : (setStack s i x).gate = s.gate := rfl
@[simp] theorem setStack_kiosk (i : Nat) (x : Stack) : (setStack s i x).kiosk = s.kiosk := rfl
@[simp] theorem setStack_journal (i : Nat) (x : Stack) : (setStack s i x).journal = s.journal := rfl
@[simp] theorem setStack_tele (i : Nat) (x : Stack) : (setStack s i x).tele = s.tele := rfl
@[simp] theorem setStack_lodge (i : Nat) (x : Stack) : (setStack s i x).lodge = s.lodge := rfl
@[simp] theorem setStack_power (i : Nat) (x : Stack) : (setStack s i x).power = s.power := rfl
@[simp] theorem setStack_testResult (i : Nat) (x : Stack) : (setStack s i x).testResult = s.testResult := rfl

/-! ### setPort -/

@[simp] theorem setPort_pending (i : Nat) (x : Port) : (setPort s i x).pending = s.pending := rfl
@[simp] theorem setPort_out (i : Nat) (x : Port) : (setPort s i x).out = s.out := rfl
@[simp] theorem setPort_sd (i : Nat) (x : Port) : (setPort s i x).sd = s.sd := rfl
@[simp] theorem setPort_ar (i : Nat) (x : Port) : (setPort s i x).ar = s.ar := rfl
@[simp] theorem setPort_enableMap (i : Nat) (x : Port) : (setPort s i x).enableMap = s.enableMap := rfl
@[simp] theorem setPort_failedMap (i : Nat) (x : Port) : (setPort s i x).failedMap = s.failedMap := rfl
@[simp] theorem setPort_powered (i : Nat) (x : Port) : (setPort s i x).powered = s.powered := rfl
@[simp] theorem setPort_powering (i : Nat) (x : Port) : (setPort s i x).powering = s.powering := rfl
@[simp] theorem setPort_pavs (i : Nat) (x : Port) : (setPort s i x).pavs = s.pavs := rfl
@[simp] theorem setPort_sigs (i : Nat) (x : Port) : (setPort s i x).sigs = s.sigs := rfl
@[simp] theorem setPort_plots (i : Nat) (x : Port) : (setPort s i x).plots = s.plots := rfl
@[simp] theorem setPort_coll (i : Nat) (x : Port) : (setPort s i x).coll = s.coll := rfl
@[simp] theorem setPort_pools (i : Nat) (x : Port) : (setPort s i x).pools = s.pools := rfl
@[simp] theorem setPort_shards (i : Nat) (x : Port) : (setPort s i x).shards = s.shards := rfl
@[simp] theorem setPort_norms (i : Nat) (x : Port) : (setPort s i x).norms = s.norms := rfl
@[simp] theorem setPort_hbm (i : Nat) (x : Port) : (setPort s i x).hbm = s.hbm := rfl
@[simp] theorem setPort_route (i : Nat) (x : Port) : (setPort s i x).route = s.route := rfl
@[simp] theorem setPort_gate (i : Nat) (x : Port) : (setPort s i x).gate = s.gate := rfl
@[simp] theorem setPort_kiosk (i : Nat) (x : Port) : (setPort s i x).kiosk = s.kiosk := rfl
@[simp] theorem setPort_journal (i : Nat) (x : Port) : (setPort s i x).journal = s.journal := rfl
@[simp] theorem setPort_tele (i : Nat) (x : Port) : (setPort s i x).tele = s.tele := rfl
@[simp] theorem setPort_lodge (i : Nat) (x : Port) : (setPort s i x).lodge = s.lodge := rfl
@[simp] theorem setPort_power (i : Nat) (x : Port) : (setPort s i x).power = s.power := rfl
@[simp] theorem setPort_testResult (i : Nat) (x : Port) : (setPort s i x).testResult = s.testResult := rfl

/-! ### setLink -/

@[simp] theorem setLink_pending (i : Nat) (x : Link) : (setLink s i x).pending = s.pending := rfl
@[simp] theorem setLink_out (i : Nat) (x : Link) : (setLink s i x).out = s.out := rfl
@[simp] theorem setLink_sd (i : Nat) (x : Link) : (setLink s i x).sd = s.sd := rfl
@[simp] theorem setLink_ar (i : Nat) (x : Link) : (setLink s i x).ar = s.ar := rfl
@[simp] theorem setLink_enableMap (i : Nat) (x : Link) : (setLink s i x).enableMap = s.enableMap := rfl
@[simp] theorem setLink_failedMap (i : Nat) (x : Link) : (setLink s i x).failedMap = s.failedMap := rfl
@[simp] theorem setLink_powered (i : Nat) (x : Link) : (setLink s i x).powered = s.powered := rfl
@[simp] theorem setLink_powering (i : Nat) (x : Link) : (setLink s i x).powering = s.powering := rfl
@[simp] theorem setLink_pavs (i : Nat) (x : Link) : (setLink s i x).pavs = s.pavs := rfl
@[simp] theorem setLink_sigs (i : Nat) (x : Link) : (setLink s i x).sigs = s.sigs := rfl
@[simp] theorem setLink_plots (i : Nat) (x : Link) : (setLink s i x).plots = s.plots := rfl
@[simp] theorem setLink_coll (i : Nat) (x : Link) : (setLink s i x).coll = s.coll := rfl
@[simp] theorem setLink_pools (i : Nat) (x : Link) : (setLink s i x).pools = s.pools := rfl
@[simp] theorem setLink_shards (i : Nat) (x : Link) : (setLink s i x).shards = s.shards := rfl
@[simp] theorem setLink_norms (i : Nat) (x : Link) : (setLink s i x).norms = s.norms := rfl
@[simp] theorem setLink_hbm (i : Nat) (x : Link) : (setLink s i x).hbm = s.hbm := rfl
@[simp] theorem setLink_route (i : Nat) (x : Link) : (setLink s i x).route = s.route := rfl
@[simp] theorem setLink_gate (i : Nat) (x : Link) : (setLink s i x).gate = s.gate := rfl
@[simp] theorem setLink_kiosk (i : Nat) (x : Link) : (setLink s i x).kiosk = s.kiosk := rfl
@[simp] theorem setLink_journal (i : Nat) (x : Link) : (setLink s i x).journal = s.journal := rfl
@[simp] theorem setLink_tele (i : Nat) (x : Link) : (setLink s i x).tele = s.tele := rfl
@[simp] theorem setLink_lodge (i : Nat) (x : Link) : (setLink s i x).lodge = s.lodge := rfl
@[simp] theorem setLink_power (i : Nat) (x : Link) : (setLink s i x).power = s.power := rfl
@[simp] theorem setLink_testResult (i : Nat) (x : Link) : (setLink s i x).testResult = s.testResult := rfl

/-! ### setSess -/

@[simp] theorem setSess_pending (i : Nat) (x : Session) : (setSess s i x).pending = s.pending := rfl
@[simp] theorem setSess_out (i : Nat) (x : Session) : (setSess s i x).out = s.out := rfl
@[simp] theorem setSess_sd (i : Nat) (x : Session) : (setSess s i x).sd = s.sd := rfl
@[simp] theorem setSess_ar (i : Nat) (x : Session) : (setSess s i x).ar = s.ar := rfl
@[simp] theorem setSess_enableMap (i : Nat) (x : Session) : (setSess s i x).enableMap = s.enableMap := rfl
@[simp] theorem setSess_failedMap (i : Nat) (x : Session) : (setSess s i x).failedMap = s.failedMap := rfl
@[simp] theorem setSess_powered (i : Nat) (x : Session) : (setSess s i x).powered = s.powered := rfl
@[simp] theorem setSess_powering (i : Nat) (x : Session) : (setSess s i x).powering = s.powering := rfl
@[simp] theorem setSess_pavs (i : Nat) (x : Session) : (setSess s i x).pavs = s.pavs := rfl
@[simp] theorem setSess_sigs (i : Nat) (x : Session) : (setSess s i x).sigs = s.sigs := rfl
@[simp] theorem setSess_plots (i : Nat) (x : Session) : (setSess s i x).plots = s.plots := rfl
@[simp] theorem setSess_coll (i : Nat) (x : Session) : (setSess s i x).coll = s.coll := rfl
@[simp] theorem setSess_pools (i : Nat) (x : Session) : (setSess s i x).pools = s.pools := rfl
@[simp] theorem setSess_shards (i : Nat) (x : Session) : (setSess s i x).shards = s.shards := rfl
@[simp] theorem setSess_norms (i : Nat) (x : Session) : (setSess s i x).norms = s.norms := rfl
@[simp] theorem setSess_hbm (i : Nat) (x : Session) : (setSess s i x).hbm = s.hbm := rfl
@[simp] theorem setSess_net (i : Nat) (x : Session) : (setSess s i x).net = s.net := rfl
@[simp] theorem setSess_route (i : Nat) (x : Session) : (setSess s i x).route = s.route := rfl
@[simp] theorem setSess_gate (i : Nat) (x : Session) : (setSess s i x).gate = s.gate := rfl
@[simp] theorem setSess_journal (i : Nat) (x : Session) : (setSess s i x).journal = s.journal := rfl
@[simp] theorem setSess_tele (i : Nat) (x : Session) : (setSess s i x).tele = s.tele := rfl
@[simp] theorem setSess_lodge (i : Nat) (x : Session) : (setSess s i x).lodge = s.lodge := rfl
@[simp] theorem setSess_power (i : Nat) (x : Session) : (setSess s i x).power = s.power := rfl
@[simp] theorem setSess_testResult (i : Nat) (x : Session) : (setSess s i x).testResult = s.testResult := rfl

/-! ### setDom -/

@[simp] theorem setDom_pending (i : Nat) (x : Domain) : (setDom s i x).pending = s.pending := rfl
@[simp] theorem setDom_out (i : Nat) (x : Domain) : (setDom s i x).out = s.out := rfl
@[simp] theorem setDom_sd (i : Nat) (x : Domain) : (setDom s i x).sd = s.sd := rfl
@[simp] theorem setDom_ar (i : Nat) (x : Domain) : (setDom s i x).ar = s.ar := rfl
@[simp] theorem setDom_enableMap (i : Nat) (x : Domain) : (setDom s i x).enableMap = s.enableMap := rfl
@[simp] theorem setDom_failedMap (i : Nat) (x : Domain) : (setDom s i x).failedMap = s.failedMap := rfl
@[simp] theorem setDom_powered (i : Nat) (x : Domain) : (setDom s i x).powered = s.powered := rfl
@[simp] theorem setDom_powering (i : Nat) (x : Domain) : (setDom s i x).powering = s.powering := rfl
@[simp] theorem setDom_pavs (i : Nat) (x : Domain) : (setDom s i x).pavs = s.pavs := rfl
@[simp] theorem setDom_sigs (i : Nat) (x : Domain) : (setDom s i x).sigs = s.sigs := rfl
@[simp] theorem setDom_plots (i : Nat) (x : Domain) : (setDom s i x).plots = s.plots := rfl
@[simp] theorem setDom_coll (i : Nat) (x : Domain) : (setDom s i x).coll = s.coll := rfl
@[simp] theorem setDom_pools (i : Nat) (x : Domain) : (setDom s i x).pools = s.pools := rfl
@[simp] theorem setDom_shards (i : Nat) (x : Domain) : (setDom s i x).shards = s.shards := rfl
@[simp] theorem setDom_norms (i : Nat) (x : Domain) : (setDom s i x).norms = s.norms := rfl
@[simp] theorem setDom_hbm (i : Nat) (x : Domain) : (setDom s i x).hbm = s.hbm := rfl
@[simp] theorem setDom_net (i : Nat) (x : Domain) : (setDom s i x).net = s.net := rfl
@[simp] theorem setDom_route (i : Nat) (x : Domain) : (setDom s i x).route = s.route := rfl
@[simp] theorem setDom_gate (i : Nat) (x : Domain) : (setDom s i x).gate = s.gate := rfl
@[simp] theorem setDom_kiosk (i : Nat) (x : Domain) : (setDom s i x).kiosk = s.kiosk := rfl
@[simp] theorem setDom_journal (i : Nat) (x : Domain) : (setDom s i x).journal = s.journal := rfl
@[simp] theorem setDom_tele (i : Nat) (x : Domain) : (setDom s i x).tele = s.tele := rfl
@[simp] theorem setDom_power (i : Nat) (x : Domain) : (setDom s i x).power = s.power := rfl
@[simp] theorem setDom_testResult (i : Nat) (x : Domain) : (setDom s i x).testResult = s.testResult := rfl

/-! ### setPool -/

@[simp] theorem setPool_pending (i : Nat) (x : Pool) : (setPool s i x).pending = s.pending := rfl
@[simp] theorem setPool_out (i : Nat) (x : Pool) : (setPool s i x).out = s.out := rfl
@[simp] theorem setPool_sd (i : Nat) (x : Pool) : (setPool s i x).sd = s.sd := rfl
@[simp] theorem setPool_ar (i : Nat) (x : Pool) : (setPool s i x).ar = s.ar := rfl
@[simp] theorem setPool_enableMap (i : Nat) (x : Pool) : (setPool s i x).enableMap = s.enableMap := rfl
@[simp] theorem setPool_failedMap (i : Nat) (x : Pool) : (setPool s i x).failedMap = s.failedMap := rfl
@[simp] theorem setPool_powered (i : Nat) (x : Pool) : (setPool s i x).powered = s.powered := rfl
@[simp] theorem setPool_powering (i : Nat) (x : Pool) : (setPool s i x).powering = s.powering := rfl
@[simp] theorem setPool_pavs (i : Nat) (x : Pool) : (setPool s i x).pavs = s.pavs := rfl
@[simp] theorem setPool_sigs (i : Nat) (x : Pool) : (setPool s i x).sigs = s.sigs := rfl
@[simp] theorem setPool_plots (i : Nat) (x : Pool) : (setPool s i x).plots = s.plots := rfl
@[simp] theorem setPool_coll (i : Nat) (x : Pool) : (setPool s i x).coll = s.coll := rfl
@[simp] theorem setPool_shards (i : Nat) (x : Pool) : (setPool s i x).shards = s.shards := rfl
@[simp] theorem setPool_norms (i : Nat) (x : Pool) : (setPool s i x).norms = s.norms := rfl
@[simp] theorem setPool_hbm (i : Nat) (x : Pool) : (setPool s i x).hbm = s.hbm := rfl
@[simp] theorem setPool_net (i : Nat) (x : Pool) : (setPool s i x).net = s.net := rfl
@[simp] theorem setPool_route (i : Nat) (x : Pool) : (setPool s i x).route = s.route := rfl
@[simp] theorem setPool_gate (i : Nat) (x : Pool) : (setPool s i x).gate = s.gate := rfl
@[simp] theorem setPool_kiosk (i : Nat) (x : Pool) : (setPool s i x).kiosk = s.kiosk := rfl
@[simp] theorem setPool_journal (i : Nat) (x : Pool) : (setPool s i x).journal = s.journal := rfl
@[simp] theorem setPool_tele (i : Nat) (x : Pool) : (setPool s i x).tele = s.tele := rfl
@[simp] theorem setPool_lodge (i : Nat) (x : Pool) : (setPool s i x).lodge = s.lodge := rfl
@[simp] theorem setPool_power (i : Nat) (x : Pool) : (setPool s i x).power = s.power := rfl
@[simp] theorem setPool_testResult (i : Nat) (x : Pool) : (setPool s i x).testResult = s.testResult := rfl

/-! ### settle -/

@[simp] theorem settle_pending  : (settle s).pending = s.pending := rfl
@[simp] theorem settle_out  : (settle s).out = s.out := rfl
@[simp] theorem settle_sd  : (settle s).sd = s.sd := rfl
@[simp] theorem settle_ar  : (settle s).ar = s.ar := rfl
@[simp] theorem settle_enableMap  : (settle s).enableMap = s.enableMap := rfl
@[simp] theorem settle_failedMap  : (settle s).failedMap = s.failedMap := rfl
@[simp] theorem settle_powered  : (settle s).powered = s.powered := rfl
@[simp] theorem settle_powering  : (settle s).powering = s.powering := rfl
@[simp] theorem settle_pavs  : (settle s).pavs = s.pavs := rfl
@[simp] theorem settle_sigs  : (settle s).sigs = s.sigs := rfl
@[simp] theorem settle_plots  : (settle s).plots = s.plots := rfl
@[simp] theorem settle_coll  : (settle s).coll = s.coll := rfl
@[simp] theorem settle_pools  : (settle s).pools = s.pools := rfl
@[simp] theorem settle_shards  : (settle s).shards = s.shards := rfl
@[simp] theorem settle_norms  : (settle s).norms = s.norms := rfl
@[simp] theorem settle_hbm  : (settle s).hbm = s.hbm := rfl
@[simp] theorem settle_net  : (settle s).net = s.net := rfl
@[simp] theorem settle_route  : (settle s).route = s.route := rfl
@[simp] theorem settle_gate  : (settle s).gate = s.gate := rfl
@[simp] theorem settle_kiosk  : (settle s).kiosk = s.kiosk := rfl
@[simp] theorem settle_journal  : (settle s).journal = s.journal := rfl
@[simp] theorem settle_lodge  : (settle s).lodge = s.lodge := rfl
@[simp] theorem settle_power  : (settle s).power = s.power := rfl
@[simp] theorem settle_testResult  : (settle s).testResult = s.testResult := rfl

/-! ### emit -/

@[simp] theorem emit_pending (rk : RecKind) (src : Src) (pl : Option Nat) (as : List (Nat × Nat)) : (emit s rk src pl as).pending = s.pending := rfl
@[simp] theorem emit_out (rk : RecKind) (src : Src) (pl : Option Nat) (as : List (Nat × Nat)) : (emit s rk src pl as).out = s.out := rfl
@[simp] theorem emit_sd (rk : RecKind) (src : Src) (pl : Option Nat) (as : List (Nat × Nat)) : (emit s rk src pl as).sd = s.sd := rfl
@[simp] theorem emit_ar (rk : RecKind) (src : Src) (pl : Option Nat) (as : List (Nat × Nat)) : (emit s rk src pl as).ar = s.ar := rfl
@[simp] theorem emit_enableMap (rk : RecKind) (src : Src) (pl : Option Nat) (as : List (Nat × Nat)) : (emit s rk src pl as).enableMap = s.enableMap := rfl
@[simp] theorem emit_failedMap (rk : RecKind) (src : Src) (pl : Option Nat) (as : List (Nat × Nat)) : (emit s rk src pl as).failedMap = s.failedMap := rfl
@[simp] theorem emit_powered (rk : RecKind) (src : Src) (pl : Option Nat) (as : List (Nat × Nat)) : (emit s rk src pl as).powered = s.powered := rfl
@[simp] theorem emit_powering (rk : RecKind) (src : Src) (pl : Option Nat) (as : List (Nat × Nat)) : (emit s rk src pl as).powering = s.powering := rfl
@[simp] theorem emit_pavs (rk : RecKind) (src : Src) (pl : Option Nat) (as : List (Nat × Nat)) : (emit s rk src pl as).pavs = s.pavs := rfl
@[simp] theorem emit_sigs (rk : RecKind) (src : Src) (pl : Option Nat) (as : List (Nat × Nat)) : (emit s rk src pl as).sigs = s.sigs := rfl
@[simp] theorem emit_plots (rk : RecKind) (src : Src) (pl : Option Nat) (as : List (Nat × Nat)) : (emit s rk src pl as).plots = s.plots := rfl
@[simp] theorem emit_coll (rk : RecKind) (src : Src) (pl : Option Nat) (as : List (Nat × Nat)) : (emit s rk src pl as).coll = s.coll := rfl
@[simp] theorem emit_pools (rk : RecKind) (src : Src) (pl : Option Nat) (as : List (Nat × Nat)) : (emit s rk src pl as).pools = s.pools := rfl
@[simp] theorem emit_shards (rk : RecKind) (src : Src) (pl : Option Nat) (as : List (Nat × Nat)) : (emit s rk src pl as).shards = s.shards := rfl
@[simp] theorem emit_norms (rk : RecKind) (src : Src) (pl : Option Nat) (as : List (Nat × Nat)) : (emit s rk src pl as).norms = s.norms := rfl
@[simp] theorem emit_hbm (rk : RecKind) (src : Src) (pl : Option Nat) (as : List (Nat × Nat)) : (emit s rk src pl as).hbm = s.hbm := rfl
@[simp] theorem emit_net (rk : RecKind) (src : Src) (pl : Option Nat) (as : List (Nat × Nat)) : (emit s rk src pl as).net = s.net := rfl
@[simp] theorem emit_route (rk : RecKind) (src : Src) (pl : Option Nat) (as : List (Nat × Nat)) : (emit s rk src pl as).route = s.route := rfl
@[simp] theorem emit_gate (rk : RecKind) (src : Src) (pl : Option Nat) (as : List (Nat × Nat)) : (emit s rk src pl as).gate = s.gate := rfl
@[simp] theorem emit_kiosk (rk : RecKind) (src : Src) (pl : Option Nat) (as : List (Nat × Nat)) : (emit s rk src pl as).kiosk = s.kiosk := rfl
@[simp] theorem emit_journal (rk : RecKind) (src : Src) (pl : Option Nat) (as : List (Nat × Nat)) : (emit s rk src pl as).journal = s.journal := rfl
@[simp] theorem emit_lodge (rk : RecKind) (src : Src) (pl : Option Nat) (as : List (Nat × Nat)) : (emit s rk src pl as).lodge = s.lodge := rfl
@[simp] theorem emit_power (rk : RecKind) (src : Src) (pl : Option Nat) (as : List (Nat × Nat)) : (emit s rk src pl as).power = s.power := rfl
@[simp] theorem emit_testResult (rk : RecKind) (src : Src) (pl : Option Nat) (as : List (Nat × Nat)) : (emit s rk src pl as).testResult = s.testResult := rfl

/-! ### modPav -/

@[simp] theorem modPav_pending (i : Nat) (f : Pavilion → Pavilion) : (modPav s i f).pending = s.pending := rfl
@[simp] theorem modPav_out (i : Nat) (f : Pavilion → Pavilion) : (modPav s i f).out = s.out := rfl
@[simp] theorem modPav_sd (i : Nat) (f : Pavilion → Pavilion) : (modPav s i f).sd = s.sd := rfl
@[simp] theorem modPav_ar (i : Nat) (f : Pavilion → Pavilion) : (modPav s i f).ar = s.ar := rfl
@[simp] theorem modPav_enableMap (i : Nat) (f : Pavilion → Pavilion) : (modPav s i f).enableMap = s.enableMap := rfl
@[simp] theorem modPav_failedMap (i : Nat) (f : Pavilion → Pavilion) : (modPav s i f).failedMap = s.failedMap := rfl
@[simp] theorem modPav_powered (i : Nat) (f : Pavilion → Pavilion) : (modPav s i f).powered = s.powered := rfl
@[simp] theorem modPav_powering (i : Nat) (f : Pavilion → Pavilion) : (modPav s i f).powering = s.powering := rfl
@[simp] theorem modPav_sigs (i : Nat) (f : Pavilion → Pavilion) : (modPav s i f).sigs = s.sigs := rfl
@[simp] theorem modPav_plots (i : Nat) (f : Pavilion → Pavilion) : (modPav s i f).plots = s.plots := rfl
@[simp] theorem modPav_coll (i : Nat) (f : Pavilion → Pavilion) : (modPav s i f).coll = s.coll := rfl
@[simp] theorem modPav_pools (i : Nat) (f : Pavilion → Pavilion) : (modPav s i f).pools = s.pools := rfl
@[simp] theorem modPav_shards (i : Nat) (f : Pavilion → Pavilion) : (modPav s i f).shards = s.shards := rfl
@[simp] theorem modPav_norms (i : Nat) (f : Pavilion → Pavilion) : (modPav s i f).norms = s.norms := rfl
@[simp] theorem modPav_hbm (i : Nat) (f : Pavilion → Pavilion) : (modPav s i f).hbm = s.hbm := rfl
@[simp] theorem modPav_net (i : Nat) (f : Pavilion → Pavilion) : (modPav s i f).net = s.net := rfl
@[simp] theorem modPav_route (i : Nat) (f : Pavilion → Pavilion) : (modPav s i f).route = s.route := rfl
@[simp] theorem modPav_gate (i : Nat) (f : Pavilion → Pavilion) : (modPav s i f).gate = s.gate := rfl
@[simp] theorem modPav_kiosk (i : Nat) (f : Pavilion → Pavilion) : (modPav s i f).kiosk = s.kiosk := rfl
@[simp] theorem modPav_journal (i : Nat) (f : Pavilion → Pavilion) : (modPav s i f).journal = s.journal := rfl
@[simp] theorem modPav_tele (i : Nat) (f : Pavilion → Pavilion) : (modPav s i f).tele = s.tele := rfl
@[simp] theorem modPav_lodge (i : Nat) (f : Pavilion → Pavilion) : (modPav s i f).lodge = s.lodge := rfl
@[simp] theorem modPav_power (i : Nat) (f : Pavilion → Pavilion) : (modPav s i f).power = s.power := rfl
@[simp] theorem modPav_testResult (i : Nat) (f : Pavilion → Pavilion) : (modPav s i f).testResult = s.testResult := rfl

/-! ### modEng -/

@[simp] theorem modEng_pending (u : EngRef) (f : Engine → Engine) : (modEng s u f).pending = s.pending := rfl
@[simp] theorem modEng_out (u : EngRef) (f : Engine → Engine) : (modEng s u f).out = s.out := rfl
@[simp] theorem modEng_sd (u : EngRef) (f : Engine → Engine) : (modEng s u f).sd = s.sd := rfl
@[simp] theorem modEng_ar (u : EngRef) (f : Engine → Engine) : (modEng s u f).ar = s.ar := rfl
@[simp] theorem modEng_enableMap (u : EngRef) (f : Engine → Engine) : (modEng s u f).enableMap = s.enableMap := rfl
@[simp] theorem modEng_failedMap (u : EngRef) (f : Engine → Engine) : (modEng s u f).failedMap = s.failedMap := rfl
@[simp] theorem modEng_powered (u : EngRef) (f : Engine → Engine) : (modEng s u f).powered = s.powered := rfl
@[simp] theorem modEng_powering (u : EngRef) (f : Engine → Engine) : (modEng s u f).powering = s.powering := rfl
@[simp] theorem modEng_sigs (u : EngRef) (f : Engine → Engine) : (modEng s u f).sigs = s.sigs := rfl
@[simp] theorem modEng_plots (u : EngRef) (f : Engine → Engine) : (modEng s u f).plots = s.plots := rfl
@[simp] theorem modEng_coll (u : EngRef) (f : Engine → Engine) : (modEng s u f).coll = s.coll := rfl
@[simp] theorem modEng_pools (u : EngRef) (f : Engine → Engine) : (modEng s u f).pools = s.pools := rfl
@[simp] theorem modEng_shards (u : EngRef) (f : Engine → Engine) : (modEng s u f).shards = s.shards := rfl
@[simp] theorem modEng_norms (u : EngRef) (f : Engine → Engine) : (modEng s u f).norms = s.norms := rfl
@[simp] theorem modEng_hbm (u : EngRef) (f : Engine → Engine) : (modEng s u f).hbm = s.hbm := rfl
@[simp] theorem modEng_net (u : EngRef) (f : Engine → Engine) : (modEng s u f).net = s.net := rfl
@[simp] theorem modEng_route (u : EngRef) (f : Engine → Engine) : (modEng s u f).route = s.route := rfl
@[simp] theorem modEng_gate (u : EngRef) (f : Engine → Engine) : (modEng s u f).gate = s.gate := rfl
@[simp] theorem modEng_kiosk (u : EngRef) (f : Engine → Engine) : (modEng s u f).kiosk = s.kiosk := rfl
@[simp] theorem modEng_journal (u : EngRef) (f : Engine → Engine) : (modEng s u f).journal = s.journal := rfl
@[simp] theorem modEng_tele (u : EngRef) (f : Engine → Engine) : (modEng s u f).tele = s.tele := rfl
@[simp] theorem modEng_lodge (u : EngRef) (f : Engine → Engine) : (modEng s u f).lodge = s.lodge := rfl
@[simp] theorem modEng_power (u : EngRef) (f : Engine → Engine) : (modEng s u f).power = s.power := rfl
@[simp] theorem modEng_testResult (u : EngRef) (f : Engine → Engine) : (modEng s u f).testResult = s.testResult := rfl

/-! ### modPlot -/

@[simp] theorem modPlot_pending (i : Nat) (f : Plot → Plot) : (modPlot s i f).pending = s.pending := rfl
@[simp] theorem modPlot_out (i : Nat) (f : Plot → Plot) : (modPlot s i f).out = s.out := rfl
@[simp] theorem modPlot_sd (i : Nat) (f : Plot → Plot) : (modPlot s i f).sd = s.sd := rfl
@[simp] theorem modPlot_ar (i : Nat) (f : Plot → Plot) : (modPlot s i f).ar = s.ar := rfl
@[simp] theorem modPlot_enableMap (i : Nat) (f : Plot → Plot) : (modPlot s i f).enableMap = s.enableMap := rfl
@[simp] theorem modPlot_failedMap (i : Nat) (f : Plot → Plot) : (modPlot s i f).failedMap = s.failedMap := rfl
@[simp] theorem modPlot_powered (i : Nat) (f : Plot → Plot) : (modPlot s i f).powered = s.powered := rfl
@[simp] theorem modPlot_powering (i : Nat) (f : Plot → Plot) : (modPlot s i f).powering = s.powering := rfl
@[simp] theorem modPlot_pavs (i : Nat) (f : Plot → Plot) : (modPlot s i f).pavs = s.pavs := rfl
@[simp] theorem modPlot_sigs (i : Nat) (f : Plot → Plot) : (modPlot s i f).sigs = s.sigs := rfl
@[simp] theorem modPlot_coll (i : Nat) (f : Plot → Plot) : (modPlot s i f).coll = s.coll := rfl
@[simp] theorem modPlot_pools (i : Nat) (f : Plot → Plot) : (modPlot s i f).pools = s.pools := rfl
@[simp] theorem modPlot_shards (i : Nat) (f : Plot → Plot) : (modPlot s i f).shards = s.shards := rfl
@[simp] theorem modPlot_norms (i : Nat) (f : Plot → Plot) : (modPlot s i f).norms = s.norms := rfl
@[simp] theorem modPlot_hbm (i : Nat) (f : Plot → Plot) : (modPlot s i f).hbm = s.hbm := rfl
@[simp] theorem modPlot_net (i : Nat) (f : Plot → Plot) : (modPlot s i f).net = s.net := rfl
@[simp] theorem modPlot_route (i : Nat) (f : Plot → Plot) : (modPlot s i f).route = s.route := rfl
@[simp] theorem modPlot_gate (i : Nat) (f : Plot → Plot) : (modPlot s i f).gate = s.gate := rfl
@[simp] theorem modPlot_kiosk (i : Nat) (f : Plot → Plot) : (modPlot s i f).kiosk = s.kiosk := rfl
@[simp] theorem modPlot_journal (i : Nat) (f : Plot → Plot) : (modPlot s i f).journal = s.journal := rfl
@[simp] theorem modPlot_tele (i : Nat) (f : Plot → Plot) : (modPlot s i f).tele = s.tele := rfl
@[simp] theorem modPlot_lodge (i : Nat) (f : Plot → Plot) : (modPlot s i f).lodge = s.lodge := rfl
@[simp] theorem modPlot_power (i : Nat) (f : Plot → Plot) : (modPlot s i f).power = s.power := rfl
@[simp] theorem modPlot_testResult (i : Nat) (f : Plot → Plot) : (modPlot s i f).testResult = s.testResult := rfl

/-! ### modDie -/

@[simp] theorem modDie_pending (i : Nat) (f : Dovecote → Dovecote) : (modDie s i f).pending = s.pending := rfl
@[simp] theorem modDie_out (i : Nat) (f : Dovecote → Dovecote) : (modDie s i f).out = s.out := rfl
@[simp] theorem modDie_sd (i : Nat) (f : Dovecote → Dovecote) : (modDie s i f).sd = s.sd := rfl
@[simp] theorem modDie_ar (i : Nat) (f : Dovecote → Dovecote) : (modDie s i f).ar = s.ar := rfl
@[simp] theorem modDie_enableMap (i : Nat) (f : Dovecote → Dovecote) : (modDie s i f).enableMap = s.enableMap := rfl
@[simp] theorem modDie_failedMap (i : Nat) (f : Dovecote → Dovecote) : (modDie s i f).failedMap = s.failedMap := rfl
@[simp] theorem modDie_powered (i : Nat) (f : Dovecote → Dovecote) : (modDie s i f).powered = s.powered := rfl
@[simp] theorem modDie_powering (i : Nat) (f : Dovecote → Dovecote) : (modDie s i f).powering = s.powering := rfl
@[simp] theorem modDie_pavs (i : Nat) (f : Dovecote → Dovecote) : (modDie s i f).pavs = s.pavs := rfl
@[simp] theorem modDie_sigs (i : Nat) (f : Dovecote → Dovecote) : (modDie s i f).sigs = s.sigs := rfl
@[simp] theorem modDie_plots (i : Nat) (f : Dovecote → Dovecote) : (modDie s i f).plots = s.plots := rfl
@[simp] theorem modDie_pools (i : Nat) (f : Dovecote → Dovecote) : (modDie s i f).pools = s.pools := rfl
@[simp] theorem modDie_shards (i : Nat) (f : Dovecote → Dovecote) : (modDie s i f).shards = s.shards := rfl
@[simp] theorem modDie_norms (i : Nat) (f : Dovecote → Dovecote) : (modDie s i f).norms = s.norms := rfl
@[simp] theorem modDie_hbm (i : Nat) (f : Dovecote → Dovecote) : (modDie s i f).hbm = s.hbm := rfl
@[simp] theorem modDie_net (i : Nat) (f : Dovecote → Dovecote) : (modDie s i f).net = s.net := rfl
@[simp] theorem modDie_route (i : Nat) (f : Dovecote → Dovecote) : (modDie s i f).route = s.route := rfl
@[simp] theorem modDie_gate (i : Nat) (f : Dovecote → Dovecote) : (modDie s i f).gate = s.gate := rfl
@[simp] theorem modDie_kiosk (i : Nat) (f : Dovecote → Dovecote) : (modDie s i f).kiosk = s.kiosk := rfl
@[simp] theorem modDie_journal (i : Nat) (f : Dovecote → Dovecote) : (modDie s i f).journal = s.journal := rfl
@[simp] theorem modDie_tele (i : Nat) (f : Dovecote → Dovecote) : (modDie s i f).tele = s.tele := rfl
@[simp] theorem modDie_lodge (i : Nat) (f : Dovecote → Dovecote) : (modDie s i f).lodge = s.lodge := rfl
@[simp] theorem modDie_power (i : Nat) (f : Dovecote → Dovecote) : (modDie s i f).power = s.power := rfl
@[simp] theorem modDie_testResult (i : Nat) (f : Dovecote → Dovecote) : (modDie s i f).testResult = s.testResult := rfl

/-! ### modShard -/

@[simp] theorem modShard_pending (i : Nat) (f : Shard → Shard) : (modShard s i f).pending = s.pending := rfl
@[simp] theorem modShard_out (i : Nat) (f : Shard → Shard) : (modShard s i f).out = s.out := rfl
@[simp] theorem modShard_sd (i : Nat) (f : Shard → Shard) : (modShard s i f).sd = s.sd := rfl
@[simp] theorem modShard_ar (i : Nat) (f : Shard → Shard) : (modShard s i f).ar = s.ar := rfl
@[simp] theorem modShard_enableMap (i : Nat) (f : Shard → Shard) : (modShard s i f).enableMap = s.enableMap := rfl
@[simp] theorem modShard_failedMap (i : Nat) (f : Shard → Shard) : (modShard s i f).failedMap = s.failedMap := rfl
@[simp] theorem modShard_powered (i : Nat) (f : Shard → Shard) : (modShard s i f).powered = s.powered := rfl
@[simp] theorem modShard_powering (i : Nat) (f : Shard → Shard) : (modShard s i f).powering = s.powering := rfl
@[simp] theorem modShard_pavs (i : Nat) (f : Shard → Shard) : (modShard s i f).pavs = s.pavs := rfl
@[simp] theorem modShard_sigs (i : Nat) (f : Shard → Shard) : (modShard s i f).sigs = s.sigs := rfl
@[simp] theorem modShard_plots (i : Nat) (f : Shard → Shard) : (modShard s i f).plots = s.plots := rfl
@[simp] theorem modShard_coll (i : Nat) (f : Shard → Shard) : (modShard s i f).coll = s.coll := rfl
@[simp] theorem modShard_pools (i : Nat) (f : Shard → Shard) : (modShard s i f).pools = s.pools := rfl
@[simp] theorem modShard_norms (i : Nat) (f : Shard → Shard) : (modShard s i f).norms = s.norms := rfl
@[simp] theorem modShard_hbm (i : Nat) (f : Shard → Shard) : (modShard s i f).hbm = s.hbm := rfl
@[simp] theorem modShard_net (i : Nat) (f : Shard → Shard) : (modShard s i f).net = s.net := rfl
@[simp] theorem modShard_route (i : Nat) (f : Shard → Shard) : (modShard s i f).route = s.route := rfl
@[simp] theorem modShard_gate (i : Nat) (f : Shard → Shard) : (modShard s i f).gate = s.gate := rfl
@[simp] theorem modShard_kiosk (i : Nat) (f : Shard → Shard) : (modShard s i f).kiosk = s.kiosk := rfl
@[simp] theorem modShard_journal (i : Nat) (f : Shard → Shard) : (modShard s i f).journal = s.journal := rfl
@[simp] theorem modShard_tele (i : Nat) (f : Shard → Shard) : (modShard s i f).tele = s.tele := rfl
@[simp] theorem modShard_lodge (i : Nat) (f : Shard → Shard) : (modShard s i f).lodge = s.lodge := rfl
@[simp] theorem modShard_power (i : Nat) (f : Shard → Shard) : (modShard s i f).power = s.power := rfl
@[simp] theorem modShard_testResult (i : Nat) (f : Shard → Shard) : (modShard s i f).testResult = s.testResult := rfl

/-! ### modNorm -/

@[simp] theorem modNorm_pending (i : Nat) (f : Norm → Norm) : (modNorm s i f).pending = s.pending := rfl
@[simp] theorem modNorm_out (i : Nat) (f : Norm → Norm) : (modNorm s i f).out = s.out := rfl
@[simp] theorem modNorm_sd (i : Nat) (f : Norm → Norm) : (modNorm s i f).sd = s.sd := rfl
@[simp] theorem modNorm_ar (i : Nat) (f : Norm → Norm) : (modNorm s i f).ar = s.ar := rfl
@[simp] theorem modNorm_enableMap (i : Nat) (f : Norm → Norm) : (modNorm s i f).enableMap = s.enableMap := rfl
@[simp] theorem modNorm_failedMap (i : Nat) (f : Norm → Norm) : (modNorm s i f).failedMap = s.failedMap := rfl
@[simp] theorem modNorm_powered (i : Nat) (f : Norm → Norm) : (modNorm s i f).powered = s.powered := rfl
@[simp] theorem modNorm_powering (i : Nat) (f : Norm → Norm) : (modNorm s i f).powering = s.powering := rfl
@[simp] theorem modNorm_pavs (i : Nat) (f : Norm → Norm) : (modNorm s i f).pavs = s.pavs := rfl
@[simp] theorem modNorm_sigs (i : Nat) (f : Norm → Norm) : (modNorm s i f).sigs = s.sigs := rfl
@[simp] theorem modNorm_plots (i : Nat) (f : Norm → Norm) : (modNorm s i f).plots = s.plots := rfl
@[simp] theorem modNorm_coll (i : Nat) (f : Norm → Norm) : (modNorm s i f).coll = s.coll := rfl
@[simp] theorem modNorm_pools (i : Nat) (f : Norm → Norm) : (modNorm s i f).pools = s.pools := rfl
@[simp] theorem modNorm_shards (i : Nat) (f : Norm → Norm) : (modNorm s i f).shards = s.shards := rfl
@[simp] theorem modNorm_hbm (i : Nat) (f : Norm → Norm) : (modNorm s i f).hbm = s.hbm := rfl
@[simp] theorem modNorm_net (i : Nat) (f : Norm → Norm) : (modNorm s i f).net = s.net := rfl
@[simp] theorem modNorm_route (i : Nat) (f : Norm → Norm) : (modNorm s i f).route = s.route := rfl
@[simp] theorem modNorm_gate (i : Nat) (f : Norm → Norm) : (modNorm s i f).gate = s.gate := rfl
@[simp] theorem modNorm_kiosk (i : Nat) (f : Norm → Norm) : (modNorm s i f).kiosk = s.kiosk := rfl
@[simp] theorem modNorm_journal (i : Nat) (f : Norm → Norm) : (modNorm s i f).journal = s.journal := rfl
@[simp] theorem modNorm_tele (i : Nat) (f : Norm → Norm) : (modNorm s i f).tele = s.tele := rfl
@[simp] theorem modNorm_lodge (i : Nat) (f : Norm → Norm) : (modNorm s i f).lodge = s.lodge := rfl
@[simp] theorem modNorm_power (i : Nat) (f : Norm → Norm) : (modNorm s i f).power = s.power := rfl
@[simp] theorem modNorm_testResult (i : Nat) (f : Norm → Norm) : (modNorm s i f).testResult = s.testResult := rfl

/-! ### modStack -/

@[simp] theorem modStack_pending (i : Nat) (f : Stack → Stack) : (modStack s i f).pending = s.pending := rfl
@[simp] theorem modStack_out (i : Nat) (f : Stack → Stack) : (modStack s i f).out = s.out := rfl
@[simp] theorem modStack_sd (i : Nat) (f : Stack → Stack) : (modStack s i f).sd = s.sd := rfl
@[simp] theorem modStack_ar (i : Nat) (f : Stack → Stack) : (modStack s i f).ar = s.ar := rfl
@[simp] theorem modStack_enableMap (i : Nat) (f : Stack → Stack) : (modStack s i f).enableMap = s.enableMap := rfl
@[simp] theorem modStack_failedMap (i : Nat) (f : Stack → Stack) : (modStack s i f).failedMap = s.failedMap := rfl
@[simp] theorem modStack_powered (i : Nat) (f : Stack → Stack) : (modStack s i f).powered = s.powered := rfl
@[simp] theorem modStack_powering (i : Nat) (f : Stack → Stack) : (modStack s i f).powering = s.powering := rfl
@[simp] theorem modStack_pavs (i : Nat) (f : Stack → Stack) : (modStack s i f).pavs = s.pavs := rfl
@[simp] theorem modStack_sigs (i : Nat) (f : Stack → Stack) : (modStack s i f).sigs = s.sigs := rfl
@[simp] theorem modStack_plots (i : Nat) (f : Stack → Stack) : (modStack s i f).plots = s.plots := rfl
@[simp] theorem modStack_coll (i : Nat) (f : Stack → Stack) : (modStack s i f).coll = s.coll := rfl
@[simp] theorem modStack_pools (i : Nat) (f : Stack → Stack) : (modStack s i f).pools = s.pools := rfl
@[simp] theorem modStack_shards (i : Nat) (f : Stack → Stack) : (modStack s i f).shards = s.shards := rfl
@[simp] theorem modStack_norms (i : Nat) (f : Stack → Stack) : (modStack s i f).norms = s.norms := rfl
@[simp] theorem modStack_net (i : Nat) (f : Stack → Stack) : (modStack s i f).net = s.net := rfl
@[simp] theorem modStack_route (i : Nat) (f : Stack → Stack) : (modStack s i f).route = s.route := rfl
@[simp] theorem modStack_gate (i : Nat) (f : Stack → Stack) : (modStack s i f).gate = s.gate := rfl
@[simp] theorem modStack_kiosk (i : Nat) (f : Stack → Stack) : (modStack s i f).kiosk = s.kiosk := rfl
@[simp] theorem modStack_journal (i : Nat) (f : Stack → Stack) : (modStack s i f).journal = s.journal := rfl
@[simp] theorem modStack_tele (i : Nat) (f : Stack → Stack) : (modStack s i f).tele = s.tele := rfl
@[simp] theorem modStack_lodge (i : Nat) (f : Stack → Stack) : (modStack s i f).lodge = s.lodge := rfl
@[simp] theorem modStack_power (i : Nat) (f : Stack → Stack) : (modStack s i f).power = s.power := rfl
@[simp] theorem modStack_testResult (i : Nat) (f : Stack → Stack) : (modStack s i f).testResult = s.testResult := rfl

/-! ### modLink -/

@[simp] theorem modLink_pending (i : Nat) (f : Link → Link) : (modLink s i f).pending = s.pending := rfl
@[simp] theorem modLink_out (i : Nat) (f : Link → Link) : (modLink s i f).out = s.out := rfl
@[simp] theorem modLink_sd (i : Nat) (f : Link → Link) : (modLink s i f).sd = s.sd := rfl
@[simp] theorem modLink_ar (i : Nat) (f : Link → Link) : (modLink s i f).ar = s.ar := rfl
@[simp] theorem modLink_enableMap (i : Nat) (f : Link → Link) : (modLink s i f).enableMap = s.enableMap := rfl
@[simp] theorem modLink_failedMap (i : Nat) (f : Link → Link) : (modLink s i f).failedMap = s.failedMap := rfl
@[simp] theorem modLink_powered (i : Nat) (f : Link → Link) : (modLink s i f).powered = s.powered := rfl
@[simp] theorem modLink_powering (i : Nat) (f : Link → Link) : (modLink s i f).powering = s.powering := rfl
@[simp] theorem modLink_pavs (i : Nat) (f : Link → Link) : (modLink s i f).pavs = s.pavs := rfl
@[simp] theorem modLink_sigs (i : Nat) (f : Link → Link) : (modLink s i f).sigs = s.sigs := rfl
@[simp] theorem modLink_plots (i : Nat) (f : Link → Link) : (modLink s i f).plots = s.plots := rfl
@[simp] theorem modLink_coll (i : Nat) (f : Link → Link) : (modLink s i f).coll = s.coll := rfl
@[simp] theorem modLink_pools (i : Nat) (f : Link → Link) : (modLink s i f).pools = s.pools := rfl
@[simp] theorem modLink_shards (i : Nat) (f : Link → Link) : (modLink s i f).shards = s.shards := rfl
@[simp] theorem modLink_norms (i : Nat) (f : Link → Link) : (modLink s i f).norms = s.norms := rfl
@[simp] theorem modLink_hbm (i : Nat) (f : Link → Link) : (modLink s i f).hbm = s.hbm := rfl
@[simp] theorem modLink_route (i : Nat) (f : Link → Link) : (modLink s i f).route = s.route := rfl
@[simp] theorem modLink_gate (i : Nat) (f : Link → Link) : (modLink s i f).gate = s.gate := rfl
@[simp] theorem modLink_kiosk (i : Nat) (f : Link → Link) : (modLink s i f).kiosk = s.kiosk := rfl
@[simp] theorem modLink_journal (i : Nat) (f : Link → Link) : (modLink s i f).journal = s.journal := rfl
@[simp] theorem modLink_tele (i : Nat) (f : Link → Link) : (modLink s i f).tele = s.tele := rfl
@[simp] theorem modLink_lodge (i : Nat) (f : Link → Link) : (modLink s i f).lodge = s.lodge := rfl
@[simp] theorem modLink_power (i : Nat) (f : Link → Link) : (modLink s i f).power = s.power := rfl
@[simp] theorem modLink_testResult (i : Nat) (f : Link → Link) : (modLink s i f).testResult = s.testResult := rfl

/-! ### modSess -/

@[simp] theorem modSess_pending (i : Nat) (f : Session → Session) : (modSess s i f).pending = s.pending := rfl
@[simp] theorem modSess_out (i : Nat) (f : Session → Session) : (modSess s i f).out = s.out := rfl
@[simp] theorem modSess_sd (i : Nat) (f : Session → Session) : (modSess s i f).sd = s.sd := rfl
@[simp] theorem modSess_ar (i : Nat) (f : Session → Session) : (modSess s i f).ar = s.ar := rfl
@[simp] theorem modSess_enableMap (i : Nat) (f : Session → Session) : (modSess s i f).enableMap = s.enableMap := rfl
@[simp] theorem modSess_failedMap (i : Nat) (f : Session → Session) : (modSess s i f).failedMap = s.failedMap := rfl
@[simp] theorem modSess_powered (i : Nat) (f : Session → Session) : (modSess s i f).powered = s.powered := rfl
@[simp] theorem modSess_powering (i : Nat) (f : Session → Session) : (modSess s i f).powering = s.powering := rfl
@[simp] theorem modSess_pavs (i : Nat) (f : Session → Session) : (modSess s i f).pavs = s.pavs := rfl
@[simp] theorem modSess_sigs (i : Nat) (f : Session → Session) : (modSess s i f).sigs = s.sigs := rfl
@[simp] theorem modSess_plots (i : Nat) (f : Session → Session) : (modSess s i f).plots = s.plots := rfl
@[simp] theorem modSess_coll (i : Nat) (f : Session → Session) : (modSess s i f).coll = s.coll := rfl
@[simp] theorem modSess_pools (i : Nat) (f : Session → Session) : (modSess s i f).pools = s.pools := rfl
@[simp] theorem modSess_shards (i : Nat) (f : Session → Session) : (modSess s i f).shards = s.shards := rfl
@[simp] theorem modSess_norms (i : Nat) (f : Session → Session) : (modSess s i f).norms = s.norms := rfl
@[simp] theorem modSess_hbm (i : Nat) (f : Session → Session) : (modSess s i f).hbm = s.hbm := rfl
@[simp] theorem modSess_net (i : Nat) (f : Session → Session) : (modSess s i f).net = s.net := rfl
@[simp] theorem modSess_route (i : Nat) (f : Session → Session) : (modSess s i f).route = s.route := rfl
@[simp] theorem modSess_gate (i : Nat) (f : Session → Session) : (modSess s i f).gate = s.gate := rfl
@[simp] theorem modSess_journal (i : Nat) (f : Session → Session) : (modSess s i f).journal = s.journal := rfl
@[simp] theorem modSess_tele (i : Nat) (f : Session → Session) : (modSess s i f).tele = s.tele := rfl
@[simp] theorem modSess_lodge (i : Nat) (f : Session → Session) : (modSess s i f).lodge = s.lodge := rfl
@[simp] theorem modSess_power (i : Nat) (f : Session → Session) : (modSess s i f).power = s.power := rfl
@[simp] theorem modSess_testResult (i : Nat) (f : Session → Session) : (modSess s i f).testResult = s.testResult := rfl

/-! ### modDom -/

@[simp] theorem modDom_pending (i : Nat) (f : Domain → Domain) : (modDom s i f).pending = s.pending := rfl
@[simp] theorem modDom_out (i : Nat) (f : Domain → Domain) : (modDom s i f).out = s.out := rfl
@[simp] theorem modDom_sd (i : Nat) (f : Domain → Domain) : (modDom s i f).sd = s.sd := rfl
@[simp] theorem modDom_ar (i : Nat) (f : Domain → Domain) : (modDom s i f).ar = s.ar := rfl
@[simp] theorem modDom_enableMap (i : Nat) (f : Domain → Domain) : (modDom s i f).enableMap = s.enableMap := rfl
@[simp] theorem modDom_failedMap (i : Nat) (f : Domain → Domain) : (modDom s i f).failedMap = s.failedMap := rfl
@[simp] theorem modDom_powered (i : Nat) (f : Domain → Domain) : (modDom s i f).powered = s.powered := rfl
@[simp] theorem modDom_powering (i : Nat) (f : Domain → Domain) : (modDom s i f).powering = s.powering := rfl
@[simp] theorem modDom_pavs (i : Nat) (f : Domain → Domain) : (modDom s i f).pavs = s.pavs := rfl
@[simp] theorem modDom_sigs (i : Nat) (f : Domain → Domain) : (modDom s i f).sigs = s.sigs := rfl
@[simp] theorem modDom_plots (i : Nat) (f : Domain → Domain) : (modDom s i f).plots = s.plots := rfl
@[simp] theorem modDom_coll (i : Nat) (f : Domain → Domain) : (modDom s i f).coll = s.coll := rfl
@[simp] theorem modDom_pools (i : Nat) (f : Domain → Domain) : (modDom s i f).pools = s.pools := rfl
@[simp] theorem modDom_shards (i : Nat) (f : Domain → Domain) : (modDom s i f).shards = s.shards := rfl
@[simp] theorem modDom_norms (i : Nat) (f : Domain → Domain) : (modDom s i f).norms = s.norms := rfl
@[simp] theorem modDom_hbm (i : Nat) (f : Domain → Domain) : (modDom s i f).hbm = s.hbm := rfl
@[simp] theorem modDom_net (i : Nat) (f : Domain → Domain) : (modDom s i f).net = s.net := rfl
@[simp] theorem modDom_route (i : Nat) (f : Domain → Domain) : (modDom s i f).route = s.route := rfl
@[simp] theorem modDom_gate (i : Nat) (f : Domain → Domain) : (modDom s i f).gate = s.gate := rfl
@[simp] theorem modDom_kiosk (i : Nat) (f : Domain → Domain) : (modDom s i f).kiosk = s.kiosk := rfl
@[simp] theorem modDom_journal (i : Nat) (f : Domain → Domain) : (modDom s i f).journal = s.journal := rfl
@[simp] theorem modDom_tele (i : Nat) (f : Domain → Domain) : (modDom s i f).tele = s.tele := rfl
@[simp] theorem modDom_power (i : Nat) (f : Domain → Domain) : (modDom s i f).power = s.power := rfl
@[simp] theorem modDom_testResult (i : Nat) (f : Domain → Domain) : (modDom s i f).testResult = s.testResult := rfl

end Sys2Proof.Machine
end

