-- ==== Sys2Proof/Laws/Table.lean ====
section
/-! SUPPORT. The laws of sparse tables and of memory: reading after writing, other places left alone, and the canonical form kept. -/

namespace Sys2Proof.Machine

/-! ### Tables -/

@[simp] theorem tblGet_tblSet_same {α : Type} (d : α) (t : Tbl α) (k : Nat) (v : α) : tblGet d (tblSet t k v) k = v := by
  induction t with
  | nil => simp [tblSet, tblGet]
  | cons e t ih => obtain ⟨k', v'⟩ := e; simp only [tblSet]; split <;> (try split) <;> simp_all [tblGet]

theorem tblGet_tblSet_ne {α : Type} (d : α) (t : Tbl α) {k i : Nat} (v : α) (h : k ≠ i) : tblGet d (tblSet t i v) k = tblGet d t k := by
  induction t with
  | nil => simp [tblSet, tblGet, h]
  | cons e t ih =>
    obtain ⟨k', v'⟩ := e
    simp only [tblSet]
    split
    · subst_vars; simp [tblGet, h]
    · split <;> simp_all [tblGet]

theorem tblGet_tblSet {α : Type} (d : α) (t : Tbl α) (k i : Nat) (v : α) :
    tblGet d (tblSet t i v) k = if k = i then v else tblGet d t k := by
  split
  · next h => subst h; exact tblGet_tblSet_same d t k v
  · next h => exact tblGet_tblSet_ne d t v h

/-- Every value of a table after a write is the one written or was there before. -/
theorem mem_tblSet {α : Type} {t : Tbl α} {k : Nat} {v : α} {e : Nat × α} (h : e ∈ tblSet t k v) : e = (k, v) ∨ e ∈ t := by
  induction t with
  | nil => simpa [tblSet] using h
  | cons g t ih =>
    obtain ⟨k', v'⟩ := g
    simp only [tblSet] at h
    split at h
    · simp only [List.mem_cons] at h ⊢; rcases h with h | h <;> simp [h]
    · split at h
      · simpa using h
      · simp only [List.mem_cons] at h ⊢
        rcases h with h | h
        · simp [h]
        · rcases ih h with h | h <;> simp [h]

/-- Of two writes of one key the later holds. -/
@[simp] theorem tblSet_tblSet {α : Type} (t : Tbl α) (k : Nat) (v w : α) : tblSet (tblSet t k v) k w = tblSet t k w := by
  induction t with
  | nil => simp [tblSet]
  | cons e t ih =>
    obtain ⟨k', v'⟩ := e
    simp only [tblSet]
    by_cases h1 : k = k'
    · simp [h1, tblSet]
    · by_cases h2 : k < k'
      · simp [h1, h2, tblSet]
      · simp [h1, h2, tblSet, ih]

/-- Writes of two keys may change places. -/
theorem tblSet_comm {α : Type} (t : Tbl α) {i j : Nat} (v w : α) (h : i ≠ j) : tblSet (tblSet t i v) j w = tblSet (tblSet t j w) i v := by
  induction t with
  | nil =>
    rcases Nat.lt_or_gt_of_ne h with hij | hij <;> simp (disch := omega) [tblSet, if_neg, if_pos]
  | cons e t ih =>
    obtain ⟨k, x⟩ := e
    rcases Nat.lt_trichotomy i k with hi | hi | hi <;> rcases Nat.lt_trichotomy j k with hj | hj | hj <;>
      rcases Nat.lt_or_gt_of_ne h with hij | hij <;>
      first
      | omega
      | (have a1 := Nat.ne_of_lt hij; have a2 := Nat.ne_of_gt hij; have a3 := Nat.lt_asymm hij
         simp (disch := omega) [tblSet, if_neg, if_pos, ih])

/-- The value that a table reads is the default or one that it lists. -/
theorem tblGet_mem {α : Type} (d : α) (t : Tbl α) (k : Nat) : tblGet d t k = d ∨ (k, tblGet d t k) ∈ t := by
  induction t with
  | nil => simp [tblGet]
  | cons e t ih =>
    obtain ⟨k', v⟩ := e
    simp only [tblGet]
    split
    · next h => subst h; simp
    · rcases ih with h | h <;> simp [h]

/-! ### Memory -/

theorem memWfFrom_mono {lo lo' : Nat} {m : List Host.Cell} (h : lo' ≤ lo) (w : memWfFrom lo m = true) : memWfFrom lo' m = true := by
  cases m with
  | nil => rfl
  | cons c m =>
    obtain ⟨k, b⟩ := c
    simp only [memWfFrom, Bool.and_eq_true, decide_eq_true_eq] at w ⊢
    exact ⟨⟨Nat.le_trans h w.1.1, w.1.2⟩, w.2⟩

/-- Below the first cell everything reads 0. -/
theorem memRead_below {lo a : Nat} {m : List Host.Cell} (w : memWfFrom lo m = true) (h : a < lo) : memRead m a = 0 := by
  induction m generalizing lo with
  | nil => rfl
  | cons c m ih =>
    obtain ⟨k, b⟩ := c
    simp only [memWfFrom, Bool.and_eq_true, decide_eq_true_eq] at w
    have hk : a ≠ k := by omega
    simp only [memRead, hk, if_false]
    exact ih w.2 (by omega)

theorem memWrite_wfFrom {lo a : Nat} {b : Byte} {m : List Host.Cell} (w : memWfFrom lo m = true) (h : lo ≤ a) :
    memWfFrom lo (memWrite m a b) = true := by
  induction m generalizing lo with
  | nil => by_cases hb : b = 0#8 <;> simp [memWrite, hb, memWfFrom, h]
  | cons c m ih =>
    obtain ⟨k, c⟩ := c
    simp only [memWfFrom, Bool.and_eq_true, decide_eq_true_eq] at w
    simp only [memWrite]
    by_cases h1 : a < k
    · by_cases hb : b = 0#8
      · have hc := w.1.2
        simp only [bne_iff_ne, ne_eq] at hc
        simpa [h1, hb, memWfFrom, w] using hc
      · have hc := w.1.2
        simp only [bne_iff_ne, ne_eq] at hc
        have : a + 1 ≤ k := h1
        simpa [h1, hb, memWfFrom, h, w, this] using hc
    · by_cases h2 : a = k
      · subst h2
        by_cases hb : b = 0#8
        · simpa [hb] using memWfFrom_mono (Nat.le_succ_of_le w.1.1) w.2
        · simp [hb, memWfFrom, w]
      · simp only [h1, h2, if_false, memWfFrom, Bool.and_eq_true, decide_eq_true_eq]
        exact ⟨w.1, ih w.2 (by omega)⟩

/-- A write keeps the canonical form. -/
theorem memWrite_wf {m : List Host.Cell} (a : Nat) (b : Byte) (w : Memory.wf m = true) : Memory.wf (memWrite m a b) = true :=
  memWrite_wfFrom w (Nat.zero_le a)

theorem memRead_memWrite_from {lo : Nat} {m : List Host.Cell} (a i : Nat) (b : Byte) (w : memWfFrom lo m = true) :
    memRead (memWrite m a b) i = if i = a then b else memRead m i := by
  induction m generalizing lo with
  | nil =>
    by_cases hb : b = 0#8
    · simp [memWrite, hb, memRead]
    · simp [memWrite, hb, memRead]
  | cons c m ih =>
    obtain ⟨k, c⟩ := c
    simp only [memWfFrom, Bool.and_eq_true, decide_eq_true_eq] at w
    simp only [memWrite]
    by_cases h1 : a < k
    · by_cases hb : b = 0#8
      · subst hb
        rw [if_pos h1, if_pos (show (0#8 : BitVec 8) = 0 from rfl)]
        by_cases h3 : i = a
        · subst h3
          have h4 : i ≠ k := by omega
          simp only [memRead, h4, if_false, if_true]
          exact memRead_below w.2 (by omega)
        · simp [h3]
      · simp [h1, hb, memRead]
    · by_cases h2 : a = k
      · subst h2
        by_cases hb : b = 0#8
        · simp only [Nat.lt_irrefl, if_false, if_true, hb]
          by_cases h3 : i = a
          · subst h3; simp only [if_true]; exact memRead_below w.2 (by omega)
          · simp [h3, memRead]
        · by_cases h3 : i = a <;> simp [hb, memRead, h3]
      · simp only [h1, h2, if_false, memRead]
        rw [ih w.2]
        by_cases h3 : i = k
        · subst h3; simp [Ne.symm h2]
        · simp [h3]

/-- A read after a write gives the byte written, and every other byte is left alone. -/
theorem memRead_memWrite {m : List Host.Cell} (a i : Nat) (b : Byte) (w : Memory.wf m = true) :
    memRead (memWrite m a b) i = if i = a then b else memRead m i :=
  memRead_memWrite_from a i b w

theorem memWrites_wf {m : List Host.Cell} (a : Nat) (bs : List Byte) (w : Memory.wf m = true) : Memory.wf (memWrites m a bs) = true := by
  induction bs generalizing m a with
  | nil => exact w
  | cons b bs ih => exact ih (a + 1) (memWrite_wf a b w)

/-- The canonical form is kept when cells are left out. -/
theorem memFilter_wfFrom {lo : Nat} {m : List Host.Cell} (p : Host.Cell → Bool) (w : memWfFrom lo m = true) :
    memWfFrom lo (m.filter p) = true := by
  induction m generalizing lo with
  | nil => rfl
  | cons c m ih =>
    obtain ⟨k, b⟩ := c
    simp only [memWfFrom, Bool.and_eq_true, decide_eq_true_eq] at w
    by_cases hp : p (k, b) = true
    · simp only [List.filter_cons, hp, if_true, memWfFrom, Bool.and_eq_true, decide_eq_true_eq]
      exact ⟨w.1, ih w.2⟩
    · simp only [List.filter_cons, hp]
      exact memWfFrom_mono (by omega) (ih w.2)

theorem memZero_wf {m : List Host.Cell} (a n : Nat) (w : Memory.wf m = true) : Memory.wf (memZero m a n) = true :=
  memFilter_wfFrom _ w

theorem memFilter_wf {m : List Host.Cell} (p : Host.Cell → Bool) (w : Memory.wf m = true) : Memory.wf (m.filter p) = true :=
  memFilter_wfFrom p w

end Sys2Proof.Machine
end

