-- ==== Sys2Proof/Laws/Units.lean ====
section
/-! SUPPORT. What a unit of the state reads as after an update of it, of another unit of its kind, and of any other part. -/

namespace Sys2Proof.Machine

variable (s : State)

/-! ### pavAt -/

@[simp] theorem pavAt_setPlot (i : Nat) (x : Plot) (k : Nat) : pavAt (setPlot s i x) k = pavAt s k := rfl
@[simp] theorem pavAt_setDie (i : Nat) (x : Dovecote) (k : Nat) : pavAt (setDie s i x) k = pavAt s k := rfl
@[simp] theorem pavAt_setShard (i : Nat) (x : Shard) (k : Nat) : pavAt (setShard s i x) k = pavAt s k := rfl
@[simp] theorem pavAt_setNorm (i : Nat) (x : Norm) (k : Nat) : pavAt (setNorm s i x) k = pavAt s k := rfl
@[simp] theorem pavAt_setStack (i : Nat) (x : Stack) (k : Nat) : pavAt (setStack s i x) k = pavAt s k := rfl
@[simp] theorem pavAt_setPort (i : Nat) (x : Port) (k : Nat) : pavAt (setPort s i x) k = pavAt s k := rfl
@[simp] theorem pavAt_setLink (i : Nat) (x : Link) (k : Nat) : pavAt (setLink s i x) k = pavAt s k := rfl
@[simp] theorem pavAt_setSess (i : Nat) (x : Session) (k : Nat) : pavAt (setSess s i x) k = pavAt s k := rfl
@[simp] theorem pavAt_setDom (i : Nat) (x : Domain) (k : Nat) : pavAt (setDom s i x) k = pavAt s k := rfl
@[simp] theorem pavAt_setPool (i : Nat) (x : Pool) (k : Nat) : pavAt (setPool s i x) k = pavAt s k := rfl
@[simp] theorem pavAt_settle  (k : Nat) : pavAt (settle s) k = pavAt s k := rfl
@[simp] theorem pavAt_emit (rk : RecKind) (src : Src) (pl : Option Nat) (as : List (Nat × Nat)) (k : Nat) : pavAt (emit s rk src pl as) k = pavAt s k := rfl
@[simp] theorem pavAt_modPlot (i : Nat) (f : Plot → Plot) (k : Nat) : pavAt (modPlot s i f) k = pavAt s k := rfl
@[simp] theorem pavAt_modDie (i : Nat) (f : Dovecote → Dovecote) (k : Nat) : pavAt (modDie s i f) k = pavAt s k := rfl
@[simp] theorem pavAt_modShard (i : Nat) (f : Shard → Shard) (k : Nat) : pavAt (modShard s i f) k = pavAt s k := rfl
@[simp] theorem pavAt_modNorm (i : Nat) (f : Norm → Norm) (k : Nat) : pavAt (modNorm s i f) k = pavAt s k := rfl
@[simp] theorem pavAt_modStack (i : Nat) (f : Stack → Stack) (k : Nat) : pavAt (modStack s i f) k = pavAt s k := rfl
@[simp] theorem pavAt_modLink (i : Nat) (f : Link → Link) (k : Nat) : pavAt (modLink s i f) k = pavAt s k := rfl
@[simp] theorem pavAt_modSess (i : Nat) (f : Session → Session) (k : Nat) : pavAt (modSess s i f) k = pavAt s k := rfl
@[simp] theorem pavAt_modDom (i : Nat) (f : Domain → Domain) (k : Nat) : pavAt (modDom s i f) k = pavAt s k := rfl

/-! ### engAt -/

@[simp] theorem engAt_setPlot (i : Nat) (x : Plot) (k : EngRef) : engAt (setPlot s i x) k = engAt s k := rfl
@[simp] theorem engAt_setDie (i : Nat) (x : Dovecote) (k : EngRef) : engAt (setDie s i x) k = engAt s k := rfl
@[simp] theorem engAt_setShard (i : Nat) (x : Shard) (k : EngRef) : engAt (setShard s i x) k = engAt s k := rfl
@[simp] theorem engAt_setNorm (i : Nat) (x : Norm) (k : EngRef) : engAt (setNorm s i x) k = engAt s k := rfl
@[simp] theorem engAt_setStack (i : Nat) (x : Stack) (k : EngRef) : engAt (setStack s i x) k = engAt s k := rfl
@[simp] theorem engAt_setPort (i : Nat) (x : Port) (k : EngRef) : engAt (setPort s i x) k = engAt s k := rfl
@[simp] theorem engAt_setLink (i : Nat) (x : Link) (k : EngRef) : engAt (setLink s i x) k = engAt s k := rfl
@[simp] theorem engAt_setSess (i : Nat) (x : Session) (k : EngRef) : engAt (setSess s i x) k = engAt s k := rfl
@[simp] theorem engAt_setDom (i : Nat) (x : Domain) (k : EngRef) : engAt (setDom s i x) k = engAt s k := rfl
@[simp] theorem engAt_setPool (i : Nat) (x : Pool) (k : EngRef) : engAt (setPool s i x) k = engAt s k := rfl
@[simp] theorem engAt_settle  (k : EngRef) : engAt (settle s) k = engAt s k := rfl
@[simp] theorem engAt_emit (rk : RecKind) (src : Src) (pl : Option Nat) (as : List (Nat × Nat)) (k : EngRef) : engAt (emit s rk src pl as) k = engAt s k := rfl
@[simp] theorem engAt_modPlot (i : Nat) (f : Plot → Plot) (k : EngRef) : engAt (modPlot s i f) k = engAt s k := rfl
@[simp] theorem engAt_modDie (i : Nat) (f : Dovecote → Dovecote) (k : EngRef) : engAt (modDie s i f) k = engAt s k := rfl
@[simp] theorem engAt_modShard (i : Nat) (f : Shard → Shard) (k : EngRef) : engAt (modShard s i f) k = engAt s k := rfl
@[simp] theorem engAt_modNorm (i : Nat) (f : Norm → Norm) (k : EngRef) : engAt (modNorm s i f) k = engAt s k := rfl
@[simp] theorem engAt_modStack (i : Nat) (f : Stack → Stack) (k : EngRef) : engAt (modStack s i f) k = engAt s k := rfl
@[simp] theorem engAt_modLink (i : Nat) (f : Link → Link) (k : EngRef) : engAt (modLink s i f) k = engAt s k := rfl
@[simp] theorem engAt_modSess (i : Nat) (f : Session → Session) (k : EngRef) : engAt (modSess s i f) k = engAt s k := rfl
@[simp] theorem engAt_modDom (i : Nat) (f : Domain → Domain) (k : EngRef) : engAt (modDom s i f) k = engAt s k := rfl

/-! ### ctrAt -/

@[simp] theorem ctrAt_setPlot (i : Nat) (x : Plot) (k j : Nat) : ctrAt (setPlot s i x) k j = ctrAt s k j := rfl
@[simp] theorem ctrAt_setDie (i : Nat) (x : Dovecote) (k j : Nat) : ctrAt (setDie s i x) k j = ctrAt s k j := rfl
@[simp] theorem ctrAt_setShard (i : Nat) (x : Shard) (k j : Nat) : ctrAt (setShard s i x) k j = ctrAt s k j := rfl
@[simp] theorem ctrAt_setNorm (i : Nat) (x : Norm) (k j : Nat) : ctrAt (setNorm s i x) k j = ctrAt s k j := rfl
@[simp] theorem ctrAt_setStack (i : Nat) (x : Stack) (k j : Nat) : ctrAt (setStack s i x) k j = ctrAt s k j := rfl
@[simp] theorem ctrAt_setPort (i : Nat) (x : Port) (k j : Nat) : ctrAt (setPort s i x) k j = ctrAt s k j := rfl
@[simp] theorem ctrAt_setLink (i : Nat) (x : Link) (k j : Nat) : ctrAt (setLink s i x) k j = ctrAt s k j := rfl
@[simp] theorem ctrAt_setSess (i : Nat) (x : Session) (k j : Nat) : ctrAt (setSess s i x) k j = ctrAt s k j := rfl
@[simp] theorem ctrAt_setDom (i : Nat) (x : Domain) (k j : Nat) : ctrAt (setDom s i x) k j = ctrAt s k j := rfl
@[simp] theorem ctrAt_setPool (i : Nat) (x : Pool) (k j : Nat) : ctrAt (setPool s i x) k j = ctrAt s k j := rfl
@[simp] theorem ctrAt_settle  (k j : Nat) : ctrAt (settle s) k j = ctrAt s k j := rfl
@[simp] theorem ctrAt_emit (rk : RecKind) (src : Src) (pl : Option Nat) (as : List (Nat × Nat)) (k j : Nat) : ctrAt (emit s rk src pl as) k j = ctrAt s k j := rfl
@[simp] theorem ctrAt_modPlot (i : Nat) (f : Plot → Plot) (k j : Nat) : ctrAt (modPlot s i f) k j = ctrAt s k j := rfl
@[simp] theorem ctrAt_modDie (i : Nat) (f : Dovecote → Dovecote) (k j : Nat) : ctrAt (modDie s i f) k j = ctrAt s k j := rfl
@[simp] theorem ctrAt_modShard (i : Nat) (f : Shard → Shard) (k j : Nat) : ctrAt (modShard s i f) k j = ctrAt s k j := rfl
@[simp] theorem ctrAt_modNorm (i : Nat) (f : Norm → Norm) (k j : Nat) : ctrAt (modNorm s i f) k j = ctrAt s k j := rfl
@[simp] theorem ctrAt_modStack (i : Nat) (f : Stack → Stack) (k j : Nat) : ctrAt (modStack s i f) k j = ctrAt s k j := rfl
@[simp] theorem ctrAt_modLink (i : Nat) (f : Link → Link) (k j : Nat) : ctrAt (modLink s i f) k j = ctrAt s k j := rfl
@[simp] theorem ctrAt_modSess (i : Nat) (f : Session → Session) (k j : Nat) : ctrAt (modSess s i f) k j = ctrAt s k j := rfl
@[simp] theorem ctrAt_modDom (i : Nat) (f : Domain → Domain) (k j : Nat) : ctrAt (modDom s i f) k j = ctrAt s k j := rfl

/-! ### plotAt -/

@[simp] theorem plotAt_setPav (i : Nat) (x : Pavilion) (k : Nat) : plotAt (setPav s i x) k = plotAt s k := rfl
@[simp] theorem plotAt_setEng (u : EngRef) (x : Engine) (k : Nat) : plotAt (setEng s u x) k = plotAt s k := rfl
@[simp] theorem plotAt_setCtr (p c : Nat) (x : Counter) (k : Nat) : plotAt (setCtr s p c x) k = plotAt s k := rfl
@[simp] theorem plotAt_setDie (i : Nat) (x : Dovecote) (k : Nat) : plotAt (setDie s i x) k = plotAt s k := rfl
@[simp] theorem plotAt_setShard (i : Nat) (x : Shard) (k : Nat) : plotAt (setShard s i x) k = plotAt s k := rfl
@[simp] theorem plotAt_setNorm (i : Nat) (x : Norm) (k : Nat) : plotAt (setNorm s i x) k = plotAt s k := rfl
@[simp] theorem plotAt_setStack (i : Nat) (x : Stack) (k : Nat) : plotAt (setStack s i x) k = plotAt s k := rfl
@[simp] theorem plotAt_setPort (i : Nat) (x : Port) (k : Nat) : plotAt (setPort s i x) k = plotAt s k := rfl
@[simp] theorem plotAt_setLink (i : Nat) (x : Link) (k : Nat) : plotAt (setLink s i x) k = plotAt s k := rfl
@[simp] theorem plotAt_setSess (i : Nat) (x : Session) (k : Nat) : plotAt (setSess s i x) k = plotAt s k := rfl
@[simp] theorem plotAt_setDom (i : Nat) (x : Domain) (k : Nat) : plotAt (setDom s i x) k = plotAt s k := rfl
@[simp] theorem plotAt_setPool (i : Nat) (x : Pool) (k : Nat) : plotAt (setPool s i x) k = plotAt s k := rfl
@[simp] theorem plotAt_settle  (k : Nat) : plotAt (settle s) k = plotAt s k := rfl
@[simp] theorem plotAt_emit (rk : RecKind) (src : Src) (pl : Option Nat) (as : List (Nat × Nat)) (k : Nat) : plotAt (emit s rk src pl as) k = plotAt s k := rfl
@[simp] theorem plotAt_modPav (i : Nat) (f : Pavilion → Pavilion) (k : Nat) : plotAt (modPav s i f) k = plotAt s k := rfl
@[simp] theorem plotAt_modEng (u : EngRef) (f : Engine → Engine) (k : Nat) : plotAt (modEng s u f) k = plotAt s k := rfl
@[simp] theorem plotAt_modDie (i : Nat) (f : Dovecote → Dovecote) (k : Nat) : plotAt (modDie s i f) k = plotAt s k := rfl
@[simp] theorem plotAt_modShard (i : Nat) (f : Shard → Shard) (k : Nat) : plotAt (modShard s i f) k = plotAt s k := rfl
@[simp] theorem plotAt_modNorm (i : Nat) (f : Norm → Norm) (k : Nat) : plotAt (modNorm s i f) k = plotAt s k := rfl
@[simp] theorem plotAt_modStack (i : Nat) (f : Stack → Stack) (k : Nat) : plotAt (modStack s i f) k = plotAt s k := rfl
@[simp] theorem plotAt_modLink (i : Nat) (f : Link → Link) (k : Nat) : plotAt (modLink s i f) k = plotAt s k := rfl
@[simp] theorem plotAt_modSess (i : Nat) (f : Session → Session) (k : Nat) : plotAt (modSess s i f) k = plotAt s k := rfl
@[simp] theorem plotAt_modDom (i : Nat) (f : Domain → Domain) (k : Nat) : plotAt (modDom s i f) k = plotAt s k := rfl

/-! ### dieAt -/

@[simp] theorem dieAt_setPav (i : Nat) (x : Pavilion) (k : Nat) : dieAt (setPav s i x) k = dieAt s k := rfl
@[simp] theorem dieAt_setEng (u : EngRef) (x : Engine) (k : Nat) : dieAt (setEng s u x) k = dieAt s k := rfl
@[simp] theorem dieAt_setCtr (p c : Nat) (x : Counter) (k : Nat) : dieAt (setCtr s p c x) k = dieAt s k := rfl
@[simp] theorem dieAt_setPlot (i : Nat) (x : Plot) (k : Nat) : dieAt (setPlot s i x) k = dieAt s k := rfl
@[simp] theorem dieAt_setShard (i : Nat) (x : Shard) (k : Nat) : dieAt (setShard s i x) k = dieAt s k := rfl
@[simp] theorem dieAt_setNorm (i : Nat) (x : Norm) (k : Nat) : dieAt (setNorm s i x) k = dieAt s k := rfl
@[simp] theorem dieAt_setStack (i : Nat) (x : Stack) (k : Nat) : dieAt (setStack s i x) k = dieAt s k := rfl
@[simp] theorem dieAt_setPort (i : Nat) (x : Port) (k : Nat) : dieAt (setPort s i x) k = dieAt s k := rfl
@[simp] theorem dieAt_setLink (i : Nat) (x : Link) (k : Nat) : dieAt (setLink s i x) k = dieAt s k := rfl
@[simp] theorem dieAt_setSess (i : Nat) (x : Session) (k : Nat) : dieAt (setSess s i x) k = dieAt s k := rfl
@[simp] theorem dieAt_setDom (i : Nat) (x : Domain) (k : Nat) : dieAt (setDom s i x) k = dieAt s k := rfl
@[simp] theorem dieAt_setPool (i : Nat) (x : Pool) (k : Nat) : dieAt (setPool s i x) k = dieAt s k := rfl
@[simp] theorem dieAt_settle  (k : Nat) : dieAt (settle s) k = dieAt s k := rfl
@[simp] theorem dieAt_emit (rk : RecKind) (src : Src) (pl : Option Nat) (as : List (Nat × Nat)) (k : Nat) : dieAt (emit s rk src pl as) k = dieAt s k := rfl
@[simp] theorem dieAt_modPav (i : Nat) (f : Pavilion → Pavilion) (k : Nat) : dieAt (modPav s i f) k = dieAt s k := rfl
@[simp] theorem dieAt_modEng (u : EngRef) (f : Engine → Engine) (k : Nat) : dieAt (modEng s u f) k = dieAt s k := rfl
@[simp] theorem dieAt_modPlot (i : Nat) (f : Plot → Plot) (k : Nat) : dieAt (modPlot s i f) k = dieAt s k := rfl
@[simp] theorem dieAt_modShard (i : Nat) (f : Shard → Shard) (k : Nat) : dieAt (modShard s i f) k = dieAt s k := rfl
@[simp] theorem dieAt_modNorm (i : Nat) (f : Norm → Norm) (k : Nat) : dieAt (modNorm s i f) k = dieAt s k := rfl
@[simp] theorem dieAt_modStack (i : Nat) (f : Stack → Stack) (k : Nat) : dieAt (modStack s i f) k = dieAt s k := rfl
@[simp] theorem dieAt_modLink (i : Nat) (f : Link → Link) (k : Nat) : dieAt (modLink s i f) k = dieAt s k := rfl
@[simp] theorem dieAt_modSess (i : Nat) (f : Session → Session) (k : Nat) : dieAt (modSess s i f) k = dieAt s k := rfl
@[simp] theorem dieAt_modDom (i : Nat) (f : Domain → Domain) (k : Nat) : dieAt (modDom s i f) k = dieAt s k := rfl

/-! ### shardAt -/

@[simp] theorem shardAt_setPav (i : Nat) (x : Pavilion) (k : Nat) : shardAt (setPav s i x) k = shardAt s k := rfl
@[simp] theorem shardAt_setEng (u : EngRef) (x : Engine) (k : Nat) : shardAt (setEng s u x) k = shardAt s k := rfl
@[simp] theorem shardAt_setCtr (p c : Nat) (x : Counter) (k : Nat) : shardAt (setCtr s p c x) k = shardAt s k := rfl
@[simp] theorem shardAt_setPlot (i : Nat) (x : Plot) (k : Nat) : shardAt (setPlot s i x) k = shardAt s k := rfl
@[simp] theorem shardAt_setDie (i : Nat) (x : Dovecote) (k : Nat) : shardAt (setDie s i x) k = shardAt s k := rfl
@[simp] theorem shardAt_setNorm (i : Nat) (x : Norm) (k : Nat) : shardAt (setNorm s i x) k = shardAt s k := rfl
@[simp] theorem shardAt_setStack (i : Nat) (x : Stack) (k : Nat) : shardAt (setStack s i x) k = shardAt s k := rfl
@[simp] theorem shardAt_setPort (i : Nat) (x : Port) (k : Nat) : shardAt (setPort s i x) k = shardAt s k := rfl
@[simp] theorem shardAt_setLink (i : Nat) (x : Link) (k : Nat) : shardAt (setLink s i x) k = shardAt s k := rfl
@[simp] theorem shardAt_setSess (i : Nat) (x : Session) (k : Nat) : shardAt (setSess s i x) k = shardAt s k := rfl
@[simp] theorem shardAt_setDom (i : Nat) (x : Domain) (k : Nat) : shardAt (setDom s i x) k = shardAt s k := rfl
@[simp] theorem shardAt_setPool (i : Nat) (x : Pool) (k : Nat) : shardAt (setPool s i x) k = shardAt s k := rfl
@[simp] theorem shardAt_settle  (k : Nat) : shardAt (settle s) k = shardAt s k := rfl
@[simp] theorem shardAt_emit (rk : RecKind) (src : Src) (pl : Option Nat) (as : List (Nat × Nat)) (k : Nat) : shardAt (emit s rk src pl as) k = shardAt s k := rfl
@[simp] theorem shardAt_modPav (i : Nat) (f : Pavilion → Pavilion) (k : Nat) : shardAt (modPav s i f) k = shardAt s k := rfl
@[simp] theorem shardAt_modEng (u : EngRef) (f : Engine → Engine) (k : Nat) : shardAt (modEng s u f) k = shardAt s k := rfl
@[simp] theorem shardAt_modPlot (i : Nat) (f : Plot → Plot) (k : Nat) : shardAt (modPlot s i f) k = shardAt s k := rfl
@[simp] theorem shardAt_modDie (i : Nat) (f : Dovecote → Dovecote) (k : Nat) : shardAt (modDie s i f) k = shardAt s k := rfl
@[simp] theorem shardAt_modNorm (i : Nat) (f : Norm → Norm) (k : Nat) : shardAt (modNorm s i f) k = shardAt s k := rfl
@[simp] theorem shardAt_modStack (i : Nat) (f : Stack → Stack) (k : Nat) : shardAt (modStack s i f) k = shardAt s k := rfl
@[simp] theorem shardAt_modLink (i : Nat) (f : Link → Link) (k : Nat) : shardAt (modLink s i f) k = shardAt s k := rfl
@[simp] theorem shardAt_modSess (i : Nat) (f : Session → Session) (k : Nat) : shardAt (modSess s i f) k = shardAt s k := rfl
@[simp] theorem shardAt_modDom (i : Nat) (f : Domain → Domain) (k : Nat) : shardAt (modDom s i f) k = shardAt s k := rfl

/-! ### normAt -/

@[simp] theorem normAt_setPav (i : Nat) (x : Pavilion) (k : Nat) : normAt (setPav s i x) k = normAt s k := rfl
@[simp] theorem normAt_setEng (u : EngRef) (x : Engine) (k : Nat) : normAt (setEng s u x) k = normAt s k := rfl
@[simp] theorem normAt_setCtr (p c : Nat) (x : Counter) (k : Nat) : normAt (setCtr s p c x) k = normAt s k := rfl
@[simp] theorem normAt_setPlot (i : Nat) (x : Plot) (k : Nat) : normAt (setPlot s i x) k = normAt s k := rfl
@[simp] theorem normAt_setDie (i : Nat) (x : Dovecote) (k : Nat) : normAt (setDie s i x) k = normAt s k := rfl
@[simp] theorem normAt_setShard (i : Nat) (x : Shard) (k : Nat) : normAt (setShard s i x) k = normAt s k := rfl
@[simp] theorem normAt_setStack (i : Nat) (x : Stack) (k : Nat) : normAt (setStack s i x) k = normAt s k := rfl
@[simp] theorem normAt_setPort (i : Nat) (x : Port) (k : Nat) : normAt (setPort s i x) k = normAt s k := rfl
@[simp] theorem normAt_setLink (i : Nat) (x : Link) (k : Nat) : normAt (setLink s i x) k = normAt s k := rfl
@[simp] theorem normAt_setSess (i : Nat) (x : Session) (k : Nat) : normAt (setSess s i x) k = normAt s k := rfl
@[simp] theorem normAt_setDom (i : Nat) (x : Domain) (k : Nat) : normAt (setDom s i x) k = normAt s k := rfl
@[simp] theorem normAt_setPool (i : Nat) (x : Pool) (k : Nat) : normAt (setPool s i x) k = normAt s k := rfl
@[simp] theorem normAt_settle  (k : Nat) : normAt (settle s) k = normAt s k := rfl
@[simp] theorem normAt_emit (rk : RecKind) (src : Src) (pl : Option Nat) (as : List (Nat × Nat)) (k : Nat) : normAt (emit s rk src pl as) k = normAt s k := rfl
@[simp] theorem normAt_modPav (i : Nat) (f : Pavilion → Pavilion) (k : Nat) : normAt (modPav s i f) k = normAt s k := rfl
@[simp] theorem normAt_modEng (u : EngRef) (f : Engine → Engine) (k : Nat) : normAt (modEng s u f) k = normAt s k := rfl
@[simp] theorem normAt_modPlot (i : Nat) (f : Plot → Plot) (k : Nat) : normAt (modPlot s i f) k = normAt s k := rfl
@[simp] theorem normAt_modDie (i : Nat) (f : Dovecote → Dovecote) (k : Nat) : normAt (modDie s i f) k = normAt s k := rfl
@[simp] theorem normAt_modShard (i : Nat) (f : Shard → Shard) (k : Nat) : normAt (modShard s i f) k = normAt s k := rfl
@[simp] theorem normAt_modStack (i : Nat) (f : Stack → Stack) (k : Nat) : normAt (modStack s i f) k = normAt s k := rfl
@[simp] theorem normAt_modLink (i : Nat) (f : Link → Link) (k : Nat) : normAt (modLink s i f) k = normAt s k := rfl
@[simp] theorem normAt_modSess (i : Nat) (f : Session → Session) (k : Nat) : normAt (modSess s i f) k = normAt s k := rfl
@[simp] theorem normAt_modDom (i : Nat) (f : Domain → Domain) (k : Nat) : normAt (modDom s i f) k = normAt s k := rfl

/-! ### stackAt -/

@[simp] theorem stackAt_setPav (i : Nat) (x : Pavilion) (k : Nat) : stackAt (setPav s i x) k = stackAt s k := rfl
@[simp] theorem stackAt_setEng (u : EngRef) (x : Engine) (k : Nat) : stackAt (setEng s u x) k = stackAt s k := rfl
@[simp] theorem stackAt_setCtr (p c : Nat) (x : Counter) (k : Nat) : stackAt (setCtr s p c x) k = stackAt s k := rfl
@[simp] theorem stackAt_setPlot (i : Nat) (x : Plot) (k : Nat) : stackAt (setPlot s i x) k = stackAt s k := rfl
@[simp] theorem stackAt_setDie (i : Nat) (x : Dovecote) (k : Nat) : stackAt (setDie s i x) k = stackAt s k := rfl
@[simp] theorem stackAt_setShard (i : Nat) (x : Shard) (k : Nat) : stackAt (setShard s i x) k = stackAt s k := rfl
@[simp] theorem stackAt_setNorm (i : Nat) (x : Norm) (k : Nat) : stackAt (setNorm s i x) k = stackAt s k := rfl
@[simp] theorem stackAt_setPort (i : Nat) (x : Port) (k : Nat) : stackAt (setPort s i x) k = stackAt s k := rfl
@[simp] theorem stackAt_setLink (i : Nat) (x : Link) (k : Nat) : stackAt (setLink s i x) k = stackAt s k := rfl
@[simp] theorem stackAt_setSess (i : Nat) (x : Session) (k : Nat) : stackAt (setSess s i x) k = stackAt s k := rfl
@[simp] theorem stackAt_setDom (i : Nat) (x : Domain) (k : Nat) : stackAt (setDom s i x) k = stackAt s k := rfl
@[simp] theorem stackAt_setPool (i : Nat) (x : Pool) (k : Nat) : stackAt (setPool s i x) k = stackAt s k := rfl
@[simp] theorem stackAt_settle  (k : Nat) : stackAt (settle s) k = stackAt s k := rfl
@[simp] theorem stackAt_emit (rk : RecKind) (src : Src) (pl : Option Nat) (as : List (Nat × Nat)) (k : Nat) : stackAt (emit s rk src pl as) k = stackAt s k := rfl
@[simp] theorem stackAt_modPav (i : Nat) (f : Pavilion → Pavilion) (k : Nat) : stackAt (modPav s i f) k = stackAt s k := rfl
@[simp] theorem stackAt_modEng (u : EngRef) (f : Engine → Engine) (k : Nat) : stackAt (modEng s u f) k = stackAt s k := rfl
@[simp] theorem stackAt_modPlot (i : Nat) (f : Plot → Plot) (k : Nat) : stackAt (modPlot s i f) k = stackAt s k := rfl
@[simp] theorem stackAt_modDie (i : Nat) (f : Dovecote → Dovecote) (k : Nat) : stackAt (modDie s i f) k = stackAt s k := rfl
@[simp] theorem stackAt_modShard (i : Nat) (f : Shard → Shard) (k : Nat) : stackAt (modShard s i f) k = stackAt s k := rfl
@[simp] theorem stackAt_modNorm (i : Nat) (f : Norm → Norm) (k : Nat) : stackAt (modNorm s i f) k = stackAt s k := rfl
@[simp] theorem stackAt_modLink (i : Nat) (f : Link → Link) (k : Nat) : stackAt (modLink s i f) k = stackAt s k := rfl
@[simp] theorem stackAt_modSess (i : Nat) (f : Session → Session) (k : Nat) : stackAt (modSess s i f) k = stackAt s k := rfl
@[simp] theorem stackAt_modDom (i : Nat) (f : Domain → Domain) (k : Nat) : stackAt (modDom s i f) k = stackAt s k := rfl

/-! ### portAt -/

@[simp] theorem portAt_setPav (i : Nat) (x : Pavilion) (k : Nat) : portAt (setPav s i x) k = portAt s k := rfl
@[simp] theorem portAt_setEng (u : EngRef) (x : Engine) (k : Nat) : portAt (setEng s u x) k = portAt s k := rfl
@[simp] theorem portAt_setCtr (p c : Nat) (x : Counter) (k : Nat) : portAt (setCtr s p c x) k = portAt s k := rfl
@[simp] theorem portAt_setPlot (i : Nat) (x : Plot) (k : Nat) : portAt (setPlot s i x) k = portAt s k := rfl
@[simp] theorem portAt_setDie (i : Nat) (x : Dovecote) (k : Nat) : portAt (setDie s i x) k = portAt s k := rfl
@[simp] theorem portAt_setShard (i : Nat) (x : Shard) (k : Nat) : portAt (setShard s i x) k = portAt s k := rfl
@[simp] theorem portAt_setNorm (i : Nat) (x : Norm) (k : Nat) : portAt (setNorm s i x) k = portAt s k := rfl
@[simp] theorem portAt_setStack (i : Nat) (x : Stack) (k : Nat) : portAt (setStack s i x) k = portAt s k := rfl
@[simp] theorem portAt_setLink (i : Nat) (x : Link) (k : Nat) : portAt (setLink s i x) k = portAt s k := rfl
@[simp] theorem portAt_setSess (i : Nat) (x : Session) (k : Nat) : portAt (setSess s i x) k = portAt s k := rfl
@[simp] theorem portAt_setDom (i : Nat) (x : Domain) (k : Nat) : portAt (setDom s i x) k = portAt s k := rfl
@[simp] theorem portAt_setPool (i : Nat) (x : Pool) (k : Nat) : portAt (setPool s i x) k = portAt s k := rfl
@[simp] theorem portAt_settle  (k : Nat) : portAt (settle s) k = portAt s k := rfl
@[simp] theorem portAt_emit (rk : RecKind) (src : Src) (pl : Option Nat) (as : List (Nat × Nat)) (k : Nat) : portAt (emit s rk src pl as) k = portAt s k := rfl
@[simp] theorem portAt_modPav (i : Nat) (f : Pavilion → Pavilion) (k : Nat) : portAt (modPav s i f) k = portAt s k := rfl
@[simp] theorem portAt_modEng (u : EngRef) (f : Engine → Engine) (k : Nat) : portAt (modEng s u f) k = portAt s k := rfl
@[simp] theorem portAt_modPlot (i : Nat) (f : Plot → Plot) (k : Nat) : portAt (modPlot s i f) k = portAt s k := rfl
@[simp] theorem portAt_modDie (i : Nat) (f : Dovecote → Dovecote) (k : Nat) : portAt (modDie s i f) k = portAt s k := rfl
@[simp] theorem portAt_modShard (i : Nat) (f : Shard → Shard) (k : Nat) : portAt (modShard s i f) k = portAt s k := rfl
@[simp] theorem portAt_modNorm (i : Nat) (f : Norm → Norm) (k : Nat) : portAt (modNorm s i f) k = portAt s k := rfl
@[simp] theorem portAt_modStack (i : Nat) (f : Stack → Stack) (k : Nat) : portAt (modStack s i f) k = portAt s k := rfl
@[simp] theorem portAt_modLink (i : Nat) (f : Link → Link) (k : Nat) : portAt (modLink s i f) k = portAt s k := rfl
@[simp] theorem portAt_modSess (i : Nat) (f : Session → Session) (k : Nat) : portAt (modSess s i f) k = portAt s k := rfl
@[simp] theorem portAt_modDom (i : Nat) (f : Domain → Domain) (k : Nat) : portAt (modDom s i f) k = portAt s k := rfl

/-! ### linkAt -/

@[simp] theorem linkAt_setPav (i : Nat) (x : Pavilion) (k : Nat) : linkAt (setPav s i x) k = linkAt s k := rfl
@[simp] theorem linkAt_setEng (u : EngRef) (x : Engine) (k : Nat) : linkAt (setEng s u x) k = linkAt s k := rfl
@[simp] theorem linkAt_setCtr (p c : Nat) (x : Counter) (k : Nat) : linkAt (setCtr s p c x) k = linkAt s k := rfl
@[simp] theorem linkAt_setPlot (i : Nat) (x : Plot) (k : Nat) : linkAt (setPlot s i x) k = linkAt s k := rfl
@[simp] theorem linkAt_setDie (i : Nat) (x : Dovecote) (k : Nat) : linkAt (setDie s i x) k = linkAt s k := rfl
@[simp] theorem linkAt_setShard (i : Nat) (x : Shard) (k : Nat) : linkAt (setShard s i x) k = linkAt s k := rfl
@[simp] theorem linkAt_setNorm (i : Nat) (x : Norm) (k : Nat) : linkAt (setNorm s i x) k = linkAt s k := rfl
@[simp] theorem linkAt_setStack (i : Nat) (x : Stack) (k : Nat) : linkAt (setStack s i x) k = linkAt s k := rfl
@[simp] theorem linkAt_setPort (i : Nat) (x : Port) (k : Nat) : linkAt (setPort s i x) k = linkAt s k := rfl
@[simp] theorem linkAt_setSess (i : Nat) (x : Session) (k : Nat) : linkAt (setSess s i x) k = linkAt s k := rfl
@[simp] theorem linkAt_setDom (i : Nat) (x : Domain) (k : Nat) : linkAt (setDom s i x) k = linkAt s k := rfl
@[simp] theorem linkAt_setPool (i : Nat) (x : Pool) (k : Nat) : linkAt (setPool s i x) k = linkAt s k := rfl
@[simp] theorem linkAt_settle  (k : Nat) : linkAt (settle s) k = linkAt s k := rfl
@[simp] theorem linkAt_emit (rk : RecKind) (src : Src) (pl : Option Nat) (as : List (Nat × Nat)) (k : Nat) : linkAt (emit s rk src pl as) k = linkAt s k := rfl
@[simp] theorem linkAt_modPav (i : Nat) (f : Pavilion → Pavilion) (k : Nat) : linkAt (modPav s i f) k = linkAt s k := rfl
@[simp] theorem linkAt_modEng (u : EngRef) (f : Engine → Engine) (k : Nat) : linkAt (modEng s u f) k = linkAt s k := rfl
@[simp] theorem linkAt_modPlot (i : Nat) (f : Plot → Plot) (k : Nat) : linkAt (modPlot s i f) k = linkAt s k := rfl
@[simp] theorem linkAt_modDie (i : Nat) (f : Dovecote → Dovecote) (k : Nat) : linkAt (modDie s i f) k = linkAt s k := rfl
@[simp] theorem linkAt_modShard (i : Nat) (f : Shard → Shard) (k : Nat) : linkAt (modShard s i f) k = linkAt s k := rfl
@[simp] theorem linkAt_modNorm (i : Nat) (f : Norm → Norm) (k : Nat) : linkAt (modNorm s i f) k = linkAt s k := rfl
@[simp] theorem linkAt_modStack (i : Nat) (f : Stack → Stack) (k : Nat) : linkAt (modStack s i f) k = linkAt s k := rfl
@[simp] theorem linkAt_modSess (i : Nat) (f : Session → Session) (k : Nat) : linkAt (modSess s i f) k = linkAt s k := rfl
@[simp] theorem linkAt_modDom (i : Nat) (f : Domain → Domain) (k : Nat) : linkAt (modDom s i f) k = linkAt s k := rfl

/-! ### sessAt -/

@[simp] theorem sessAt_setPav (i : Nat) (x : Pavilion) (k : Nat) : sessAt (setPav s i x) k = sessAt s k := rfl
@[simp] theorem sessAt_setEng (u : EngRef) (x : Engine) (k : Nat) : sessAt (setEng s u x) k = sessAt s k := rfl
@[simp] theorem sessAt_setCtr (p c : Nat) (x : Counter) (k : Nat) : sessAt (setCtr s p c x) k = sessAt s k := rfl
@[simp] theorem sessAt_setPlot (i : Nat) (x : Plot) (k : Nat) : sessAt (setPlot s i x) k = sessAt s k := rfl
@[simp] theorem sessAt_setDie (i : Nat) (x : Dovecote) (k : Nat) : sessAt (setDie s i x) k = sessAt s k := rfl
@[simp] theorem sessAt_setShard (i : Nat) (x : Shard) (k : Nat) : sessAt (setShard s i x) k = sessAt s k := rfl
@[simp] theorem sessAt_setNorm (i : Nat) (x : Norm) (k : Nat) : sessAt (setNorm s i x) k = sessAt s k := rfl
@[simp] theorem sessAt_setStack (i : Nat) (x : Stack) (k : Nat) : sessAt (setStack s i x) k = sessAt s k := rfl
@[simp] theorem sessAt_setPort (i : Nat) (x : Port) (k : Nat) : sessAt (setPort s i x) k = sessAt s k := rfl
@[simp] theorem sessAt_setLink (i : Nat) (x : Link) (k : Nat) : sessAt (setLink s i x) k = sessAt s k := rfl
@[simp] theorem sessAt_setDom (i : Nat) (x : Domain) (k : Nat) : sessAt (setDom s i x) k = sessAt s k := rfl
@[simp] theorem sessAt_setPool (i : Nat) (x : Pool) (k : Nat) : sessAt (setPool s i x) k = sessAt s k := rfl
@[simp] theorem sessAt_settle  (k : Nat) : sessAt (settle s) k = sessAt s k := rfl
@[simp] theorem sessAt_emit (rk : RecKind) (src : Src) (pl : Option Nat) (as : List (Nat × Nat)) (k : Nat) : sessAt (emit s rk src pl as) k = sessAt s k := rfl
@[simp] theorem sessAt_modPav (i : Nat) (f : Pavilion → Pavilion) (k : Nat) : sessAt (modPav s i f) k = sessAt s k := rfl
@[simp] theorem sessAt_modEng (u : EngRef) (f : Engine → Engine) (k : Nat) : sessAt (modEng s u f) k = sessAt s k := rfl
@[simp] theorem sessAt_modPlot (i : Nat) (f : Plot → Plot) (k : Nat) : sessAt (modPlot s i f) k = sessAt s k := rfl
@[simp] theorem sessAt_modDie (i : Nat) (f : Dovecote → Dovecote) (k : Nat) : sessAt (modDie s i f) k = sessAt s k := rfl
@[simp] theorem sessAt_modShard (i : Nat) (f : Shard → Shard) (k : Nat) : sessAt (modShard s i f) k = sessAt s k := rfl
@[simp] theorem sessAt_modNorm (i : Nat) (f : Norm → Norm) (k : Nat) : sessAt (modNorm s i f) k = sessAt s k := rfl
@[simp] theorem sessAt_modStack (i : Nat) (f : Stack → Stack) (k : Nat) : sessAt (modStack s i f) k = sessAt s k := rfl
@[simp] theorem sessAt_modLink (i : Nat) (f : Link → Link) (k : Nat) : sessAt (modLink s i f) k = sessAt s k := rfl
@[simp] theorem sessAt_modDom (i : Nat) (f : Domain → Domain) (k : Nat) : sessAt (modDom s i f) k = sessAt s k := rfl

/-! ### domAt -/

@[simp] theorem domAt_setPav (i : Nat) (x : Pavilion) (k : Nat) : domAt (setPav s i x) k = domAt s k := rfl
@[simp] theorem domAt_setEng (u : EngRef) (x : Engine) (k : Nat) : domAt (setEng s u x) k = domAt s k := rfl
@[simp] theorem domAt_setCtr (p c : Nat) (x : Counter) (k : Nat) : domAt (setCtr s p c x) k = domAt s k := rfl
@[simp] theorem domAt_setPlot (i : Nat) (x : Plot) (k : Nat) : domAt (setPlot s i x) k = domAt s k := rfl
@[simp] theorem domAt_setDie (i : Nat) (x : Dovecote) (k : Nat) : domAt (setDie s i x) k = domAt s k := rfl
@[simp] theorem domAt_setShard (i : Nat) (x : Shard) (k : Nat) : domAt (setShard s i x) k = domAt s k := rfl
@[simp] theorem domAt_setNorm (i : Nat) (x : Norm) (k : Nat) : domAt (setNorm s i x) k = domAt s k := rfl
@[simp] theorem domAt_setStack (i : Nat) (x : Stack) (k : Nat) : domAt (setStack s i x) k = domAt s k := rfl
@[simp] theorem domAt_setPort (i : Nat) (x : Port) (k : Nat) : domAt (setPort s i x) k = domAt s k := rfl
@[simp] theorem domAt_setLink (i : Nat) (x : Link) (k : Nat) : domAt (setLink s i x) k = domAt s k := rfl
@[simp] theorem domAt_setSess (i : Nat) (x : Session) (k : Nat) : domAt (setSess s i x) k = domAt s k := rfl
@[simp] theorem domAt_setPool (i : Nat) (x : Pool) (k : Nat) : domAt (setPool s i x) k = domAt s k := rfl
@[simp] theorem domAt_settle  (k : Nat) : domAt (settle s) k = domAt s k := rfl
@[simp] theorem domAt_emit (rk : RecKind) (src : Src) (pl : Option Nat) (as : List (Nat × Nat)) (k : Nat) : domAt (emit s rk src pl as) k = domAt s k := rfl
@[simp] theorem domAt_modPav (i : Nat) (f : Pavilion → Pavilion) (k : Nat) : domAt (modPav s i f) k = domAt s k := rfl
@[simp] theorem domAt_modEng (u : EngRef) (f : Engine → Engine) (k : Nat) : domAt (modEng s u f) k = domAt s k := rfl
@[simp] theorem domAt_modPlot (i : Nat) (f : Plot → Plot) (k : Nat) : domAt (modPlot s i f) k = domAt s k := rfl
@[simp] theorem domAt_modDie (i : Nat) (f : Dovecote → Dovecote) (k : Nat) : domAt (modDie s i f) k = domAt s k := rfl
@[simp] theorem domAt_modShard (i : Nat) (f : Shard → Shard) (k : Nat) : domAt (modShard s i f) k = domAt s k := rfl
@[simp] theorem domAt_modNorm (i : Nat) (f : Norm → Norm) (k : Nat) : domAt (modNorm s i f) k = domAt s k := rfl
@[simp] theorem domAt_modStack (i : Nat) (f : Stack → Stack) (k : Nat) : domAt (modStack s i f) k = domAt s k := rfl
@[simp] theorem domAt_modLink (i : Nat) (f : Link → Link) (k : Nat) : domAt (modLink s i f) k = domAt s k := rfl
@[simp] theorem domAt_modSess (i : Nat) (f : Session → Session) (k : Nat) : domAt (modSess s i f) k = domAt s k := rfl

/-! ### poolAt? -/

@[simp] theorem poolAt_setPav (i : Nat) (x : Pavilion) (k : Nat) : poolAt? (setPav s i x) k = poolAt? s k := rfl
@[simp] theorem poolAt_setEng (u : EngRef) (x : Engine) (k : Nat) : poolAt? (setEng s u x) k = poolAt? s k := rfl
@[simp] theorem poolAt_setCtr (p c : Nat) (x : Counter) (k : Nat) : poolAt? (setCtr s p c x) k = poolAt? s k := rfl
@[simp] theorem poolAt_setPlot (i : Nat) (x : Plot) (k : Nat) : poolAt? (setPlot s i x) k = poolAt? s k := rfl
@[simp] theorem poolAt_setDie (i : Nat) (x : Dovecote) (k : Nat) : poolAt? (setDie s i x) k = poolAt? s k := rfl
@[simp] theorem poolAt_setShard (i : Nat) (x : Shard) (k : Nat) : poolAt? (setShard s i x) k = poolAt? s k := rfl
@[simp] theorem poolAt_setNorm (i : Nat) (x : Norm) (k : Nat) : poolAt? (setNorm s i x) k = poolAt? s k := rfl
@[simp] theorem poolAt_setStack (i : Nat) (x : Stack) (k : Nat) : poolAt? (setStack s i x) k = poolAt? s k := rfl
@[simp] theorem poolAt_setPort (i : Nat) (x : Port) (k : Nat) : poolAt? (setPort s i x) k = poolAt? s k := rfl
@[simp] theorem poolAt_setLink (i : Nat) (x : Link) (k : Nat) : poolAt? (setLink s i x) k = poolAt? s k := rfl
@[simp] theorem poolAt_setSess (i : Nat) (x : Session) (k : Nat) : poolAt? (setSess s i x) k = poolAt? s k := rfl
@[simp] theorem poolAt_setDom (i : Nat) (x : Domain) (k : Nat) : poolAt? (setDom s i x) k = poolAt? s k := rfl
@[simp] theorem poolAt_settle  (k : Nat) : poolAt? (settle s) k = poolAt? s k := rfl
@[simp] theorem poolAt_emit (rk : RecKind) (src : Src) (pl : Option Nat) (as : List (Nat × Nat)) (k : Nat) : poolAt? (emit s rk src pl as) k = poolAt? s k := rfl
@[simp] theorem poolAt_modPav (i : Nat) (f : Pavilion → Pavilion) (k : Nat) : poolAt? (modPav s i f) k = poolAt? s k := rfl
@[simp] theorem poolAt_modEng (u : EngRef) (f : Engine → Engine) (k : Nat) : poolAt? (modEng s u f) k = poolAt? s k := rfl
@[simp] theorem poolAt_modPlot (i : Nat) (f : Plot → Plot) (k : Nat) : poolAt? (modPlot s i f) k = poolAt? s k := rfl
@[simp] theorem poolAt_modDie (i : Nat) (f : Dovecote → Dovecote) (k : Nat) : poolAt? (modDie s i f) k = poolAt? s k := rfl
@[simp] theorem poolAt_modShard (i : Nat) (f : Shard → Shard) (k : Nat) : poolAt? (modShard s i f) k = poolAt? s k := rfl
@[simp] theorem poolAt_modNorm (i : Nat) (f : Norm → Norm) (k : Nat) : poolAt? (modNorm s i f) k = poolAt? s k := rfl
@[simp] theorem poolAt_modStack (i : Nat) (f : Stack → Stack) (k : Nat) : poolAt? (modStack s i f) k = poolAt? s k := rfl
@[simp] theorem poolAt_modLink (i : Nat) (f : Link → Link) (k : Nat) : poolAt? (modLink s i f) k = poolAt? s k := rfl
@[simp] theorem poolAt_modSess (i : Nat) (f : Session → Session) (k : Nat) : poolAt? (modSess s i f) k = poolAt? s k := rfl
@[simp] theorem poolAt_modDom (i : Nat) (f : Domain → Domain) (k : Nat) : poolAt? (modDom s i f) k = poolAt? s k := rfl

/-! ### The unit itself, and its neighbours -/

@[simp] theorem pavAt_setPav_same (i : Nat) (x : Pavilion) : pavAt (setPav s i x) i = x := tblGet_tblSet_same _ _ _ _
theorem pavAt_setPav_ne (x : Pavilion) (h : k ≠ i) : pavAt (setPav s i x) k = pavAt s k := tblGet_tblSet_ne _ _ _ h
@[simp] theorem pavAt_modPav_same (i : Nat) (f : Pavilion → Pavilion) : pavAt (modPav s i f) i = f (pavAt s i) := tblGet_tblSet_same _ _ _ _
theorem pavAt_modPav_ne (f : Pavilion → Pavilion) (h : k ≠ i) : pavAt (modPav s i f) k = pavAt s k := tblGet_tblSet_ne _ _ _ h
@[simp] theorem plotAt_setPlot_same (i : Nat) (x : Plot) : plotAt (setPlot s i x) i = x := tblGet_tblSet_same _ _ _ _
theorem plotAt_setPlot_ne (x : Plot) (h : k ≠ i) : plotAt (setPlot s i x) k = plotAt s k := tblGet_tblSet_ne _ _ _ h
@[simp] theorem plotAt_modPlot_same (i : Nat) (f : Plot → Plot) : plotAt (modPlot s i f) i = f (plotAt s i) := tblGet_tblSet_same _ _ _ _
theorem plotAt_modPlot_ne (f : Plot → Plot) (h : k ≠ i) : plotAt (modPlot s i f) k = plotAt s k := tblGet_tblSet_ne _ _ _ h
@[simp] theorem dieAt_setDie_same (i : Nat) (x : Dovecote) : dieAt (setDie s i x) i = x := tblGet_tblSet_same _ _ _ _
theorem dieAt_setDie_ne (x : Dovecote) (h : k ≠ i) : dieAt (setDie s i x) k = dieAt s k := tblGet_tblSet_ne _ _ _ h
@[simp] theorem dieAt_modDie_same (i : Nat) (f : Dovecote → Dovecote) : dieAt (modDie s i f) i = f (dieAt s i) := tblGet_tblSet_same _ _ _ _
theorem dieAt_modDie_ne (f : Dovecote → Dovecote) (h : k ≠ i) : dieAt (modDie s i f) k = dieAt s k := tblGet_tblSet_ne _ _ _ h
@[simp] theorem shardAt_setShard_same (i : Nat) (x : Shard) : shardAt (setShard s i x) i = x := tblGet_tblSet_same _ _ _ _
theorem shardAt_setShard_ne (x : Shard) (h : k ≠ i) : shardAt (setShard s i x) k = shardAt s k := tblGet_tblSet_ne _ _ _ h
@[simp] theorem shardAt_modShard_same (i : Nat) (f : Shard → Shard) : shardAt (modShard s i f) i = f (shardAt s i) := tblGet_tblSet_same _ _ _ _
theorem shardAt_modShard_ne (f : Shard → Shard) (h : k ≠ i) : shardAt (modShard s i f) k = shardAt s k := tblGet_tblSet_ne _ _ _ h
@[simp] theorem normAt_setNorm_same (i : Nat) (x : Norm) : normAt (setNorm s i x) i = x := tblGet_tblSet_same _ _ _ _
theorem normAt_setNorm_ne (x : Norm) (h : k ≠ i) : normAt (setNorm s i x) k = normAt s k := tblGet_tblSet_ne _ _ _ h
@[simp] theorem normAt_modNorm_same (i : Nat) (f : Norm → Norm) : normAt (modNorm s i f) i = f (normAt s i) := tblGet_tblSet_same _ _ _ _
theorem normAt_modNorm_ne (f : Norm → Norm) (h : k ≠ i) : normAt (modNorm s i f) k = normAt s k := tblGet_tblSet_ne _ _ _ h
@[simp] theorem stackAt_setStack_same (i : Nat) (x : Stack) : stackAt (setStack s i x) i = x := tblGet_tblSet_same _ _ _ _
theorem stackAt_setStack_ne (x : Stack) (h : k ≠ i) : stackAt (setStack s i x) k = stackAt s k := tblGet_tblSet_ne _ _ _ h
@[simp] theorem stackAt_modStack_same (i : Nat) (f : Stack → Stack) : stackAt (modStack s i f) i = f (stackAt s i) := tblGet_tblSet_same _ _ _ _
theorem stackAt_modStack_ne (f : Stack → Stack) (h : k ≠ i) : stackAt (modStack s i f) k = stackAt s k := tblGet_tblSet_ne _ _ _ h
@[simp] theorem portAt_setPort_same (i : Nat) (x : Port) : portAt (setPort s i x) i = x := tblGet_tblSet_same _ _ _ _
theorem portAt_setPort_ne (x : Port) (h : k ≠ i) : portAt (setPort s i x) k = portAt s k := tblGet_tblSet_ne _ _ _ h
@[simp] theorem linkAt_setLink_same (i : Nat) (x : Link) : linkAt (setLink s i x) i = x := tblGet_tblSet_same _ _ _ _
theorem linkAt_setLink_ne (x : Link) (h : k ≠ i) : linkAt (setLink s i x) k = linkAt s k := tblGet_tblSet_ne _ _ _ h
@[simp] theorem linkAt_modLink_same (i : Nat) (f : Link → Link) : linkAt (modLink s i f) i = f (linkAt s i) := tblGet_tblSet_same _ _ _ _
theorem linkAt_modLink_ne (f : Link → Link) (h : k ≠ i) : linkAt (modLink s i f) k = linkAt s k := tblGet_tblSet_ne _ _ _ h
@[simp] theorem sessAt_setSess_same (i : Nat) (x : Session) : sessAt (setSess s i x) i = x := tblGet_tblSet_same _ _ _ _
theorem sessAt_setSess_ne (x : Session) (h : k ≠ i) : sessAt (setSess s i x) k = sessAt s k := tblGet_tblSet_ne _ _ _ h
@[simp] theorem sessAt_modSess_same (i : Nat) (f : Session → Session) : sessAt (modSess s i f) i = f (sessAt s i) := tblGet_tblSet_same _ _ _ _
theorem sessAt_modSess_ne (f : Session → Session) (h : k ≠ i) : sessAt (modSess s i f) k = sessAt s k := tblGet_tblSet_ne _ _ _ h
@[simp] theorem domAt_setDom_same (i : Nat) (x : Domain) : domAt (setDom s i x) i = x := tblGet_tblSet_same _ _ _ _
theorem domAt_setDom_ne (x : Domain) (h : k ≠ i) : domAt (setDom s i x) k = domAt s k := tblGet_tblSet_ne _ _ _ h
@[simp] theorem domAt_modDom_same (i : Nat) (f : Domain → Domain) : domAt (modDom s i f) i = f (domAt s i) := tblGet_tblSet_same _ _ _ _
theorem domAt_modDom_ne (f : Domain → Domain) (h : k ≠ i) : domAt (modDom s i f) k = domAt s k := tblGet_tblSet_ne _ _ _ h

end Sys2Proof.Machine
end

