-- ==== Sys2Proof/Laws/Issue.lean ====
section
/-! SUPPORT. What the shared operation behind every engine command does: the head issues with its effect, or waits, or nothing happens. -/

namespace Sys2Proof.Machine

open Sys2Proof.Safety

theorem head?_eq {α : Type} {l : List α} {x : α} (h : l.head? = some x) : ∃ r, l = x :: r := by
  cases l with
  | nil => simp at h
  | cons y r => simp at h; exact ⟨r, by rw [h]⟩

/-- Nothing is found wrong in the words of a command. -/
@[simp] theorem pavUpset_none (s : State) (u : EngRef) : pavUpset s u {} = s := by simp [pavUpset, hbmUpset, dieUpset]

/-! ### The wait that is consumed first (R131) -/

/-- The counters of the engine's pavilion once the wait of a command is consumed. -/
def waitCtrs (s : State) (u : EngRef) (k : CmdHdr) : Tbl Counter :=
  let c := ctrAt s u.pav k.wctr.toNat
  if k.w && k.wdec then tblSet (pavAt s u.pav).ctrs k.wctr.toNat { c with value := c.value - BitVec.setWidth 16 k.wthr }
  else (pavAt s u.pav).ctrs

/-- A pavilion with these counters. -/
def withCtrs (v : Pavilion) (c : Tbl Counter) : Pavilion := { v with ctrs := c }

theorem consumeWait_eq (s : State) (u : EngRef) (k : CmdHdr) :
    consumeWait s u k = s ∨ consumeWait s u k = setPav s u.pav (withCtrs (pavAt s u.pav) (waitCtrs s u k)) := by
  by_cases h : (k.w && k.wdec) = true
  · right; simp only [consumeWait, waitCtrs, h, if_true, setCtr, modPav, withCtrs]
  · left; simp only [consumeWait, h]; rfl

/-- Consuming a wait changes the counters of its own pavilion alone. -/
theorem pavAt_consumeWait (s : State) (u : EngRef) (k : CmdHdr) :
    pavAt (consumeWait s u k) u.pav = withCtrs (pavAt s u.pav) (waitCtrs s u k) := by
  by_cases h : (k.w && k.wdec) = true
  · simp only [consumeWait, waitCtrs, h, if_true, setCtr, modPav, withCtrs, pavAt, setPav, tblGet_tblSet_same]
  · simp only [consumeWait, waitCtrs, h, withCtrs]; rfl

theorem pavAt_consumeWait_ne (s : State) (u : EngRef) (k : CmdHdr) {i : Nat} (h : i ≠ u.pav) :
    pavAt (consumeWait s u k) i = pavAt s i := by
  by_cases hk : (k.w && k.wdec) = true
  · simp only [consumeWait, hk, if_true, setCtr, modPav, pavAt, setPav, tblGet_tblSet_ne _ _ _ h]
  · simp only [consumeWait, hk]; rfl

@[simp] theorem plotAt_consumeWait (s : State) (u : EngRef) (k : CmdHdr) (n : Nat) : plotAt (consumeWait s u k) n = plotAt s n := by
  unfold consumeWait; split <;> rfl

@[simp] theorem plotOfPav_consumeWait (s : State) (u : EngRef) (k : CmdHdr) (i : Nat) : plotOfPav (consumeWait s u k) i = plotOfPav s i := by
  unfold consumeWait; split <;> rfl

@[simp] theorem engPlot_consumeWait (s : State) (u w : EngRef) (k : CmdHdr) : engPlot (consumeWait s u k) w = engPlot s w :=
  plotOfPav_consumeWait s u k w.pav

/-- Nothing but the pavilions changes when a wait is consumed. -/
theorem consumeWait_rest (s : State) (u : EngRef) (k : CmdHdr) : consumeWait s u k = { s with pavs := (consumeWait s u k).pavs } := by
  unfold consumeWait; split <;> rfl

/-- The wait consumed before an effect on the engine's pavilion that leaves the counters alone, or after it: the same. -/
theorem setPav_consumeWait (s : State) (u : EngRef) (k : CmdHdr) (w : Pavilion) (h : w.ctrs = (pavAt s u.pav).ctrs) :
    setPav (consumeWait s u k) u.pav (withCtrs w (waitCtrs s u k)) = consumeWait (setPav s u.pav w) u k := by
  by_cases hk : (k.w && k.wdec) = true
  · simp only [consumeWait, waitCtrs, hk, if_true, setCtr, modPav, withCtrs, setPav, pavAt, ctrAt, tblGet_tblSet_same, tblSet_tblSet, h]
  · simp only [consumeWait, waitCtrs, hk, withCtrs, Bool.false_eq_true, if_false, ← h]

/-- As `setPav_consumeWait`, for an effect on another pavilion. -/
theorem setPav_consumeWait_ne (s : State) (u : EngRef) (k : CmdHdr) {i : Nat} (w : Pavilion) (h : i ≠ u.pav) :
    setPav (consumeWait s u k) i w = consumeWait (setPav s i w) u k := by
  by_cases hk : (k.w && k.wdec) = true
  · have h' := Ne.symm h
    simp only [consumeWait, hk, if_true, setCtr, modPav, setPav, pavAt, ctrAt, tblGet_tblSet_ne _ _ _ h', tblSet_comm _ _ _ h']
  · simp only [consumeWait, hk]; rfl

/-- A record emitted after the wait is consumed, or before it: the same. -/
theorem emit_consumeWait (s : State) (u : EngRef) (k : CmdHdr) (rk : RecKind) (src : Src) (n : Option Nat) (args : List (Nat × Nat)) :
    emit (consumeWait s u k) rk src n args = consumeWait (emit s rk src n args) u k := by
  unfold consumeWait; split <;> rfl

/-! ### Issue -/

/-- The head issues: its wait is consumed, then its effect, then the issue itself. -/
theorem issueCmd_ok {s s' : State} {u : EngRef} {q : QCmd} {c : EngCmd} {sig : SigState} {f : Nat → State → Eff}
    (h : issues s u q) (hc : q.cmd = c) (hf : f q.iter (consumeWait s u c.hdr) = .ok s') :
    issueCmd u {} c sig f s = headIssued s' u q sig := by
  obtain ⟨hq, hr, hw⟩ := h
  obtain ⟨r, hr'⟩ := head?_eq hq
  subst hc
  simp [issueCmd, hr', hr, hw, hf]

/-- As `issueCmd_ok`, for a command that leaves nothing on its way and whose effect does not touch the wait counter. -/
theorem issueOp_ok {s s' : State} {u : EngRef} {q : QCmd} {k : CmdHdr} {op : EngOp} {f : Nat → State → Eff}
    (h : issues s u q) (hc : q.cmd = ⟨k, op⟩) (hf : f q.iter (consumeWait s u k) = .ok (consumeWait s' u k)) :
    issueOp u {} k op f s = .next (issued s' u q .notSent) := by
  simp only [issueOp, done, issued, issueCmd_ok h hc hf, hc]

/-- As `issueOp_ok`, for an effect on the engine's pavilion alone that leaves its counters. -/
theorem issueOp_pav {s : State} {w : Pavilion} {u : EngRef} {q : QCmd} {k : CmdHdr} {op : EngOp} {f : Nat → State → Eff}
    (h : issues s u q) (hc : q.cmd = ⟨k, op⟩) (hw : w.ctrs = (pavAt s u.pav).ctrs)
    (hf : f q.iter (consumeWait s u k) = .ok (setPav (consumeWait s u k) u.pav (withCtrs w (waitCtrs s u k)))) :
    issueOp u {} k op f s = .next (issued (setPav s u.pav w) u q .notSent) :=
  issueOp_ok h hc (by rw [hf, setPav_consumeWait s u k w hw])

/-- A failed check ends the engine, its wait consumed. -/
theorem issueOp_fail {s s' : State} {u : EngRef} {q : QCmd} {k : CmdHdr} {op : EngOp} {f : Nat → State → Eff} {e : Fail}
    (h : issues s u q) (hc : q.cmd = ⟨k, op⟩) (hf : f q.iter (consumeWait s u k) = .fail e s') :
    issueOp u {} k op f s = .next (settle (engFail s' u k.tag e)) := by
  obtain ⟨hq, hr, hw⟩ := h
  obtain ⟨r, hr'⟩ := head?_eq hq
  rw [hc] at hw
  simp [issueOp, done, issueCmd, hr', hr, hw, hf, hc]

/-- A head whose wait does not hold stays, and its engine waits. -/
theorem issueCmd_wait {s : State} {u : EngRef} {q : QCmd} {c : EngCmd} {sig : SigState} {f : Nat → State → Eff}
    (hq : (engAt s u).queue.head? = some q) (hc : q.cmd = c) (hr : headReady s u q = true) (hw : headWait s u c.hdr = false) :
    issueCmd u {} c sig f s = modEng s u (fun e => { e with mode := if e.mode == .gated then .gated else .waiting }) := by
  obtain ⟨r, hr'⟩ := head?_eq hq
  subst hc
  simp [issueCmd, hr', hr, hw]

/-- A command that is not the head, or may not issue, does nothing. -/
theorem issueCmd_not {s : State} {u : EngRef} {x : Upset} {q : QCmd} {c : EngCmd} {sig : SigState} {f : Nat → State → Eff}
    (hq : (engAt s u).queue.head? = some q) (h : q.cmd ≠ c ∨ headReady s u q = false) : issueCmd u x c sig f s = s := by
  obtain ⟨r, hr'⟩ := head?_eq hq
  simp only [issueCmd, hr', if_pos h]

theorem issueCmd_empty {s : State} {u : EngRef} {x : Upset} {c : EngCmd} {sig : SigState} {f : Nat → State → Eff}
    (hq : (engAt s u).queue = []) : issueCmd u x c sig f s = s := by simp only [issueCmd, hq]

end Sys2Proof.Machine
end

