-- ==== Sys2Proof/Laws/Kiosk.lean ====
section
/-! SUPPORT. What it is to answer a Kiosk request: the message goes out behind those that were queued, and nothing but the request's session
and the Belvedere is touched; and what a snapshot leaves in the journal. -/

namespace Sys2Proof.Machine

open Sys2Proof.Safety

theorem sessAt_set (s : State) (i k : Nat) (x : Session) : sessAt (setSess s i x) k = if k = i then x else sessAt s k := by
  simp [sessAt, setSess, tblGet_tblSet]

/-- Two writes of one session are the second. -/
theorem setSess_setSess (s : State) (i : Nat) (x y : Session) : setSess (setSess s i x) i y = setSess s i y := by
  have h : ∀ t : Tbl Session, tblSet (tblSet t i x) i y = tblSet t i y := by
    intro t
    induction t with
    | nil => simp [tblSet]
    | cons e t ih =>
      obtain ⟨k, v⟩ := e
      simp only [tblSet]
      split
      · simp [tblSet]
      · next h1 =>
        split
        · simp [tblSet]
        · next h2 => simp only [tblSet, if_neg h1, if_neg h2, ih]
  simp only [setSess, h]

/-- The session that a message leaves behind. -/
def afterSend (x : Session) : Session := { x with outq := [], mctrOut := if x.transport == .inband then x.mctrOut + 1 else x.mctrOut }

/-- A message of a session goes out behind those that were queued there. -/
theorem sendMsg_eq (s : State) (k : Nat) (m : KMsg) :
    sendMsg s k m = { setSess s k (afterSend (sessAt s k)) with out := s.out ++ ((sessAt s k).outq ++ [m]).map (Out.kiosk k) } := by
  simp only [sendMsg, flushOut, modSess, sessAt_set, if_true, setSess_setSess]
  rfl

/-- A request that is heard moves only the message count of its session. -/
theorem heardReq_eq (s : State) (q : KReq) (h : gateSession s q = .pass) :
    heardReq s q = setSess s q.slot (let x := sessAt s q.slot; if x.transport == .inband then { x with mctrIn := q.mctr } else x) := by
  simp [heardReq, h, modSess]

theorem afterSend_served (w : State) (q : KReq) (h : gateSession w q = .pass) :
    afterSend (if (sessAt w q.slot).transport == .inband then { sessAt w q.slot with mctrIn := q.mctr } else sessAt w q.slot) = served w q := by
  generalize hx : sessAt w q.slot = x
  by_cases ht : x.transport = .inband <;> simp [afterSend, served, hx, h, ht]

/-- Answering a request is `sent`, with the request's effect in `w`. -/
theorem sent_answer (w : State) (q : KReq) (m : KMsg) : sent w q m (settle (sendMsg (heardReq w q) q.slot m)) := by
  by_cases hg : gateSession w q = .pass
  · rw [heardReq_eq w q hg, sendMsg_eq]
    simp only [sessAt_set, if_true, setSess_setSess, afterSend_served w q hg]
    refine ⟨rfl, ?_, ?_, ?_⟩
    · show w.out ++ _ = w.out ++ _
      congr 3
      split <;> rfl
    · show sessAt (setSess w q.slot (served w q)) q.slot = _
      simp
    · intro k hk
      show sessAt (setSess w q.slot (served w q)) k = _
      simp [sessAt_set, hk]
  · have hs : afterSend (sessAt w q.slot) = served w q := by simp [afterSend, served, hg]
    have hh : heardReq w q = w := by simp [heardReq, hg]
    rw [hh, sendMsg_eq, hs]
    refine ⟨rfl, rfl, ?_, ?_⟩
    · show sessAt (setSess w q.slot (served w q)) q.slot = _
      simp
    · intro k hk
      show sessAt (setSess w q.slot (served w q)) k = _
      simp [sessAt_set, hk]

/-- A request refused changes nothing but its count. -/
theorem refused_answer (s : State) (q : KReq) (st : U16) (h : st ≠ stOk) : refused s q st (settle (refuse (heardReq s q) q st)) := by
  have e : refuse (heardReq s q) q st =
      sendMsg (heardReq { s with kiosk := { s.kiosk with refusals := s.kiosk.refusals + 1 } } q) q.slot (reply q st) := by
    have h' : (st == stOk) = false := by simpa using h
    have hk : ∀ s : State, countRefusal s = { s with kiosk := { s.kiosk with refusals := s.kiosk.refusals + 1 } } := fun _ => rfl
    simp only [refuse, respond, h', hk, reply]
    by_cases hg : gateSession s q = .pass
    · have hg' : gateSession { s with kiosk := { s.kiosk with refusals := s.kiosk.refusals + 1 } } q = .pass := hg
      rw [heardReq_eq s q hg, heardReq_eq _ q hg']
      rfl
    · have hg' : ¬ gateSession { s with kiosk := { s.kiosk with refusals := s.kiosk.refusals + 1 } } q = .pass := hg
      simp only [heardReq]
      have a : (gateSession s q == GateRes.pass) = false := by simpa using hg
      have b : (gateSession { s with kiosk := { s.kiosk with refusals := s.kiosk.refusals + 1 } } q == GateRes.pass) = false := by simpa using hg'
      simp only [a, b]
      rfl
  rw [e]
  exact sent_answer _ q _

/-- An accepted request, `u` being the heard state with the request's effect and `w` the effect alone. -/
theorem accepted_answer (w : State) (q : KReq) : accepted w q (settle (accept (heardReq w q) q)) := sent_answer w q (reply q stOk)

/-- A write or command that passes the checks of R359 acts on the heard state. -/
theorem kioskReq_pass {s : State} {q : KReq} {index sub : Nat} {command : Bool} (act : State → Session → State) (h : admits s q index sub command) :
    kioskReq s q index sub command act = act (heardReq s q) (sessAt s q.slot) := by
  unfold admits at h
  simp only [kioskReq, h]

/-- A loss of power leaves the journal as it is, or with one run of the snapshot that was due, committed or cut before its commit word. -/
theorem cutSnapshot_cases (s : State) :
    cutSnapshot s = s.journal ∨ ∃ ok z set, cutSnapshot s = runSnapshot s.journal ok s.sd.boot z set := by
  unfold cutSnapshot
  split
  · exact .inl rfl
  · dsimp only
    split
    · exact .inl rfl
    · exact .inr ⟨_, _, _, rfl⟩

/-- A snapshot touches neither the slot it does not write nor the tally. -/
theorem runSnapshot_other (j : Journal) (ok z : Bool) (b : BitVec 32) (set : List JEntry) :
    (if targetB j then (runSnapshot j ok b z set).a = j.a else (runSnapshot j ok b z set).b = j.b) ∧ (runSnapshot j ok b z set).tally = j.tally := by
  cases ok <;> cases h : targetB j <;> simp [runSnapshot, putSlot, h]

end Sys2Proof.Machine
end

