-- ==== Sys2Proof/Laws/Memory.lean ====
section
/-! SUPPORT. Every memory operation keeps the canonical form: SRAM writes, HBM writes, and the writes that pass uncorrectable words by. -/

namespace Sys2Proof.Machine

theorem memWritesBut_wf (skip : List Nat) {m : List Host.Cell} (a : Nat) (bs : List Byte) (w : Memory.wf m = true) :
    Memory.wf (memWritesBut skip m a bs) = true := by
  induction bs generalizing m a with
  | nil => exact w
  | cons b bs ih =>
    simp only [memWritesBut]
    split
    · exact ih _ w
    · exact ih _ (memWrite_wf a b w)

theorem hbmPut_wf (skip : List Nat) {m : List Host.Cell} (r : List (Nat × Byte)) (w : Memory.wf m = true) :
    Memory.wf (hbmPut skip m r) = true := by
  induction r generalizing m with
  | nil => exact w
  | cons e r ih =>
    obtain ⟨a, b⟩ := e
    simp only [hbmPut]
    split
    · exact ih w
    · exact ih (memWrite_wf a b w)

/-- A write to a pavilion's data SRAM keeps it canonical and leaves the stationary buffers alone. -/
theorem sramWrite_wf (v : Pavilion) (a : Nat) (bs : List Byte) (w : Memory.wf v.sram = true) :
    Memory.wf (sramWrite v a bs).1.sram = true ∧ (sramWrite v a bs).1.latStat = v.latStat :=
  ⟨memWritesBut_wf _ _ _ w, rfl⟩

/-- A write to HBM keeps it canonical, and changes nothing but its bytes and its uncorrectable words. -/
theorem hbmWrite_wf (h : Hbm) (as : List Nat) (bs : List Byte) (w : Memory.wf h.mem = true) :
    Memory.wf (hbmWrite h as bs).1.mem = true ∧ (hbmWrite h as bs).1.stks = h.stks :=
  ⟨hbmPut_wf _ _ w, rfl⟩

end Sys2Proof.Machine
end

