-- ==== Sys2Proof/Laws/Packets.lean ====
section
/-! SUPPORT. What the shared ingress of packets does: on a link that is not ACTIVE nothing, and to a packet that passes the checks of R290 what
its row says. -/

namespace Sys2Proof.Machine

open Sys2Proof.Safety

theorem onPacket_down {s : State} {l : Nat} (p : Pkt) (opcs : List (BitVec 8)) (act : State → State) (h : active s l = false) :
    onPacket s l p opcs act = s := by simp [onPacket, h]

/-- The acceptance of a generation moves neither the epoch nor the port mask of a plot. -/
theorem plotAt_opened (s : State) (l : Nat) (p : Pkt) (n : Nat) : plotAt (opened s l p) n = plotAt s n := by
  unfold opened
  split <;> rfl

/-- A packet that passes the checks of R290 is acted on. -/
theorem onPacket_passes {s : State} {l : Nat} {p : Pkt} {opcs : List (BitVec 8)} (act : State → State) (h : passes s l p)
    (ho : opcs.contains p.opc = true) : onPacket s l p opcs act = act (opened s l p) := by
  obtain ⟨ha, hr, hp, hf, hh, he, hv, hm⟩ := h
  have hn : (encrypted (linkAt s l) p && !authentic (linkAt s l) p) = false := by
    cases h' : encrypted (linkAt s l) p
    · rfl
    · simp [he h']
  have ho' : (if encrypted (linkAt s l) p = true then modLink s l (fun x => acceptGen x p) else s) = opened s l p := rfl
  have hv' : (p.vc != 0 && p.vc != 6 && p.epoch != (plotAt s p.plot.toNat).epoch) = false := by
    rcases hv with h | h | h <;> simp [h]
  have hi : ingress s l p = (opened s l p, true) := by
    simp only [ingress, hp, hf, hh, hn, ho', plotAt_opened, hv', hm, Bool.and_self, Bool.not_true, Bool.false_eq_true, if_false]
  simp only [onPacket, ha, hr, ho, hi, Bool.not_true, Bool.and_false, Bool.or_false, Bool.false_eq_true, if_false, if_true]

end Sys2Proof.Machine
end

