-- ==== Sys2Proof/WellFormed.lean ====
section
/-! DEFINITION. Which commands name units that the module has: the bounds of R16 (256 pavilions), R92 (six engines), R284 (64
ports, 128 links), R197 (16 port dies, 1,024 descriptors each), R330 (32 plots), R354 (8 session slots), R248 (4,096 shards),
R270 (8 stacks) and of the sensors of R399. -/

namespace Sys2Proof

def EngRef.wf (u : EngRef) : Bool := decide (u.pav < 256) && decide (u.eng < 6)

def SigTarget.wf : SigTarget → Bool
  | .pav p c => decide (p < 256) && decide (c < 64)
  | .die d n c => decide (d < 16) && decide (n < 32) && decide (c < 1024)

def SigSource.wf : SigSource → Bool
  | .engine u => u.wf
  | .dovecote d => decide (d < 16)

def Pkt.wf (p : Pkt) : Bool := decide (p.body.length ≤ 4096)

def KReq.wf (q : KReq) : Bool := decide (q.slot < 8)

def TestUnit.wf : TestUnit → Bool
  | .pavilion i => decide (i < 256)
  | .portDie j => decide (j < 16)

def PoolReq.wf (r : PoolReq) : Bool :=
  decide (r.plot < 32) && if r.coreDie then decide (r.die < 8) else decide (r.die < 16)

def WorkUnit.wf : WorkUnit → Bool
  | .engine u => u.wf
  | .dovecote d => decide (d < 16)
  | .combiner d => decide (d < 16)
  | .port l => decide (l < 128)

def TickEnv.wf (e : TickEnv) : Bool :=
  e.overruns.all (fun o => o.unit.wf) &&
  e.hbmServed.all (fun o => decide (o.addr + o.bytes ≤ 2 ^ 38))

def StartEnv.wf (e : StartEnv) : Bool :=
  decide (e.reached ≤ 11) && e.bistPavs.all (fun p => decide (p < 256)) &&
  e.bistDies.all (fun d => decide (d < 16)) && e.badStacks.all (fun k => decide (k < 8)) &&
  e.links.all (fun l => decide (l.link < 128)) &&
  e.bistLanes.all (fun b => decide (b.1 < 128) && b.2.all (fun a => decide (a < 16))) &&
  e.phase.all (fun p => decide (p.link < 128))

/-- A link index of R302. -/
def linkOk (l : Nat) : Bool := decide (l < 128)
/-- A port of R284. -/
def portOk (n : Nat) : Bool := decide (n < 64)
/-- A plot of R330. -/
def plotOk (n : Nat) : Bool := decide (n < 32)
/-- A shard of R248. -/
def shardOk (n : Nat) : Bool := decide (n < 4096)
/-- A port die and a descriptor on it (R201). -/
def descOk (d i : Nat) : Bool := decide (d < 16) && decide (i < 1024)
/-- A session slot of R354. -/
def slotOk (s : Nat) : Bool := decide (s < 8)

/-- The command names only units that exist. -/
def Instr.wf : Instr → Bool
  | .tick env => env.wf
  | .periodWrite q _ => q.wf
  | .sundial link _ _ _ => linkOk link
  | .sundialHoldover => true
  | .sundialLost => true
  | .commandFetch u _ => u.wf
  | .headClockGate u => u.wf
  | .breakHit u => u.wf
  | .commandComplete u => u.wf
  | .remoteSignalArrival t senders _ => t.wf && senders.all (fun p => p.1.wf)
  | .nop u _ _ => u.wf
  | .loop u _ _ _ => u.wf
  | .endloop u _ _ => u.wf
  | .frame u _ _ _ => u.wf
  | .halt u _ _ => u.wf
  | .mark u _ _ _ => u.wf
  | .setvl u _ _ _ => u.wf
  | .setvls u _ _ _ => u.wf
  | .sli u _ _ _ _ => u.wf
  | .salu u _ _ _ => u.wf
  | .tld u _ _ _ => u.wf
  | .tst u _ _ _ => u.wf
  | .tsum u _ _ _ => u.wf
  | .execProg u _ _ _ => u.wf
  | .amode u _ _ _ => u.wf
  | .aclr u _ _ _ => u.wf
  | .addd u _ _ _ => u.wf
  | .addi u _ _ _ => u.wf
  | .acarry u _ _ _ => u.wf
  | .adrain u _ _ _ => u.wf
  | .mmerge u _ _ _ => u.wf
  | .msort u _ _ _ => u.wf
  | .mtopk u _ _ _ => u.wf
  | .mfilt u _ _ _ => u.wf
  | .lmm u _ _ _ => u.wf
  | .mcopy u _ _ _ => u.wf
  | .msig u _ _ _ => u.wf
  | .quarterPowerUp core quarter => decide (core < 8) && decide (quarter < 4)
  | .load q n => q.wf && plotOk n
  | .verificationComplete n => plotOk n
  | .activate q n => q.wf && plotOk n
  | .activation n => plotOk n
  | .loadBlocked n => plotOk n
  | .cancel q n => q.wf && plotOk n
  | .bankWrite q _ => q.wf
  | .selftestPavilion q => q.wf
  | .selftestPortDie q => q.wf
  | .selftestDone t _ => t.wf
  | .engineResume q _ => q.wf
  | .counterAdjust q _ => q.wf
  | .counterFlagClear q _ => q.wf
  | .waitCycle n => plotOk n
  | .plotResetComplete n => plotOk n
  | .poolAlloc r _ => r.wf
  | .poolAcquire r _ => r.wf
  | .poolRelease r _ => r.wf
  | .bufferAcquire q _ => q.wf
  | .bufferRelease q _ => q.wf
  | .descriptorTrigger die idx => descOk die idx
  | .seg link p _ => linkOk link && p.wf
  | .stagingRetry die _ => decide (die < 16)
  | .chunkFeed die idx _ => descOk die idx
  | .resultRelease die idx _ => descOk die idx
  | .runComplete die idx => descOk die idx
  | .confirm link p _ => linkOk link && p.wf
  | .retract link p => linkOk link && p.wf
  | .provDeadline die idx => descOk die idx
  | .b2Launch link p => linkOk link && p.wf
  | .b2Status link p => linkOk link && p.wf
  | .p2p link p => linkOk link && p.wf
  | .pairEntryAdmit link => linkOk link
  | .e2eAck link p => linkOk link && p.wf
  | .stream link p => linkOk link && p.wf
  | .telemetry link p => linkOk link && p.wf
  | .shardEntryWrite q _ => q.wf
  | .digestTrigger n => shardOk n
  | .digestBlock n _ => shardOk n
  | .digestComplete n => shardOk n
  | .digestHeader link p => linkOk link && p.wf
  | .digestList link p => linkOk link && p.wf
  | .shardCommit n => shardOk n
  | .psTwinLate n => shardOk n
  | .adoptLocal q => q.wf
  | .adoptTwin q => q.wf
  | .abandon q => q.wf
  | .restore q => q.wf
  | .invalidate q => q.wf
  | .commitDegraded q => q.wf
  | .restoreRequest link p => linkOk link && p.wf
  | .restoreData link p => linkOk link && p.wf
  | .restoreRefusal link p => linkOk link && p.wf
  | .abortNotice link p => linkOk link && p.wf
  | .normTrigger t => plotOk t.plot
  | .normPartial link p => linkOk link && p.wf
  | .normResult link p => linkOk link && p.wf
  | .normConfigWrite q _ => q.wf
  | .stepCounterWrite q n _ => q.wf && plotOk n
  | .regionWrite q n _ => q.wf && plotOk n
  | .scrubComplete stack unit => decide (stack < 8) && decide (unit < 512)
  | .refresh stack channel bank => decide (stack < 8) && decide (channel < 64) && decide (bank < 64)
  | .patrolScrub addr _ => decide (addr < 2 ^ 38)
  | .hbmPressure stack => decide (stack < 8)
  | .hbmStackFail stack => decide (stack < 8)
  | .flitReceive link f => linkOk link && decide (f.bytes.length ≤ 256)
  | .linkSet link _ _ ret => linkOk link && decide (ret.length = 8)
  | .linkSetDue link => linkOk link
  | .nak link _ => linkOk link
  | .replayTimeout link => linkOk link
  | .linkSendSlot link => linkOk link
  | .heartbeat link _ => linkOk link
  | .neighbourSuspect _ => true
  | .linkSignalDetect link => linkOk link
  | .trainDone link => linkOk link
  | .alignDone link => linkOk link
  | .lanecheckDone link _ => linkOk link
  | .param link _ => linkOk link
  | .linkStateTimeout link => linkOk link
  | .linkReattempt link => linkOk link
  | .laneFail link lane _ => linkOk link && decide (lane < 16)
  | .laneRetrainDone link => linkOk link
  | .spare link _ _ => linkOk link
  | .signalLost link => linkOk link
  | .down link _ => linkOk link
  | .linkBringUp q n _ => q.wf && portOk n
  | .linkTakeDown q n _ => q.wf && portOk n
  | .portModeWrite q n _ => q.wf && portOk n
  | .routeTableWrite q _ => q.wf
  | .directionMapWrite q _ => q.wf
  | .routeStall link vc => linkOk link && decide (vc < 8)
  | .sprayPressure entry => decide (entry < 4096)
  | .schedStarved link sub cls => linkOk link && decide (sub < 64) && decide (cls < 3)
  | .pavilionMaskWrite q n _ => q.wf && plotOk n
  | .portMaskWrite q n _ => q.wf && plotOk n
  | .plotStart q n => q.wf && plotOk n
  | .suspend q n => q.wf && plotOk n
  | .plotResume q n => q.wf && plotOk n
  | .plotReset q n => q.wf && plotOk n
  | .releaseHold q n => q.wf && plotOk n
  | .jobSeedWrite q n _ => q.wf && plotOk n
  | .energyBudgetWrite q n _ => q.wf && plotOk n
  | .zeroise q _ => q.wf
  | .attestationRequest q _ => q.wf
  | .attestationReportReady => true
  | .hello link _ => linkOk link
  | .response link _ => linkOk link
  | .finish link _ => linkOk link
  | .keyAgreeTimeout link => linkOk link
  | .entropyFail => true
  | .lockstepFail => true
  | .openSession q _ link _ => q.wf && linkOk link
  | .auth q _ => q.wf
  | .authTimeout slot => slotOk slot
  | .close q => q.wf
  | .sessionTimeout slot => slotOk slot
  | .closeSession q _ => q.wf
  | .objectWrite q _ _ _ _ => q.wf
  | .subscribe q _ _ _ => q.wf
  | .unsubscribe q _ _ => q.wf
  | .notify slot _ _ => slotOk slot
  | .ringRead q cls _ _ => q.wf && decide (cls < 4)
  | .snapshot _ => true
  | .telemetryExport link => match link with | none => true | some l => linkOk l
  | .incidentEnd plot => match plot with | none => true | some n => plotOk n
  | .membershipTableWrite q _ => q.wf
  | .accuse link p => linkOk link && p.wf
  | .roundStart n => plotOk n
  | .roundTakeover n => plotOk n
  | .propose link p => linkOk link && p.wf
  | .ack link p => linkOk link && p.wf
  | .roundClose n _ => plotOk n
  | .commit link p => linkOk link && p.wf
  | .epochAdopt n => plotOk n
  | .noquorum link p => linkOk link && p.wf
  | .pull link p => linkOk link && p.wf
  | .probe link p => linkOk link && p.wf
  | .probeReply link p => linkOk link && p.wf
  | .probeTimeout n => plotOk n
  | .claimDead q _ => q.wf
  | .claimAlive q _ => q.wf
  | .powerGood env => env.wf
  | .startupTimeout => true
  | .vinRange _ => true
  | .powerLoss _ => true
  | .resetN => true
  | .sensorConversion rs => rs.all (fun r => decide (r.sensor < 68))
  | .thermtrip r => decide (r.sensor < 68)
  | .coolantWarn _ _ => true
  | .moduleWarmReset q env => q.wf && env.wf
  | .pavilionReset q _ => q.wf
  | .engineReset q => q.wf
  | .coldReset q => q.wf
  | .firmwareImageWrite q _ _ => q.wf
  | .updateDone => true
  | .preferredSlotWrite q _ => q.wf
  | .vauxRemoved => true
  | .tlsConnectionEnd slot => slotOk slot
  | .managementLinkUp port => decide (port < 2)
  | .kiosk link p => linkOk link && p.wf
  | .keyInstalled link plot => linkOk link && plotOk plot
  | .stackTemperature stack _ => decide (stack < 8)

end Sys2Proof
end

