-- ==== Sys2Proof/Tests/Slice0.lean ====
section
/-! SUPPORT. Tests of the model: commands that name units the module does not have, the manual's worked examples, and for every
statement with hypotheses a state that meets them. -/

namespace Sys2Proof.Tests

set_option Elab.async false

open Sys2Proof Sys2Proof.Machine Sys2Proof.Safety

/-! ### Commands that name a unit the module does not have -/

theorem test_wf_engine : Instr.wf (.nop ⟨255, 5⟩ {} {}) = true ∧ Instr.wf (.nop ⟨256, 0⟩ {} {}) = false ∧
    Instr.wf (.nop ⟨0, 6⟩ {} {}) = false := by decide
theorem test_wf_signal_target : Instr.wf (.remoteSignalArrival (.pav 255 63) [] {}) = true ∧
    Instr.wf (.remoteSignalArrival (.pav 256 0) [] {}) = false ∧ Instr.wf (.remoteSignalArrival (.pav 0 64) [] {}) = false ∧
    Instr.wf (.remoteSignalArrival (.die 16 0 0) [] {}) = false ∧ Instr.wf (.remoteSignalArrival (.die 0 32 0) [] {}) = false ∧
    Instr.wf (.remoteSignalArrival (.die 0 0 1024) [] {}) = false := by decide
theorem test_wf_signal_source : Instr.wf (.remoteSignalArrival (.pav 0 0) [(.dovecote 15, 1)] {}) = true ∧
    Instr.wf (.remoteSignalArrival (.pav 0 0) [(.dovecote 16, 1)] {}) = false ∧
    Instr.wf (.remoteSignalArrival (.pav 0 0) [(.engine ⟨0, 6⟩, 1)] {}) = false := by decide
theorem test_wf_packet : Instr.wf (.p2p 127 { vc := 4, cls := 2, opc := 5 }) = true ∧
    Instr.wf (.p2p 128 { vc := 4, cls := 2, opc := 5 }) = false ∧
    Instr.wf (.p2p 0 { vc := 4, cls := 2, opc := 5, body := List.replicate 4097 0 }) = false := by decide +kernel
theorem test_wf_request : Instr.wf (.close ⟨7, 0, true, 0, 0, true⟩) = true ∧ Instr.wf (.close ⟨8, 0, true, 0, 0, true⟩) = false := by decide
theorem test_wf_self_test : Instr.wf (.selftestDone (.pavilion 256) true) = false ∧ Instr.wf (.selftestDone (.portDie 16) true) = false ∧
    Instr.wf (.selftestDone (.portDie 15) true) = true := by decide
theorem test_wf_pool_request : Instr.wf (.poolAlloc ⟨32, false, 0, false⟩ 0) = false ∧ Instr.wf (.poolAlloc ⟨0, true, 8, false⟩ 0) = false ∧
    Instr.wf (.poolAlloc ⟨0, false, 16, false⟩ 0) = false ∧ Instr.wf (.poolAlloc ⟨31, false, 15, false⟩ 0) = true := by decide
theorem test_wf_tick_overruns : Instr.wf (.tick { overruns := [⟨.port 127, 0, 0, 0, 0⟩] }) = true ∧
    Instr.wf (.tick { overruns := [⟨.port 128, 0, 0, 0, 0⟩] }) = false ∧
    Instr.wf (.tick { overruns := [⟨.combiner 16, 0, 0, 0, 0⟩] }) = false ∧
    Instr.wf (.tick { overruns := [⟨.dovecote 16, 0, 0, 0, 0⟩] }) = false ∧
    Instr.wf (.tick { overruns := [⟨.engine ⟨256, 0⟩, 0, 0, 0, 0⟩] }) = false := by decide
theorem test_wf_tick_served : Instr.wf (.tick { hbmServed := [⟨2 ^ 38 - 1, 1⟩] }) = true ∧
    Instr.wf (.tick { hbmServed := [⟨2 ^ 38, 1⟩] }) = false ∧ Instr.wf (.tick { hbmServed := [⟨2 ^ 38 - 1, 2⟩] }) = false := by decide
theorem test_wf_start : Instr.wf (.powerGood { reached := 11, bistPavs := [255], bistDies := [15], badStacks := [7] }) = true ∧
    Instr.wf (.powerGood { reached := 12 }) = false ∧ Instr.wf (.powerGood { bistPavs := [256] }) = false ∧
    Instr.wf (.powerGood { bistDies := [16] }) = false ∧ Instr.wf (.powerGood { badStacks := [8] }) = false ∧
    Instr.wf (.powerGood { links := [⟨128, ⟨0, 0, 0, 0, [], 0, 0, 1⟩, 0, ⟨[], []⟩⟩] }) = false := by decide
theorem test_wf_start_links : Instr.wf (.powerGood { bistLanes := [(127, [0, 15])], phase := [⟨127, 0, 2, 0, -1⟩] }) = true ∧
    Instr.wf (.powerGood { bistLanes := [(128, [])] }) = false ∧ Instr.wf (.powerGood { bistLanes := [(0, [16])] }) = false ∧
    Instr.wf (.powerGood { phase := [⟨128, 0, 2, 0, 0⟩] }) = false := by decide
theorem test_wf_units : Instr.wf (.trainDone 127) = true ∧ Instr.wf (.trainDone 128) = false ∧
    Instr.wf (.portModeWrite ⟨0, 0, true, 0, 0, true⟩ 64 0) = false ∧ Instr.wf (.roundStart 31) = true ∧ Instr.wf (.roundStart 32) = false ∧
    Instr.wf (.digestTrigger 4095) = true ∧ Instr.wf (.digestTrigger 4096) = false ∧ Instr.wf (.runComplete 15 1023) = true ∧
    Instr.wf (.runComplete 16 0) = false ∧ Instr.wf (.runComplete 0 1024) = false ∧ Instr.wf (.authTimeout 8) = false := by decide
theorem test_wf_quarter_and_dies : Instr.wf (.quarterPowerUp 7 3) = true ∧ Instr.wf (.quarterPowerUp 8 0) = false ∧
    Instr.wf (.quarterPowerUp 0 4) = false ∧ Instr.wf (.stagingRetry 16 {}) = false := by decide
theorem test_wf_memory : Instr.wf (.scrubComplete 7 511) = true ∧ Instr.wf (.scrubComplete 8 0) = false ∧ Instr.wf (.scrubComplete 0 512) = false ∧
    Instr.wf (.refresh 8 0 0) = false ∧ Instr.wf (.refresh 0 64 0) = false ∧ Instr.wf (.refresh 0 0 64) = false ∧
    Instr.wf (.patrolScrub (2 ^ 38 - 1) .clean) = true ∧ Instr.wf (.patrolScrub (2 ^ 38) .clean) = false ∧
    Instr.wf (.hbmPressure 8) = false ∧ Instr.wf (.hbmStackFail 8) = false ∧ Instr.wf (.stackTemperature 8 0) = false := by decide
theorem test_wf_links : Instr.wf (.flitReceive 0 ⟨List.replicate 256 0, 0⟩) = true ∧ Instr.wf (.flitReceive 0 ⟨List.replicate 257 0, 0⟩) = false ∧
    Instr.wf (.linkSet 0 0 true (List.replicate 8 0)) = true ∧ Instr.wf (.linkSet 0 0 true []) = false ∧
    Instr.wf (.routeStall 0 8) = false ∧ Instr.wf (.laneFail 0 15 true) = true ∧ Instr.wf (.laneFail 0 16 true) = false ∧
    Instr.wf (.keyInstalled 0 32) = false := by decide +kernel
theorem test_wf_routing : Instr.wf (.sprayPressure 4096) = false ∧ Instr.wf (.schedStarved 0 63 2) = true ∧
    Instr.wf (.schedStarved 0 64 0) = false ∧ Instr.wf (.schedStarved 0 0 3) = false := by decide
theorem test_wf_rings_and_export : Instr.wf (.ringRead ⟨0, 0, true, 0, 0, true⟩ 4 0 0) = false ∧ Instr.wf (.telemetryExport (some 128)) = false ∧
    Instr.wf (.telemetryExport none) = true ∧ Instr.wf (.incidentEnd (some 32)) = false := by decide
theorem test_wf_sensors : Instr.wf (.sensorConversion [⟨67, 0⟩]) = true ∧ Instr.wf (.sensorConversion [⟨68, 0⟩]) = false ∧
    Instr.wf (.thermtrip ⟨68, 0⟩) = false ∧ Instr.wf (.managementLinkUp 2) = false := by decide

/-! ### Command words of the engine streams, written out from Tables 5.1 to 5.18 -/

theorem test_word_nop_waits : decodeCmd 2 0x002_1234_8A0_2001_0_0000000000000000 = none ∧
    decodeCmd 2 0x00212348A00200100000000000000000 =
      some ⟨{ tag := 0x1234, w := true, wctr := 5, wthr := 1, wdec := true }, .nop⟩ := by decide +kernel
theorem test_word_loop : decodeCmd 4 0x01400000000000000000000000000003 = some ⟨{}, .loop ⟨false, 0, 3⟩⟩ := by decide +kernel
theorem test_word_setvl : decodeCmd 0 0x10000000000000000000000000000200 = some ⟨{}, .setvl 512⟩ ∧
    decodeCmd 0 0x10000000000000000000000000000201 = none ∧ decodeCmd 1 0x10100000000000000000000000000200 = none := by decide +kernel
theorem test_word_amode : decodeCmd 1 0x30100000000000000000080008000000 =
    some ⟨{}, .amode { slot := 0, n := 1, mode := false, b := 0, fmt := 2, sq := false }⟩ := by decide +kernel
theorem test_word_tld : decodeCmd 0 0x14000000000000000880000000000000 =
    some ⟨{}, .tld { t := 1, fmt := 1, sa := 0, sx := 0, off := 0, rs := 0, rm := 0, si := 0, y := 0 }⟩ := by decide +kernel
theorem test_word_mmerge :
    decodeCmd 2 0x40200000000000000001006000000000 = some ⟨{}, .mmerge { pb := 0x40, vfmt := 1, key := true, dir := false, dup := 0, fop := 0 }⟩ := by
  decide +kernel
theorem test_word_lmm : decodeCmd 3 0x50300000000000000001008880000000 =
    some ⟨{}, .lmm { pb := 0x40, afmt := 2, bfmt := 2, sp := 0, init := true, ob := false, rm := 0 }⟩ := by decide +kernel
theorem test_word_msig : decodeCmd 5 0x61500000000000000030018400000000 =
    some ⟨{}, .msig { kind := 0, pav := 3, die := 0, ctr := 6, inc := 1 }⟩ := by decide +kernel
theorem test_word_unknown_opcode : decodeCmd 0 0x18000000000000000000000000000000 = none := by decide +kernel

/-! ### The manual's worked examples -/

/-- Chapter 12, encoding a header flit: bytes 4–15 on the wire. -/
theorem test_header_flit_bytes :
    sliceB (headerFlit { vc := 2, cls := 0, prov := false, plot := 2, epoch := 7, dest := 0x012345, opc := 1, tag := 0x0040, len := 16 } 0x0123) 4 12 =
      [0x40, 0x00, 0x01, 0x45, 0x23, 0x01, 0x07, 0x00, 0x02, 0x82, 0x23, 0x41] := by decide +kernel
/-- R259: the check value of the digest. -/
theorem test_digest_check_value : crc64 [0x31, 0x32, 0x33, 0x34, 0x35, 0x36, 0x37, 0x38, 0x39] = 0x6C40DF5F0B497347 := by decide +kernel
/-- Chapter 12, a 300 m link at the default period: 4,660 flits a frame. -/
theorem test_frame_capacity : capacityOf 6400 3340 = 4660 := by decide
/-- Chapter 11, locating a byte: MASK 0b0011_0000, BASE 100, SIZE 200. -/
theorem test_region_translation :
    regTranslate ((0x30 : BitVec 8) ++ BitVec.ofNat 9 100 ++ BitVec.ofNat 9 200 ++ (0 : BitVec 38)) 0x340001234 = some 0x29B0001234 := by decide +kernel
/-- Chapter 06, a wait cycle refused: the load result word. -/
theorem test_load_result_word :
    resultWord { check := 9, fail := { sec := some { (default : Sec) with idx := 7, unit := 3, eng := 0 }, index := 12 }, status := 0x0101 } =
      0x901C0C0000300101 := by decide +kernel
/-- Chapter 06, a word of a load result refused at admission carries no section. -/
theorem test_load_result_no_section : resultWord { check := 12, fail := { sec := none, index := 0 }, status := 0x0102 } = 0xC000000000000102 := by
  decide +kernel
/-- Chapter 03, the single-rounding mean: three BF16 contributions, divisor 3, rounded to nearest and to odd. -/
theorem test_mean_rounds_once :
    let t : Slot := [0x3F81, 0x3F80, 0x3F80].foldl (fun t v => slotAdd t (decodeElem fBF16 0 v)) (slotMode false 2 false 0)
    (writeElem fBF16 0 0 (slotResult t (some 3)).res).bits = 0x3F80 ∧ (writeElem fBF16 2 0 (slotResult t (some 3)).res).bits = 0x3F81 := by
  decide +kernel
/-- Chapter 03, the same mean rounded stochastically: r = 0x3A71 rounds down, and 43,691 is the first r that rounds up. -/
theorem test_mean_stochastic :
    let t : Slot := [0x3F81, 0x3F80, 0x3F80].foldl (fun t v => slotAdd t (decodeElem fBF16 0 v)) (slotMode false 2 false 0)
    (writeElem fBF16 3 0x3A71 (slotResult t (some 3)).res).bits = 0x3F80 ∧ (writeElem fBF16 3 43690 (slotResult t (some 3)).res).bits = 0x3F80 ∧
      (writeElem fBF16 3 43691 (slotResult t (some 3)).res).bits = 0x3F81 := by decide +kernel
/-- Chapter 03, an FP64 window escape with B = −560, and the exact sum with B = −600. -/
theorem test_window_escape :
    let xs : List Machine.Num := [.fin false 3 (-1), .fin false 1 (-40), .fin true 3 (-2), .fin false 1 (-580)]
    let at_ (b : Int) : Elem := slotResult (xs.foldl slotAdd (slotMode true 0 false b)) none
    (at_ (-560)).origin = .escape ∧ (writeElem fFP64 0 0 (at_ (-560)).res).bits = 0x7FF8000000000000 ∧
      (writeElem fFP64 0 0 (at_ (-600)).res).bits = 0x3FE8000000002000 := by decide +kernel
/-- Chapter 03: 127.3 written as INT8 under RNE or RTZ is 127 and counts in SAT. -/
theorem test_int8_saturates_by_fraction :
    writeElem fINT8 0 0 (.fin false 1273 10 0) = writeElem fINT8 1 0 (.fin false 1273 10 0) ∧
      (writeElem fINT8 0 0 (.fin false 1273 10 0)).bits = 127 ∧ (writeElem fINT8 0 0 (.fin false 1273 10 0)).sat = true := by decide +kernel
/-- Chapter 13, Table 13.3, steps 1 and 2: plots 2 and 5 become backlogged at v = 10,000 with heads of 17 flits. -/
theorem test_fair_share_tags :
    let w (n : Nat) : Nat := if n = 2 then 0x0300 else 0x0100
    let g := tagChildren { v := 10000 } w [(2, 17), (5, 17)]
    tblGet 0 g.finish 2 = 11451 ∧ tblGet 0 g.finish 5 = 14352 ∧ pickChild g w [2, 5] = some 2 ∧
      (serveChild g w 2).v = 10000 ∧ pickChild (tagChildren (serveChild g w 2) w [(2, 17), (5, 17)]) w [2, 5] = some 5 := by decide +kernel
/-- Chapter 13, Table 13.3, step 10: plot 7 last finished at 3,000 and enters at the virtual time 18,704. -/
theorem test_fair_share_late_arrival :
    tblGet 0 (tagChildren { v := 18704, finish := [(7, 3000)] } (fun _ => 0x0100) [(7, 17)]).finish 7 = 23056 := by decide +kernel

/-- Pool 0x11 of Table 7.7: buffers of 4 KiB, two of them, for plot 3. -/
def tPool (bufs : Tbl Buf) : State :=
  { State.reset with pools := [(0x11, { plot := 3, rel := 1, loc := 0, unit := 0, size := 12, count := 2, base := 0, bufs := bufs })] }
/-- What a pool request leaves behind: the answer and the pool's buffers. -/
def tPoolAfter (c : Instr) (s : State) : Option (Option Out × Option (Tbl Buf)) :=
  match exec c s with
  | .next t => some (t.out.getLast?, (poolAt? t 0x11).map (·.bufs))
  | _ => none
def tReq : PoolReq := { plot := 3, coreDie := false, die := 0 }

/-- Table 7.7, step 1. -/
theorem test_pool_alloc : tPoolAfter (.poolAlloc tReq 0x11) (tPool []) = some (some (.pool tReq 0 0x11000001), some [(0, ⟨1, 1⟩)]) := by decide +kernel
/-- Table 7.7, step 3. -/
theorem test_pool_empty : tPoolAfter (.poolAlloc tReq 0x11) (tPool [(0, ⟨1, 1⟩), (1, ⟨1, 1⟩)]) =
    some (some (.pool tReq stPoolEmpty 0), some [(0, ⟨1, 1⟩), (1, ⟨1, 1⟩)]) := by decide +kernel
/-- Table 7.7, step 4. -/
theorem test_pool_acquire : tPoolAfter (.poolAcquire tReq 0x11000001) (tPool [(0, ⟨1, 1⟩), (1, ⟨1, 1⟩)]) =
    some (some (.pool tReq 0 0x11000001), some [(0, ⟨2, 1⟩), (1, ⟨1, 1⟩)]) := by decide +kernel
/-- Table 7.7, steps 7 and 9. -/
theorem test_pool_release_refused :
    tPoolAfter (.poolRelease tReq 0x11000001) (tPool [(0, ⟨0, 1⟩), (1, ⟨1, 1⟩)]) =
      some (some (.pool tReq stDoubleFree 0x11000001), some [(0, ⟨0, 1⟩), (1, ⟨1, 1⟩)]) ∧
    tPoolAfter (.poolRelease tReq 0x11000001) (tPool [(0, ⟨1, 2⟩), (1, ⟨1, 1⟩)]) =
      some (some (.pool tReq stHandleInvalid 0x11000001), some [(0, ⟨1, 2⟩), (1, ⟨1, 1⟩)]) := by decide +kernel
/-- R176: totals are clamped once. -/
theorem test_counter_clamps : (ctrAdd { poison := false, value := 0xFFFE } 1).1.value = 0xFFFF ∧ (ctrAdd { poison := false, value := 0xFFFE } 1).1.ovf = false ∧
    (ctrAdd { poison := false, value := 0xFFFF } 1).1.ovf = true ∧ (ctrAdd { poison := false, value := 3 } (-4)).1.unf = true := by decide +kernel
/-- Chapter 00: the bytes of a number lie least significant first. -/
theorem test_little_endian : natLe 4 0x01020304 = [4, 3, 2, 1] := by decide
/-- R58: 1.0 + 2^−24 ties to even, 1.0 + 3 × 2^−24 rounds up. -/
theorem test_fp32_ties_to_even : f32Add 0x3F800000 0x33800000 = 0x3F800000 ∧ f32Add 0x3F800000 0x34400000 = 0x3F800002 := by decide +kernel
/-- Table 5.7: a fused multiply-add rounds once, where (1 + 2^−23)(1 + 2^−22) − 1 keeps its last bit. -/
theorem test_fma_rounds_once : f32Fma 0x3F800001 0x3F800002 0xBF800000 = 0x34C00001 := by decide +kernel

/-! ### States in which an engine command may issue -/

/-- Pavilion 0 of a running plot 0 that owns port 0. -/
def tState (v : Pavilion) : State :=
  { State.reset with pavs := [(0, v)], plots := [(0, { state := 2, pavMask := 1, pavSeen := 1, portMask := 1 })] }
/-- Pavilion 0 with one command at the head of one engine. -/
def tHead (eng : Nat) (v : Pavilion) (op : EngOp) : State :=
  tState { v with engines := [(eng, { program := true, mode := .running, queue := [⟨⟨{}, op⟩, 0⟩] })] }
def tPav (v : Pavilion) (eng : Nat) (op : EngOp) : Pavilion := pavAt (tHead eng v op) 0
/-- 32-bit words as bytes. -/
def tWords (ws : List Nat) : List Byte := ws.flatMap (natLe 4)
/-- A pavilion whose SRAM holds some bytes at an address, and nothing else. -/
def tSram (a : Nat) (bs : List Byte) : Pavilion := { sram := memWrites [] a bs }

/-- A NOP alone in its queue issues. -/
theorem witness_head_issues : issues (tHead 0 {} .nop) ⟨0, 0⟩ ⟨⟨{}, .nop⟩, 0⟩ := by unfold issues; decide +kernel

theorem witness_step_front : ∃ (s : State) (c : Instr) (rest : List Instr), s.pending = c :: rest :=
  ⟨{ State.reset with pending := [.resetN] }, _, _, rfl⟩
theorem witness_step_empty : State.reset.pending = [] := rfl
theorem witness_kept : kept State.reset ∧ step State.reset = .next State.reset :=
  ⟨⟨⟨by decide, by decide, by decide⟩, by decide⟩, rfl⟩
theorem witness_encoded : opOnEng 5 (.mcopy 0x3FFFE0) = true ∧ cmdOk 5 ⟨{ w := true, wthr := 0xFFF, wctr := 63, laa := true }, .mcopy 0x3FFFE0⟩ = true := by
  decide +kernel
theorem witness_sram : Memory.wf (tSram 0x3FFFFF [7]).sram = true ∧ (tSram 0x3FFFFF [7]).badWords = [] := by decide +kernel
/-- A head that issues with WDEC, and one whose wait does not hold. -/
theorem witness_head_waits :
    let s := tState { engines := [(0, { program := true, mode := .running, queue := [⟨⟨{ w := true, wthr := 1 }, .nop⟩, 0⟩] })] }
    (engAt s ⟨0, 0⟩).queue.head? = some ⟨⟨{ w := true, wthr := 1 }, .nop⟩, 0⟩ ∧ headReady s ⟨0, 0⟩ ⟨⟨{ w := true, wthr := 1 }, .nop⟩, 0⟩ = true ∧
      headWait s ⟨0, 0⟩ { w := true, wthr := 1 } = false := by decide +kernel
theorem witness_head_not_ready :
    let s := setPlot (tHead 0 {} .nop) 0 { (plotAt (tHead 0 {} .nop) 0) with state := 3 }
    (engAt s ⟨0, 0⟩).queue.head? = some ⟨⟨{}, .nop⟩, 0⟩ ∧ headReady s ⟨0, 0⟩ ⟨⟨{}, .nop⟩, 0⟩ = false := by decide +kernel
theorem witness_queue_empty : (engAt State.reset ⟨255, 5⟩).queue = [] := by decide +kernel
theorem witness_control :
    issues (tHead 5 {} .nop) ⟨0, 5⟩ ⟨⟨{}, .nop⟩, 0⟩ ∧ issues (tHead 4 {} (.loop ⟨false, 0, 1⟩)) ⟨0, 4⟩ ⟨⟨{}, .loop ⟨false, 0, 1⟩⟩, 0⟩ ∧
    issues (tHead 3 {} .endloop) ⟨0, 3⟩ ⟨⟨{}, .endloop⟩, 0⟩ ∧ issues (tHead 2 {} .halt) ⟨0, 2⟩ ⟨⟨{}, .halt⟩, 0⟩ ∧
    issues (tHead 1 {} (.frame 0xFFFF)) ⟨0, 1⟩ ⟨⟨{}, .frame 0xFFFF⟩, 0⟩ ∧ issues (tHead 0 {} (.mark 7)) ⟨0, 0⟩ ⟨⟨{}, .mark 7⟩, 0⟩ := by
  unfold issues; decide +kernel
theorem witness_scalar_commands :
    issues (tHead 0 {} (.setvl 512)) ⟨0, 0⟩ ⟨⟨{}, .setvl 512⟩, 0⟩ ∧ (512 : BitVec 10).toNat ≤ 512 ∧
    issues (tHead 0 {} (.setvls 31)) ⟨0, 0⟩ ⟨⟨{}, .setvls 31⟩, 0⟩ ∧ issues (tHead 0 {} (.sli 31 5)) ⟨0, 0⟩ ⟨⟨{}, .sli 31 5⟩, 0⟩ ∧
    issues (tHead 0 {} (.salu ⟨0xA, true, 1, 2, 0, 0xFFFF⟩)) ⟨0, 0⟩ ⟨⟨{}, .salu ⟨0xA, true, 1, 2, 0, 0xFFFF⟩⟩, 0⟩ ∧ (0xA : BitVec 4).toNat ≤ 0xA := by
  unfold issues; decide +kernel

def tTile (off : BitVec 22) (fmt : BitVec 4) : TileMem := ⟨1, fmt, 0, 0, off, 0, 0, 0, 0⟩
/-- A load of one FP32 element that ends at the last byte of data SRAM. -/
theorem witness_tld :
    let v := tPav { vl := 1 } 0 (.tld (tTile 0x3FFFFC 1))
    issues (tHead 0 { vl := 1 } (.tld (tTile 0x3FFFFC 1))) ⟨0, 0⟩ ⟨⟨{}, .tld (tTile 0x3FFFFC 1)⟩, 0⟩ ∧ fmtValid 1 = true ∧ (1 : Nat) ≠ fFP64 ∧
      strideOk (tTile 0x3FFFFC 1) = true ∧ (∀ r ∈ tileRanges v (tTile 0x3FFFFC 1) {} 0 v.vl, sramIn r.1 r.2 = true) ∧
      sramBads v (tileRanges v (tTile 0x3FFFFC 1) {} 0 v.vl) = none := by
  unfold issues; decide +kernel
/-- A store of one full row of FP32, and of none. -/
theorem witness_tst :
    (let v := tPav { vl := 32 } 0 (.tst (tTile 0x3FFF80 1))
     issues (tHead 0 { vl := 32 } (.tst (tTile 0x3FFF80 1))) ⟨0, 0⟩ ⟨⟨{}, .tst (tTile 0x3FFF80 1)⟩, 0⟩ ∧ v.badWords = [] ∧ fmtValid 1 = true ∧
       strideOk (tTile 0x3FFF80 1) = true ∧ (∀ r ∈ tileRanges v (tTile 0x3FFF80 1) {} 0 v.vl, sramIn r.1 r.2 = true) ∧
       Memory.wf v.sram = true ∧ v.vl ≤ 32) ∧
    (let v := tPav { vl := 0 } 0 (.tst (tTile 0 1))
     issues (tHead 0 { vl := 0 } (.tst (tTile 0 1))) ⟨0, 0⟩ ⟨⟨{}, .tst (tTile 0 1)⟩, 0⟩ ∧ v.badWords = [] ∧ v.vl = 0 ∧
       (∀ r ∈ tileRanges v (tTile 0 1) {} 0 v.vl, sramIn r.1 r.2 = true)) := by
  unfold issues; decide +kernel
theorem witness_tsum :
    let o : TileMem := ⟨0, 0, 0, 0, 0x3FFFC0, 0, 0, 0, 3⟩
    issues (tHead 0 {} (.tsum o)) ⟨0, 0⟩ ⟨⟨{}, .tsum o⟩, 0⟩ ∧ advance false (scalar (tPav {} 0 (.tsum o)) 0 + 0x3FFFC0) 64 0 % 64 = 0 ∧
      advance false (scalar (tPav {} 0 (.tsum o)) 0 + 0x3FFFC0) 64 0 + 64 ≤ 2 ^ 22 := by
  unfold issues; decide +kernel

def tSel : BSel := ⟨0, 0, 0⟩
/-- One MOV at the last address of the element-program store. -/
def tExec : ExecOps := ⟨255, 8, tSel, tSel, tSel, tSel⟩
def tProg (w : BitVec 32) : State :=
  tState { engines := [(0, { program := true, mode := .running, queue := [⟨⟨{}, .exec tExec⟩, 0⟩], store0 := List.replicate 2048 w })] }
theorem witness_exec :
    let s := tProg ((1 : BitVec 6) ++ (0 : BitVec 26))
    let p := (((activeStore (engAt s ⟨0, 0⟩)).drop 2040).take 8).map uopOf
    issues s ⟨0, 0⟩ ⟨⟨{}, .exec tExec⟩, 0⟩ ∧ (pavAt s 0).vl ≤ 512 ∧ p.length = 8 ∧ programOk tExec p = true := by
  unfold issues; decide +kernel

def tAmode : AmodeOps := ⟨1023, 1, true, 417, 0, false⟩
/-- Slot 1,023 set to XA640w as the 32nd wide slot. -/
theorem witness_amode :
    let v : Pavilion := { slots := (List.range 31).map (fun i => (i, slotMode true 0 false 0)) }
    let w := (slotRange 1023 1).foldl (fun w j => setSlot w j (slotMode true 0 false (417 : BitVec 12).toInt)) (tPav v 1 (.amode tAmode))
    issues (tHead 1 v (.amode tAmode)) ⟨0, 1⟩ ⟨⟨{}, .amode tAmode⟩, 0⟩ ∧ modeOk tAmode = true ∧ 1023 + 1 ≤ 1024 ∧
      (w.slots.filter (fun t => t.2.wide)).length ≤ 32 := by
  unfold issues; decide +kernel
theorem witness_aclr : issues (tHead 1 {} (.aclr ⟨0, 1024⟩)) ⟨0, 1⟩ ⟨⟨{}, .aclr ⟨0, 1024⟩⟩, 0⟩ ∧
    (0 : BitVec 10).toNat + (1024 : BitVec 11).toNat ≤ 1024 := by
  unfold issues; decide +kernel
def tFp32Slot : Pavilion := { slots := [(1023, slotMode false 1 false 0)] }
theorem witness_addd :
    let o : AdddOps := ⟨0x3FFFFC, 1023, 1, 1, false, 0⟩
    let v := tPav tFp32Slot 1 (.addd o)
    issues (tHead 1 tFp32Slot (.addd o)) ⟨0, 1⟩ ⟨⟨{}, .addd o⟩, 0⟩ ∧ fmtValid 1 = true ∧ fmtMx 1 = false ∧ 1023 + 1 ≤ 1024 ∧
      sramIn 0x3FFFFC (fmtSize 1 1) = true ∧ sramIn (0x3FFFFC + 0) 0 = true ∧
      (∀ j, 1023 ≤ j → j < 1023 + 1 → (slotAt v j).fmt = some 1 ∧ (slotAt v j).sq = false) ∧
      sramBads v [(0x3FFFFC, fmtSize 1 1), (0x3FFFFC, 0)] = none := by
  refine ⟨by unfold issues; decide +kernel, by decide, by decide, by decide, by decide, by decide, ?_, by decide +kernel⟩
  intro j h1 h2
  obtain rfl : j = 1023 := by omega
  decide +kernel
/-- One index-value record that names slot 1,023, at the end of data SRAM. -/
theorem witness_addi :
    let o : AddiOps := ⟨0x3FFFF8, 1023, 1, 1, false, 0⟩
    let v0 : Pavilion := { tFp32Slot with sram := memWrites [] 0x3FFFF8 (tWords [0, 0x3F800000]) }
    let v := tPav v0 1 (.addi o)
    issues (tHead 1 v0 (.addi o)) ⟨0, 1⟩ ⟨⟨{}, .addi o⟩, 0⟩ ∧ fmtValid 1 = true ∧ fmtMx 1 = false ∧ sramIn 0x3FFFF8 (1 * recordSize 1 false) = true ∧
      sramBad v 0x3FFFF8 (1 * recordSize 1 false) = none ∧
      (∀ r ∈ readRecords v 1 0x3FFFF8 1, 0 * 1024 ≤ 1023 + r.index ∧ 1023 + r.index - 0 * 1024 < 1024 ∧
        (slotAt v (1023 + r.index - 0 * 1024)).fmt = some 1 ∧ (slotAt v (1023 + r.index - 0 * 1024)).sq = false) := by
  unfold issues; decide +kernel
/-- One carry record of zero for a slot of FP64, at the end of data SRAM. -/
theorem witness_acarry :
    let o : AcarryOps := ⟨0x3FFFD0, 1023, 1, 0⟩
    let v0 : Pavilion := { slots := [(1023, slotMode false 0 false 0)] }
    let v := tPav v0 1 (.acarry o)
    issues (tHead 1 v0 (.acarry o)) ⟨0, 1⟩ ⟨⟨{}, .acarry o⟩, 0⟩ ∧ sramIn 0x3FFFD0 (1 * 48) = true ∧ sramBad v 0x3FFFD0 (1 * 48) = none ∧
      (∀ c ∈ (List.range 1).map (fun i => carryOf (leNat (sramRead v (0x3FFFD0 + 48 * i) 48))), 0 * 1024 ≤ 1023 + c.index ∧
        1023 + c.index - 0 * 1024 < 1024 ∧ (slotAt v (1023 + c.index - 0 * 1024)).fmt = some (BitVec.ofNat 4 c.fmt) ∧
        (slotAt v (1023 + c.index - 0 * 1024)).sq = false ∧ (slotAt v (1023 + c.index - 0 * 1024)).wide = false) := by
  unfold issues; decide +kernel
/-- Every kind of contribution: one below the limit, a full slot, an escape. -/
theorem witness_contribution : ({ count := 2 ^ 32 - 1 } : Slot).count < 2 ^ 32 ∧ (2 : Nat) ^ 32 ≤ ({ count := 2 ^ 32 } : Slot).count ∧
    (-149 : Int) ≤ -149 ∧ (-561 : Int) < (slotMode true 0 false (-560)).base ∧ 1 % 2 ^ ((-560 : Int) - -561).toNat ≠ 0 := by decide +kernel
/-- One FP32 result at the end of data SRAM, its summary before it. -/
theorem witness_adrain :
    let o : AdrainOps := ⟨0x3FFFFC, 1023, 1, 1, 0, false, false, 0x1FFE⟩
    let v0 : Pavilion := { tFp32Slot with sram := memWrites [] 0x3FFC00 (tWords [0, 5, 0, 0, 0x3FFF80, 0, 0, 0]) }
    let v := tPav v0 1 (.adrain o)
    let b := drainBlk (sramRead v 0x3FFC00 32)
    issues (tHead 1 v0 (.adrain o)) ⟨0, 1⟩ ⟨⟨{}, .adrain o⟩, 0⟩ ∧ advance false ((0x1FFE : BitVec 13).toNat * 512) 512 0 = 0x3FFC00 ∧ v.badWords = [] ∧
      fmtValid 1 = true ∧ fmtInt 1 = false ∧ 1023 + 1 ≤ 1024 ∧ sramIn 0x3FFC00 32 = true ∧ b.rsvd = 0 ∧ b.suma % 64 = 0 ∧
      sramIn b.suma 64 = true ∧ sramIn 0x3FFFFC (fmtSize 1 1) = true ∧ sramIn b.sca 0 = true ∧ Memory.wf v.sram = true ∧
      0x3FFFFC + 4 ≤ 2 ^ 22 ∧ b.suma + 64 ≤ 0x3FFFFC := by
  unfold issues; decide +kernel

/-- A merge of one stream of one record: block at 0x40, table at 0x80, records at 0x90, output at the end of data SRAM. -/
def tMerge : Pavilion :=
  { sram := memWrites (memWrites (memWrites [] 0x40 (tWords [0x80, 1, 0x3FFFF8, 1, 0, 0, 0, 5])) 0x80 (tWords [0x90, 1])) 0x90 (tWords [5, 0x3F800000]) }
def tMergeOps (dup : BitVec 2) (fop : BitVec 3) : MergeOps := ⟨0x40, 1, false, false, dup, fop⟩
theorem witness_mmerge :
    let o := tMergeOps 0 0
    let v := tPav tMerge 2 (.mmerge o)
    let b := mergeBlk (sramRead v 0x40 64)
    let tab := (List.range b.n).map (fun i => (numAt (sramRead v (b.src + 8 * i) 8) 0 4, numAt (sramRead v (b.src + 8 * i) 8) 4 4))
    let ss := (tab.map (fun e => readRecords v 1 e.1 e.2)).map (markStream 1 false false)
    let out := dupMode 1 false 0 (mergeN 1 false false (sumN (tab.map (·.2))) ss)
    issues (tHead 2 tMerge (.mmerge o)) ⟨0, 2⟩ ⟨⟨{}, .mmerge o⟩, 0⟩ ∧ v.badWords = [] ∧ fmtKey 1 = true ∧ o.dup ≠ 3 ∧ 0x40 % 64 = 0 ∧
      sramIn 0x40 64 = true ∧ b.rsvd = 0 ∧ b.n = 1 ∧ sramIn b.src (8 * b.n) = true ∧ (∀ e ∈ tab, sramIn e.1 (e.2 * recordSize 1 false) = true) ∧
      out.length = 1 ∧ b.dst + 8 = 2 ^ 22 ∧ sramIn b.dst (out.length * recordSize 1 false) = true ∧ (∀ m ∈ ss, ∀ e ∈ m, e.2 = false) ∧
      Memory.wf v.sram = true := by
  unfold issues; decide +kernel
/-- A sort of the one record at 0x90, and its top 4,096. -/
def tSort : Pavilion := { sram := memWrites (memWrites [] 0x40 (tWords [0x90, 1, 0, 4096])) 0x90 (tWords [5, 0x3F800000]) }
theorem witness_msort_mtopk :
    let o := tMergeOps 0 0
    let v := tPav tSort 2 (.mtopk o)
    let b := mergeBlk (sramRead v 0x40 64)
    issues (tHead 2 tSort (.msort o)) ⟨0, 2⟩ ⟨⟨{}, .msort o⟩, 0⟩ ∧ issues (tHead 2 tSort (.mtopk o)) ⟨0, 2⟩ ⟨⟨{}, .mtopk o⟩, 0⟩ ∧ v.badWords = [] ∧
      fmtKey 1 = true ∧ sramIn 0x40 64 = true ∧ b.rsvd = 0 ∧ b.n = 1 ∧ b.k ≤ 4096 ∧ sramIn b.src (b.n * recordSize 1 false) = true ∧
      sramIn b.src ((sortedRecords v o b).length * recordSize 1 (o.dup == 2)) = true ∧ Memory.wf v.sram = true := by
  unfold issues; decide +kernel
/-- The range test 0 to 5 on the one record of index 5. -/
theorem witness_mfilt :
    let o := tMergeOps 0 6
    let v0 : Pavilion := { tMerge with sram := memWrites tMerge.sram 0x40 (tWords [0x90]) }
    let v := tPav v0 2 (.mfilt o)
    let b := mergeBlk (sramRead v 0x40 64)
    let rs := (readRecords v 1 b.src b.n).filter (filterTest 1 6 false b)
    issues (tHead 2 v0 (.mfilt o)) ⟨0, 2⟩ ⟨⟨{}, .mfilt o⟩, 0⟩ ∧ v.badWords = [] ∧ fmtKey 1 = true ∧ o.dup = 0 ∧ o.fop ≠ 7 ∧ b.rsvd = 0 ∧
      sramIn b.src (b.n * recordSize 1 false) = true ∧ rs.length = 1 ∧ sramIn b.dst (rs.length * recordSize 1 false) = true := by
  unfold issues; decide +kernel

/-- BF16 matrices 1 × 1 × 1 with an FP32 output at the end of data SRAM, and the same with no rows. -/
def tLmm : LmmOps := ⟨0x40, 2, 2, 0, false, false, 0⟩
def tLat (m : Nat) : Pavilion :=
  { sram := memWrites [] 0x40 (tWords [0x100, 0x200, 0x3FFFFC, 0, 0, 0, 0, 0x300, m + 0x10000, 1, 2, 2, 4, 0, 0, 0]) }
theorem witness_lmm : ∀ m, m ≤ 1 →
    let v := tPav (tLat m) 3 (.lmm tLmm)
    let b := latBlk (sramRead v 0x40 64)
    issues (tHead 3 (tLat m) (.lmm tLmm)) ⟨0, 3⟩ ⟨⟨{}, .lmm tLmm⟩, 0⟩ ∧ v.badWords = [] ∧ pairOk 2 2 = true ∧ sramIn 0x40 64 = true ∧ b.m = m ∧
      b.n = 1 ∧ spOk 0 2 b.k = true ∧ b.suma % 64 = 0 ∧ sramIn b.suma 64 = true ∧
      (∀ i, i < b.m → sramIn (b.aaddr + i * b.astr) (fmtSize 2 b.k) = true ∧ sramIn (b.daddr + i * b.dstr) (4 * b.n) = true) ∧
      (∀ r, r < keptRows 0 b.k → sramIn (b.baddr + r * b.bstr) (fmtSize 2 b.n) = true) ∧ sramIn b.pcaddr 0 = true ∧ Memory.wf v.sram = true ∧
      4 * b.n ≤ b.dstr ∧ (∀ i, i < b.m → b.suma + 64 ≤ b.daddr + i * b.dstr) := by
  unfold issues; decide +kernel

/-- One row of 32 bytes copied to the end of data SRAM, no rows, and a row from HBM. -/
def tMove (src rows : Nat) : Pavilion := { sram := memWrites [] 0x40 (natLe 8 src ++ natLe 8 0x3FFFE0 ++ tWords [32, rows, 32, 32]) }
theorem witness_mcopy_own :
    let v := tPav (tMove 0x100 1) 4 (.mcopy 0x40)
    let b := moveBlk (sramRead v 0x40 32)
    issues (tHead 4 (tMove 0x100 1) (.mcopy 0x40)) ⟨0, 4⟩ ⟨⟨{}, .mcopy 0x40⟩, 0⟩ ∧ v.badWords = [] ∧ sramIn 0x40 32 = true ∧ b.rsvd = 0 ∧ b.len ≤ 2 ^ 22 ∧
      addrWord b.src = .own 0x100 ∧ addrWord b.dst = .own 0x3FFFE0 ∧ 0 < b.len ∧ b.rows = 1 ∧ engPlot (tHead 4 (tMove 0x100 1) (.mcopy 0x40)) ⟨0, 4⟩ = some 0 ∧
      (∀ r, r < b.rows → sramIn (0x100 + r * b.sstr) b.len = true ∧ sramIn (0x3FFFE0 + r * b.dstr) b.len = true) ∧ Memory.wf v.sram = true ∧
      (∀ r, r < b.rows → ∀ t, t < b.rows → 0x100 + r * b.sstr + b.len ≤ 0x3FFFE0 + t * b.dstr) := by
  unfold issues; decide +kernel
/-- A region of 64 MiB for plot 0. -/
def tRegion (s : State) : State :=
  setPlot s 0 { plotAt s 0 with region := (1 : BitVec 8) ++ (0 : BitVec 9) ++ (1 : BitVec 9) ++ (0 : BitVec 38) }
theorem witness_mcopy_hbm :
    let s := tRegion (tHead 4 (tMove (2 ^ 60 + 0x3FFFFE0) 1) (.mcopy 0x40))
    let b := moveBlk (sramRead (pavAt s 0) 0x40 32)
    issues s ⟨0, 4⟩ ⟨⟨{}, .mcopy 0x40⟩, 0⟩ ∧ addrWord b.src = .hbm 0x3FFFFE0 ∧ addrWord b.dst = .own 0x3FFFE0 ∧ 0 < b.len ∧ 0 < b.rows ∧
      ∃ ss ds data s', moveSide s 0 ⟨0, 4⟩ false (addrWord b.src) b.len b.rows b.sstr = .ok ss ∧
        moveSide s 0 ⟨0, 4⟩ true (addrWord b.dst) b.len b.rows b.dstr = .ok ds ∧
        placeReads s (ss.map (fun p => (p, b.len))) = .ok data ∧ placeWrites s (ds.zip data) = (s', none) := by
  refine ⟨by unfold issues; decide +kernel, by decide +kernel, by decide +kernel, by decide +kernel, by decide +kernel, [.hbm 0 0x3FFFFE0], [.sram 0 0x3FFFE0],
    [List.replicate 32 0], _, by rfl, by rfl, by decide +kernel, rfl⟩
theorem witness_mcopy_empty :
    let b := moveBlk (sramRead (tPav (tMove 0x100 0) 4 (.mcopy 0x40)) 0x40 32)
    issues (tHead 4 (tMove 0x100 0) (.mcopy 0x40)) ⟨0, 4⟩ ⟨⟨{}, .mcopy 0x40⟩, 0⟩ ∧ b.rows = 0 ∧ addrWord b.src = .own 0x100 ∧ addrWord b.dst = .own 0x3FFFE0 := by
  unfold issues; decide +kernel
/-- Signals to the last counter of the plot's own pavilion, and to a trigger counter it declares on port die 0. -/
theorem witness_msig_pav :
    let o : MsigOps := ⟨0, 0, 0, 63, 15⟩
    issues (tHead 4 {} (.msig o)) ⟨0, 4⟩ ⟨⟨{}, .msig o⟩, 0⟩ ∧ engPlot (tHead 4 {} (.msig o)) ⟨0, 4⟩ = some 0 ∧ o.inc ≠ 0 ∧ o.ctr.toNat ≤ 63 ∧
      pavOfRel (tHead 4 {} (.msig o)) 0 0 = some 0 := by
  unfold issues; decide +kernel
theorem witness_msig_die :
    let o : MsigOps := ⟨1, 0, 0, 1023, 1⟩
    let s := setDie (tHead 4 {} (.msig o)) 0 { dieAt (tHead 4 {} (.msig o)) 0 with trigs := [⟨0, 1023, {}⟩] }
    issues s ⟨0, 4⟩ ⟨⟨{}, .msig o⟩, 0⟩ ∧ engPlot s ⟨0, 4⟩ = some 0 ∧ (trigAt? s 0 0 1023).isSome = true ∧ 0 ∈ plotsOfDie s 0 := by
  unfold issues; decide +kernel
/-- The four failed checks of the statement on engine faults. -/
theorem witness_engine_faults :
    issues (tHead 0 {} (.salu ⟨0xB, false, 0, 0, 0, 0⟩)) ⟨0, 0⟩ ⟨⟨{}, .salu ⟨0xB, false, 0, 0, 0, 0⟩⟩, 0⟩ ∧ 0xA < (0xB : BitVec 4).toNat ∧
    issues (tHead 1 {} (.aclr ⟨1, 1024⟩)) ⟨0, 1⟩ ⟨⟨{}, .aclr ⟨1, 1024⟩⟩, 0⟩ ∧ 1024 < (1 : BitVec 10).toNat + (1024 : BitVec 11).toNat ∧
    issues (tHead 0 {} (.tsum (tTile 63 0))) ⟨0, 0⟩ ⟨⟨{}, .tsum (tTile 63 0)⟩, 0⟩ ∧
    advance false (scalar (tPav {} 0 (.tsum (tTile 63 0))) 0 + 63) 64 0 % 64 ≠ 0 ∧
    issues (tHead 5 {} (.msig ⟨0, 1, 0, 0, 1⟩)) ⟨0, 5⟩ ⟨⟨{}, .msig ⟨0, 1, 0, 0, 1⟩⟩, 0⟩ ∧
    engPlot (tHead 5 {} (.msig ⟨0, 1, 0, 0, 1⟩)) ⟨0, 5⟩ = some 0 ∧ pavOfRel (tHead 5 {} (.msig ⟨0, 1, 0, 0, 1⟩)) 0 1 = none := by
  unfold issues; decide +kernel
theorem witness_parity : (engAt (tHead 0 {} .nop) ⟨0, 0⟩).queue.head? = some ⟨⟨{}, .nop⟩, 0⟩ ∧
    headReady (tHead 0 {} .nop) ⟨0, 0⟩ ⟨⟨{}, .nop⟩, 0⟩ = true ∧ engPlot (tHead 0 {} .nop) ⟨0, 0⟩ = some 0 := by decide +kernel

/-- An engine of a running plot about to fetch one word. -/
def tFetch (eng : Nat) (w : BitVec 128) (ls : List LoopFrame) : State :=
  tState { engines := [(eng, { program := true, mode := .running, bank0 := [w], loops := ls })] }
theorem witness_fetch : ∀ c ∈ [(⟨{}, .nop⟩ : EngCmd), ⟨{}, .halt⟩, ⟨{}, .loop ⟨false, 0, 3⟩⟩, ⟨{}, .endloop⟩],
    let e := engAt (tFetch 5 (encodeCmd 5 c) [⟨0, 2, 0⟩]) ⟨0, 5⟩
    engAlive e = true ∧ e.queue = [] ∧ e.inflight = [] ∧ (activeBank e)[e.fetchPc]? = some (encodeCmd 5 c) ∧ decodeCmd 5 (encodeCmd 5 c) = some c ∧
      e.loops.length < 4 ∧ e.loops = [⟨0, 2, 0⟩] := by decide +kernel
theorem witness_fetch_scalar_loop :
    let e : Engine := { program := true, mode := .running, bank0 := [encodeCmd 0 ⟨{}, .loop ⟨true, 31, 0⟩⟩] }
    let s := tState { engines := [(0, e)], scalars := [(31, 1)] }
    engAlive (engAt s ⟨0, 0⟩) = true ∧ decodeCmd 0 (encodeCmd 0 ⟨{}, .loop ⟨true, 31, 0⟩⟩) = some ⟨{}, .loop ⟨true, 31, 0⟩⟩ ∧
      (tblGet 0 (pavAt s 0).scalars 31).toNat = 1 := by decide +kernel
theorem witness_fetch_malformed : engAlive (engAt (tFetch 0 (2 ^ 127) []) ⟨0, 0⟩) = true ∧ decodeCmd 0 (2 ^ 127) = none ∧
    (engAt (tFetch 0 (2 ^ 127) []) ⟨0, 0⟩).queue = [] := by decide +kernel

/-- An engine with one head, a mode and a break enable. -/
def tMode (m : EngMode) (b : BitVec 8) : State :=
  tState { engines := [(0, { program := true, mode := m, breakEn := b, queue := [⟨⟨{ w := true, wthr := 1 }, .nop⟩, 0⟩] })] }
theorem witness_clock_gate : (engAt (tMode .waiting 0) ⟨0, 0⟩).queue.head? = some ⟨⟨{ w := true, wthr := 1 }, .nop⟩, 0⟩ ∧
    (engAt (tMode .waiting 0) ⟨0, 0⟩).mode = .waiting ∧ headWait (tMode .waiting 0) ⟨0, 0⟩ { w := true, wthr := 1 } = false ∧
    (engAt (tMode .running 0) ⟨0, 0⟩).mode ≠ .waiting := by decide +kernel
theorem witness_break : engAlive (engAt (tMode .waiting 1) ⟨0, 0⟩) = true ∧
    breakMet (engAt (tMode .waiting 1) ⟨0, 0⟩) ⟨⟨{ w := true, wthr := 1 }, .nop⟩, 0⟩ = true ∧
    (engAt (tMode .waiting 1) ⟨0, 0⟩).passBreak = false ∧ (engAt (tMode .waiting 1) ⟨0, 0⟩).stepsLeft = none ∧
    breakMet (engAt (tMode .waiting 0) ⟨0, 0⟩) ⟨⟨{ w := true, wthr := 1 }, .nop⟩, 0⟩ = false := by decide +kernel
/-- One command in flight, and counter 63 at a value. -/
def tFlight (f : Flight) (c : Counter) : State :=
  tState { engines := [(0, { program := true, mode := .running, inflight := [f] })], ctrs := [(63, c)] }
theorem witness_complete :
    flightReady (tFlight ⟨⟨{}, .nop⟩, .notSent, 0⟩ {}) ⟨0, 0⟩ ⟨⟨{}, .nop⟩, .notSent, 0⟩ = true ∧
    flightReady (tFlight ⟨⟨{}, .halt⟩, .notSent, 0⟩ {}) ⟨0, 0⟩ ⟨⟨{}, .halt⟩, .notSent, 0⟩ = true ∧
    flightReady (tFlight ⟨⟨{ s := true, sctr := 63, sinc := 15 }, .nop⟩, .notSent, 0⟩ { poison := false, value := 0xFFF0 }) ⟨0, 0⟩
      ⟨⟨{ s := true, sctr := 63, sinc := 15 }, .nop⟩, .notSent, 0⟩ = true ∧
    (0xFFF0 : BitVec 16).toNat + (15 : BitVec 4).toNat ≤ 0xFFFF ∧
    flightReady (tFlight ⟨⟨{}, .msig ⟨0, 0, 0, 0, 1⟩⟩, .dropped, 0⟩ {}) ⟨0, 0⟩ ⟨⟨{}, .msig ⟨0, 0, 0, 0, 1⟩⟩, .dropped, 0⟩ = true := by decide +kernel
theorem witness_counter_add : (0xFFFF : Int) < ({ value := 0xFFFF } : Counter).value.toNat + 1 ∧ (({ value := 0 } : Counter).value.toNat : Int) + -1 < 0 ∧
    (({ value := 0xFFFE } : Counter).value.toNat : Int) + 1 ≤ 0xFFFF := by decide
/-- One signal on its way to a counter, and one to a declared trigger counter. -/
theorem witness_signals :
    (takeSigs (.pav 255 63) [⟨.dovecote 15, .pav 255 63, 1, 0⟩] [(.dovecote 15, 1)]).2 ≠ [] ∧ (takeSigs (.pav 0 0) [] [(.dovecote 15, 1)]).2 = [] ∧
    trigAt? (setDie State.reset 15 { dieAt State.reset 15 with trigs := [⟨31, 1023, {}⟩] }) 15 31 1023 = some ⟨31, 1023, {}⟩ := by decide +kernel

/-! ### Kiosk sessions of a ready module -/

/-- A ready module with one session in slot 0. -/
def tReady (w : State) (x : Session) : State :=
  { w with power := { w.power with pg := true, step := 11 }, kiosk := { w.kiosk with sessions := [(0, x)] } }
/-- A session of a role, and a request on it. -/
def tRole (r : Role) (n : Nat) : Session := { isOpen := true, role := r, plot := n }
def tAsk (len : Nat) : KReq := { slot := 0, seq := 1, len := len }
/-- Pavilion 0 with counter 0 at a value, selected by a session. -/
def tCtr (r : Role) (n : Nat) (c : Counter) : State := tReady (tState { ctrs := [(0, c)] }) (tRole r n)

theorem witness_counter_adjust : ∀ c ∈ [({ poison := false, value := 0xFFFF } : Counter), { poison := false, value := 0 }, { poison := true }],
    admits (tCtr .fm 0 c) (tAsk 4) 0x5000 0x12 true ∧ ownsPav (tCtr .fm 0 c) (tRole .fm 0) 0 = true ∧ ctrAt (tCtr .fm 0 c) 0 0 = c ∧
      plotOfPav (tCtr .fm 0 c) 0 = some 0 := by unfold admits; decide +kernel
theorem witness_counter_adjust_values : (65535 : BitVec 32).toInt.natAbs ≤ 65535 ∧ (-65535 : BitVec 32).toInt.natAbs ≤ 65535 ∧
    65535 < (65536 : BitVec 32).toInt.natAbs := by decide +kernel
theorem witness_counter_foreign : admits (tCtr .po 1 {}) (tAsk 4) 0x5000 0x12 true ∧ ownsPav (tCtr .po 1 {}) (tRole .po 1) 0 = false := by
  unfold admits; decide +kernel
theorem witness_counter_free : admits (tReady { State.reset with pavs := [(0, { ctrs := [(0, { poison := false })] })] } (tRole .fm 0)) (tAsk 4) 0x5000 0x12 true ∧
    plotOfPav (tReady State.reset (tRole .fm 0)) 0 = none := by unfold admits; decide +kernel
theorem witness_flag_clear : admits (tCtr .fm 0 {}) (tAsk 1) 0x5000 0x13 true ∧ admits (tCtr .po 1 {}) (tAsk 1) 0x5000 0x13 true ∧
    (3 : BitVec 8).toNat ≤ 3 ∧ 3 < (4 : BitVec 8).toNat := by unfold admits; decide +kernel
theorem witness_resume : ∀ m ∈ [EngMode.frozen, .running],
    let s := tReady (tMode m 0) (tRole .fm 0)
    admits s (tAsk 2) 0x5000 0x05 true ∧ ownsPav s (tRole .fm 0) 0 = true ∧ (engAt s ⟨0, 0⟩).mode = m := by unfold admits; decide +kernel

/-- A plot with a number of qualifying frames, a state and the tick of its reset. -/
def tPlot (p : Plot) : State := { State.reset with plots := [(31, p)], sd := { State.reset.sd with ticks := 5 } }
theorem witness_wait_cycle : 256 ≤ (plotAt (tPlot { state := 2, quiet := 256 }) 31).quiet ∧ plotRuns (tPlot { state := 2, quiet := 256 }) 31 = true ∧
    (plotAt (tPlot { state := 2, quiet := 255 }) 31).quiet < 256 := by decide +kernel
theorem witness_plot_reset : (plotAt (tPlot { state := 4, resetTick := 4 }) 31).state = 4 ∧
    (plotAt (tPlot { state := 4, resetTick := 4 }) 31).resetTick.toNat < (tPlot { state := 4, resetTick := 4 }).sd.ticks.toNat ∧
    (plotAt (tPlot {}) 31).state ≠ 4 := by decide +kernel
theorem witness_quarter : ({ State.reset with powering := 0x80000000 } : State).powering.getLsbD (4 * 7 + 3) = true ∧
    State.reset.powering.getLsbD (4 * 7 + 3) = false := by decide +kernel

theorem witness_pools :
    let s := tPool [(0, ⟨255, 1⟩), (1, ⟨0, 1⟩)]
    let p := ((poolAt? s 0x11).getD { plot := 0, rel := 0, loc := 0, unit := 0, size := 0, count := 0, base := 0 })
    poolAt? s 0x11 = some p ∧ hPool 0x11000001 = 0x11 ∧ hPool 0x11000101 = 0x11 ∧ p.plot = tReq.plot ∧ tReq.upset = false ∧ (bufAt p 1).ref = 0 ∧
      (∀ j, j < 1 → (bufAt p j).ref ≠ 0) ∧ handleValid p 0x11000001 = true ∧ (bufAt p 0).ref = 255 ∧ handleValid p 0x11000002 = false ∧
      p.plot ≠ ({ plot := 2, coreDie := false, die := 0 } : PoolReq).plot ∧ ({ tReq with upset := true } : PoolReq).upset = true := by decide +kernel
theorem witness_pool_full : ∀ i, i < 2 → (bufAt ((poolAt? (tPool [(0, ⟨1, 1⟩), (1, ⟨1, 1⟩)]) 0x11).getD default) i).ref ≠ 0 := by decide +kernel
theorem witness_pool_kiosk : admits (tReady (tPool [(0, ⟨1, 1⟩)]) (tRole .fm 0)) (tAsk 8) 0x6900 0x0C true ∧
    admits (tReady (tPool [(0, ⟨1, 1⟩)]) (tRole .po 2)) (tAsk 8) 0x6900 0x0C true ∧ (tRole .po 2).role = .po ∧ (tRole .po 2).plot ≠ 3 := by
  unfold admits; decide +kernel

/-- A program image of one stream, a HALT, on plot-relative pavilion 0, with a budget of one cycle in its one frame (R156, R411). -/
def tImage : List Byte :=
  let sec (off len typ : Nat) : List Byte := natLe 16 (off * 2 ^ 96 + len * 2 ^ 64 + typ * 2 ^ 56)
  let rest := sec 96 16 1 ++ sec 112 32 5 ++ natLe 16 (4 * 2 ^ 120) ++ natLe 16 (2 ^ 112) ++ natLe 16 (2 ^ 120 + 1)
  let head (crc : Nat) : List Byte := natLe 64 (0x4C583634 * 2 ^ 480 + 2 ^ 464 + 2 ^ 456 + 2 ^ 432 + 2 * 2 ^ 400 + 2 ^ 352 + 2 ^ 320 + 144 * 2 ^ 288 + crc * 2 ^ 256)
  head (crc32 (head 0 ++ rest)) ++ rest
/-- What the loader holds once the image is verified. -/
def tImg : Image := imageOf tImage (imgSecs tImage)
/-- A plot in a load state, with or without a shadow image. -/
def tLoad (st : Nat) (sh : Option Image) (dirty : Bool) : State :=
  tReady { State.reset with plots := [(0, { state := 1, pavMask := 1, pavSeen := 1, loadState := st, shadow := sh, shadowDirty := dirty, loading := tImage, actTicks := 1024 })] }
    (tRole .fm 0)
theorem witness_load_commands : ∀ st, st ≤ 4 → admits (tLoad st (some tImg) false) (tAsk 1) 0x4000 0x0A true := by unfold admits; decide +kernel
/-- The image passes every check, as it is and as an altered shadow. -/
theorem witness_verified : (match verifyImage (tLoad 1 none false) 0 tImage with | .ok i => i.streams | .error _ => []) =
    [(0, 0, [0x04000000000000000000000000000000])] ∧ verifyShadow (tLoad 2 (some tImg) true) 0 tImg = none := by decide +kernel
theorem witness_refused_image : (match verifyImage (tLoad 1 none false) 0 [] with | .ok _ => 0 | .error r => r.check) = 1 := by decide +kernel
/-- An altered stream whose HALT has a reserved bit set fails check 5. -/
theorem witness_refused_shadow : (verifyShadow (tLoad 2 (some tImg) true) 0 (putStream tImg 0 0 [0x04000000000000000000000000000001])).map
    (fun r => (r.check, r.status)) = some (5, stVerifyFail) := by decide +kernel
theorem witness_activation : (plotAt (tLoad 3 (some tImg) false) 0).shadow = some tImg ∧ mayActivate (tLoad 3 (some tImg) false) 0 = true ∧
    (tLoad 3 (some tImg) false).gate.entropyFailed = false := by decide +kernel
/-- An activation that waits 1,024 ticks for a running engine. -/
theorem witness_load_blocked :
    let s := setEng (tLoad 3 (some tImg) false) ⟨0, 0⟩ { program := true, mode := .running, bank0 := [0] }
    (plotAt s 0).shadow = some tImg ∧ (plotAt s 0).loadState = 3 ∧ 1024 ≤ (plotAt s 0).actTicks ∧ mayActivate s 0 = false := by decide +kernel

/-- One command of the shadow bank in one whole segment. -/
def tBank (bank : Byte) : List Byte := [bank, 0, 0xFF, 0x0F] ++ natLe 16 (4 * 2 ^ 120)
theorem witness_bank_write : ∀ st ∈ [2, 3],
    let s := tLoad st (some tImg) false
    admits s (tAsk 20) 0x5000 0x0B false ∧ wholeValue s (tAsk 20) 0x5000 0x0B 65540 ⟨0, true, tBank 1⟩ (tBank 1) ∧ ownsPav s (tRole .fm 0) 0 = true ∧
      (engAt s ⟨0, 0⟩).active = false ∧ (tBank 1).length % 16 = 4 ∧ numAt (tBank 1) 2 2 + (cmdsOfBytes ((tBank 1).drop 4)).length ≤ 4096 ∧
      plotOfPav s 0 = some 0 ∧ (plotAt s 0).shadow = some tImg := by
  intro st h
  have hs : wholeValue (tLoad st (some tImg) false) (tAsk 20) 0x5000 0x0B 65540 ⟨0, true, tBank 1⟩ (tBank 1) := ⟨rfl, by decide +kernel, [], rfl, rfl, rfl⟩
  simp only [List.mem_cons, List.not_mem_nil, or_false] at h
  obtain rfl | rfl := h
  · exact ⟨by unfold admits; decide +kernel, hs, by decide +kernel, by decide +kernel, by decide +kernel, by decide +kernel, by decide +kernel, by decide +kernel⟩
  · exact ⟨by unfold admits; decide +kernel, hs, by decide +kernel, by decide +kernel, by decide +kernel, by decide +kernel, by decide +kernel, by decide +kernel⟩
theorem witness_bank_write_free : admits (tReady State.reset (tRole .fm 0)) (tAsk 20) 0x5000 0x0B false ∧ plotOfPav (tReady State.reset (tRole .fm 0)) 0 = none ∧
    admits (tReady State.reset (tRole .po 1)) (tAsk 20) 0x5000 0x0B false ∧ ownsPav (tReady State.reset (tRole .po 1)) (tRole .po 1) 0 = false := by
  unfold admits; decide +kernel

/-- Self-tests of pavilion 0 and port die 0: free, under test, owned by a plot; and a pavilion fused off. -/
theorem witness_self_test :
    (let s := tReady State.reset (tRole .fm 0)
     admits s (tAsk 1) 0x5000 0x0C true ∧ s.enableMap.getLsbD 0 = true ∧ (pavAt s 0).testing = false ∧ maskOwner s 0 = none ∧
       (dieAt s 0).testing = false ∧ plotsOfDie s 0 = []) ∧
    (let s := tReady (tState {}) (tRole .fm 0)
     admits s (tAsk 1) 0x5000 0x0C true ∧ maskOwner s 0 = some 0 ∧ (pavAt s 0).testing = false ∧ (dieAt s 0).testing = false ∧ plotsOfDie s 0 ≠ []) ∧
    (let s := tReady (setDie (tState { testing := true }) 0 { dieAt State.reset 0 with testing := true }) (tRole .fm 0)
     admits s (tAsk 1) 0x5000 0x0C true ∧ (pavAt s 0).testing = true ∧ (dieAt s 0).testing = true) ∧
    (let s := tReady { State.reset with enableMap := 0 } (tRole .fm 0)
     admits s (tAsk 1) 0x5000 0x0C true ∧ s.enableMap.getLsbD 0 = false) := by
  unfold admits; decide +kernel

/-! ### Packets -/

/-- A packet of each opcode of `packetRows`, for endpoint 0x20, of plot 0 at epoch 7. -/
def tPkt (opc : BitVec 8) (vc : BitVec 3) (cls : BitVec 2) (len : BitVec 5) (bytes : Nat) : Pkt :=
  { vc := vc, cls := cls, plot := 0, epoch := 7, dest := 0x20, opc := opc, len := len, op := BitVec.ofNat 256 (bytes * 2 ^ 220) }
def tPkts : List Pkt :=
  [tPkt 1 2 0 0 0, tPkt 2 1 0 0 0, tPkt 3 1 0 0 0, tPkt 5 4 1 0 0, tPkt 6 1 1 0 0, tPkt 7 4 1 1 240, tPkt 8 5 1 0 0, tPkt 10 6 3 0 0, tPkt 11 6 3 0 0,
   tPkt 12 7 2 0 0]
/-- Links 0 and 1 ACTIVE on port 0, a route to 0x20 over link 1, this module being 0x10. -/
def tNet (x : Link) (mask : BitVec 64) (dest : BitVec 24) : State :=
  { State.reset with
    plots := [(0, { state := 2, portMask := mask, epoch := 7, windowEff := 64 })]
    net := { State.reset.net with links := [(0, { x with state := 6 }), (1, { state := 6 })] }
    route := { State.reset.route with self := 0x10, tableEff := [{ lo := dest, hi := dest, links := 2, spray := false }] } }

/-- The flits of a packet in the clear. -/
def tFlits (p : Pkt) : List (List Byte) := headerFlit p 0 :: (List.range p.len.toNat).map (payloadFlit {} p)
/-- The same state with every flit of a packet confirmed on link 0 (R289, R293). -/
def tAt (s : State) (p : Pkt) : State := modLink s 0 (fun x => { x with rx := [(p.vc.toNat, tFlits p)] })
theorem witness_packets_pass : ∀ p ∈ tPkts,
    let s := tAt (tNet {} 1 0x20) p
    passes s 0 p ∧ routeOf s (some 0) p = .out 1 ∧ takes s 1 p := by
  unfold passes takes; decide +kernel
theorem witness_packets_cover : packetRows.map (·.1) = tPkts.map (·.opc) := by decide
/-- The checks of R290 at their limits: a poisoned packet, a bad header, a failed tag, an old and a new epoch, a port of another plot. -/
theorem witness_packet_checks : ∀ p ∈ tPkts,
    active State.reset 0 = false ∧ active (tNet {} 1 0x20) 0 = true ∧ headerOk { p with dest := 0xFFFFFF } = false ∧
    (p.vc ≠ 0 ∧ p.vc ≠ 6 → headerOk p = true ∧ encrypted { encMask := 1 } p = true ∧ authentic { encMask := 1 } { p with tagOk := false } = false ∧
      headerOk { p with epoch := 6 } = true ∧ ({ p with epoch := 6 } : Pkt).epoch.toNat < (plotAt (tNet {} 1 0x20) 0).epoch.toNat ∧
      (plotAt (tNet {} 1 0x20) 0).epoch.toNat < ({ p with epoch := 8 } : Pkt).epoch.toNat) ∧
    (plotAt (tNet {} 2 0x20) 0).portMask.getLsbD (linkPort 0) = false := by decide +kernel
/-- Routes that end here, go nowhere, or lead to a link that is down. -/
theorem witness_routes :
    (let p := { tPkt 12 7 2 0 0 with dest := 0xFFFFFE }
     let s := tAt (tNet {} 1 0x20) p
     routeOf s (some 0) p = .consume ∧ passes s 0 p) ∧
    (let p := { tPkt 12 7 2 0 0 with dest := 0x10 }
     let s := tAt (tNet {} 1 0x20) p
     routeOf s (some 0) p = .deliver ∧ passes s 0 p) ∧
    (let p := { tPkt 12 7 2 0 0 with dest := 0x21 }
     let s := tAt (tNet {} 1 0x20) p
     routeOf s (some 0) p = .noRoute ∧ passes s 0 p) ∧
    (let s := tAt (setLink (tNet {} 1 0x20) 1 {}) (tPkt 12 7 2 0 0)
     passes s 0 (tPkt 12 7 2 0 0) ∧ routeOf s (some 0) (tPkt 12 7 2 0 0) = .out 1 ∧ active s 1 = false) := by unfold passes; decide +kernel

/-- A link to an endpoint, with a pair table. -/
def tEnd (ps : List Pair) (w : List Pkt) : State := tNet { partner := 0x01000000, pairs := ps, pairWait := w } 1 0x20
theorem witness_p2p :
    (let s := tAt (tNet {} 1 0x20) (tPkt 5 4 1 0 0)
     passes s 0 (tPkt 5 4 1 0 0) ∧ partnerIsEndpoint (linkAt s 0) = false) ∧
    (let p := { tPkt 5 4 1 0 0 with dest := 0x10 }
     let s := tAt (tNet {} 1 0x20) p
     endsHere s 0 p = true ∧ passes s 0 p) ∧
    (let s := tAt (tEnd [] []) (tPkt 5 4 1 0 0)
     passes s 0 (tPkt 5 4 1 0 0) ∧ partnerIsEndpoint (linkAt s 0) = true ∧ 0 < (plotAt s 0).windowEff.toNat ∧
       routeOf s (some 0) (tPkt 5 4 1 0 0) = .out 1 ∧ takes s 1 (tPkt 5 4 1 0 0)) ∧
    (let s := tAt (tEnd [⟨0, 0x20, 64⟩] []) (tPkt 5 4 1 0 0)
     passes s 0 (tPkt 5 4 1 0 0) ∧ (linkAt s 0).pairs.find? (fun q => q.plot == 0 && q.dest == 0x20) = some ⟨0, 0x20, 64⟩ ∧
       (plotAt s 0).windowEff.toNat ≤ 64) := by unfold passes takes; decide +kernel
/-- A pair table with all its 1,024 entries taken by another plot. -/
def tFullPairs : List Pair := List.replicate 1024 ⟨1, 0x20, 1⟩
theorem witness_p2p_waits :
    let s := tAt (tEnd tFullPairs []) (tPkt 5 4 1 0 0)
    passes s 0 (tPkt 5 4 1 0 0) ∧ partnerIsEndpoint (linkAt s 0) = true ∧ (∀ e ∈ (linkAt s 0).pairs, e.plot ≠ 0 ∨ e.dest ≠ 0x20) ∧
      pairRoom s 0 ≤ (linkAt s 0).pairs.length ∧ pairRoom s 0 = 1024 := by
  unfold passes; decide +kernel
theorem witness_pair_admit : (linkAt (tEnd [] [tPkt 5 4 1 0 0]) 0).pairWait = [tPkt 5 4 1 0 0] ∧
    police (setLink (tEnd [] [tPkt 5 4 1 0 0]) 0 { linkAt (tEnd [] [tPkt 5 4 1 0 0]) 0 with pairWait := [] }) 0 (tPkt 5 4 1 0 0) = .pass ∧
    (linkAt (tEnd [] []) 0).pairWait = [] := by decide +kernel

/-! ### Collectives -/

/-- A launch block for this module: an all-reduce of FP32, with a length in bytes, from endpoint 0x30 (Table 8.9). -/
def tLaunch (bytes : Nat) : Pkt :=
  { tPkt 7 4 1 1 32 with
    dest := 0x10, op := BitVec.ofNat 256 (0x30 * 2 ^ 232 + 32 * 2 ^ 220), body := natLe 32 (1 * 2 ^ 240 + 5 * 2 ^ 208 + bytes * 2 ^ 128) }
/-- The module with B2 launch mode as given, and one group of which 0x30 is a member. -/
def tB2 (en : BitVec 32) (groups : List Byte) : State :=
  { tNet {} 1 0x20 with coll := { State.reset.coll with b2Enable := en, b2Groups := groups, b2ReserveEff := 1 } }
theorem witness_b2_refusals :
    (let s := tAt (tB2 0 []) (tLaunch 4095)
     passes s 0 (tLaunch 4095) ∧ endsHere s 0 (tLaunch 4095) = true ∧ s.coll.b2Enable.getLsbD 0 = false ∧ partnerIsEndpoint (linkAt s 0) = false) ∧
    (∀ bytes ∈ [4095, 4096],
      let s := tAt (tB2 1 []) (tLaunch bytes)
      s.coll.b2Enable.getLsbD 0 = true ∧ passes s 0 (tLaunch bytes) ∧ ((launchOf (tLaunch bytes)).bytes < 4096 ↔ bytes = 4095) ∧
        (b2Groups s.coll.b2Groups)[(launchOf (tLaunch bytes)).grp]? = none) ∧
    (let s := tAt (tB2 1 []) (tPkt 7 4 1 1 240)
     passes s 0 (tPkt 7 4 1 1 240) ∧ routeOf s (some 0) (tPkt 7 4 1 1 240) = .out 1) := by unfold passes; decide +kernel
theorem witness_small_launch :
    let s := tAt (tB2 1 []) (tLaunch 4095)
    passes s 0 (tLaunch 4095) ∧ (tLaunch 4095).opc = opB2Launch ∧ endsHere s 0 (tLaunch 4095) = true ∧
      police s 0 (tLaunch 4095) = .pass ∧ s.coll.b2Enable.getLsbD 0 = true ∧ (launchOf (tLaunch 4095)).bytes < 4096 := by
  unfold passes; decide +kernel

/-- A launch that builds descriptors: group 0 of the home 0x40 and its member 0x30 over port 0. -/
def tGroups : List Byte := natLe 4 1 ++ natLe 4 0x40 ++ natLe 8 (0x30 * 2 ^ 40)
theorem witness_b2_launch :
    let s := tAt (setPlot (tB2 1 tGroups) 0 { plotAt (tB2 1 tGroups) 0 with state := 1 }) (tLaunch 4096)
    let g := launchOf (tLaunch 4096)
    passes s 0 (tLaunch 4096) ∧ endsHere s 0 (tLaunch 4096) = true ∧ (b2Groups s.coll.b2Groups)[g.grp]? = some (0x40, [0x30 * 2 ^ 40]) ∧ launchOk g = true ∧
      (∃ e ∈ [0x30 * 2 ^ 40], BitVec.ofNat 24 (fieldN e 40 24) = p2pSrc (tLaunch 4096)) ∧ groupFits (portsOfPlot s 0).length g [0x30 * 2 ^ 40] = true ∧
      tagTaken s 0 g = false ∧ b2Descs s 0 g.tag g.grp = [] ∧ slotFree s 0 = true ∧
      (buildDesc (oweAck s 0 (tLaunch 4096)) 0 0 g 0x40 [0x30 * 2 ^ 40] []).isSome = true ∧ plotRuns s 0 = false := by unfold passes; decide +kernel
theorem witness_b2_no_slot :
    let s := { tB2 1 tGroups with coll := { (tB2 1 tGroups).coll with b2ReserveEff := 0 } }
    slotFree s 0 = false ∧ groupFits (portsOfPlot s 0).length (launchOf (tLaunch 4096)) [1 * 2 ^ 32] = false := by decide +kernel
theorem witness_b2_mismatch :
    let p := { tPkt 8 5 1 0 0 with dest := 0xFFFFFE, ext := stB2Mismatch }
    let s := tAt (tB2 1 []) p
    passes s 0 p ∧ routeOf s (some 0) p = .consume := by unfold passes; decide +kernel

/-- A descriptor of an all-gather of one element of FP32 from one member, trigger counter 0 with TTHR 1, no reservation. -/
def tDesc : Desc :=
  { plot := 0, rel := 0, img := BitVec.ofNat 512
      (3 * 2 ^ 504 + 2 ^ 496 + 2 ^ 492 + 2 ^ 488 + 2 * 2 ^ 484 + 2 ^ 450 + 5 * 2 ^ 399 + 2 ^ 381 + 2 ^ 333 + 0xFFFF * 2 ^ 317 + 0x400 * 2 ^ 237 + 0x800 * 2 ^ 161) }
/-- Its member table names endpoint 0x30 over port 0, its extension block SEGEL and CHUNK of 1. -/
def tMem : List Host.Cell := memWrites (memWrites [] 0x400 (natLe 8 (0x30 * 2 ^ 40))) 0x800 (natLe 64 (2 ^ 496 + 2 ^ 480))
/-- The module with one descriptor on port die 0. -/
def tColl (d : Desc) (held : List HeldSeg) : State :=
  let s := tRegion (tNet {} 1 0x20)
  setDie { s with hbm := { s.hbm with mem := tMem } } 0 { dieAt s 0 with descs := [(7, d)], trigs := [⟨0, 0, { poison := false, value := 1 }⟩], held := held }
/-- A segment of TAG 5 with one element from rank 0, in a run. -/
def tSeg (run : Nat) : Pkt := { tPkt 1 2 0 1 0 with dest := 0x10, tag := 5, op := segOp 0 0 1 run 0 0 0, body := [0, 0, 0x80, 0x3F] }
theorem witness_seg_dropped :
    let s := tAt (tColl tDesc []) (tSeg 3)
    passes s 0 (tSeg 3) ∧ endsHere s 0 (tSeg 3) = true ∧ findDesc s 0 0 (tSeg 3).tag = some (7, tDesc) ∧ descAt? s 0 7 = some tDesc ∧
      sRun (tSeg 3) ≠ tDesc.run + 1 ∧ tDesc.triggered = false ∧
      (let q := { tSeg 3 with tag := 6 }
       let t := tAt (tColl tDesc []) q
       findDesc t 0 0 6 = none ∧ passes t 0 q) := by unfold passes; decide +kernel
theorem witness_seg_switched :
    let p := { tSeg 3 with dest := 0x20 }
    let s := tAt (tColl tDesc []) p
    passes s 0 p ∧ routeOf s (some 0) p = .out 1 := by unfold passes; decide +kernel
theorem witness_seg_early : sRun (tSeg 1) = tDesc.run + 1 ∧ segFault (tColl tDesc []) tDesc 0 {} (tSeg 1) = false ∧ stagedSeg (tColl tDesc []) tDesc (tSeg 1) = false ∧ dDop tDesc ≠ 1 ∧ dDop tDesc ≠ 2 ∧
    poolOf (tColl tDesc []) 0 (dPool tDesc) = none ∧ tDesc.plot = 0 := by decide +kernel
theorem witness_seg_current :
    let d : Desc := { tDesc with triggered := true, run := 1 }
    let s := tAt (tColl d []) (tSeg 1)
    passes s 0 (tSeg 1) ∧ findDesc s 0 0 5 = some (7, d) ∧ sRun (tSeg 1) = d.run ∧ dDop d = 3 ∧ sKind (tSeg 1) = 0 ∧ segFault s d 0 d.prog (tSeg 1) = false ∧
      seenSeg s d d.prog (tSeg 1) = false ∧ stagedSeg s d (tSeg 1) = false ∧ segReady s d (tSeg 1) = true ∧ offSchedule s d 0 (tSeg 1) = false := by unfold passes; decide +kernel
def tArr : Arrival := { tick := 0, cycle := 0 }
theorem witness_staging_retry : (∀ e ∈ (dieAt (tColl tDesc [⟨0, 7, tSeg 3, tArr⟩]) 0).descs, e.2.early = []) ∧
    (dieAt (tColl tDesc [⟨0, 7, tSeg 3, tArr⟩]) 0).held = [⟨0, 7, tSeg 3, tArr⟩] ∧ descAt? (tColl tDesc [⟨0, 7, tSeg 3, tArr⟩]) 0 7 = some tDesc ∧
    descAt? (tColl tDesc [⟨0, 8, tSeg 3, tArr⟩]) 0 8 = none ∧ (dieAt (tColl tDesc []) 0).held = [] := by decide +kernel
/-- A segment of the next run held at ingress, and a POOL whose buffer has come free. -/
def tStagePool : Pool := { plot := 0, rel := 0, loc := 0, unit := 0, size := 4096, count := 2, base := 0 }
theorem witness_held_takes_buffer :
    let h : HeldSeg := ⟨0, 7, tSeg 1, tArr⟩
    let s : State := { tColl tDesc [h] with pools := [(0, tStagePool)] }
    let s1 := setDie s 0 { dieAt s 0 with held := [] }
    (dieAt s 0).held = [h] ∧ h.pkt.prov = false ∧ descAt? s 0 h.idx = some tDesc ∧ sRun h.pkt = tDesc.run + 1 ∧
      segFault s1 tDesc h.link {} h.pkt = false ∧ stagedSeg s1 tDesc h.pkt = false ∧ (stageBuf s1 tDesc).2.isSome = true := by decide +kernel
/-- A provisional segment that was kept, and one that was relayed two frames ago. -/
def tProv : ProvSeg := { key := segKey (tSeg 1), run := 1, pkt := { tSeg 1 with prov := true }, link := 0, frame := 3, outLinks := [] }
theorem witness_provisional :
    let d : Desc := { tDesc with provIn := [tProv] }
    let p : Pkt := { tPkt 2 1 0 0 0 with dest := 0x10, tag := 5, op := segOp 0 0 1 1 0 0 0 }
    (∀ opc ∈ [2, 3],
      let q : Pkt := { p with opc := opc }
      let s := tAt (tColl d []) q
      passes s 0 q ∧ endsHere s 0 q = true ∧ findDesc s 0 0 5 = some (7, d) ∧ findDesc s 0 0 6 = none) ∧
    d.provIn.find? (fun v => provMatch v.key v.run p) = some tProv ∧ tProv ∉ d.provOut := by unfold passes; decide +kernel
/-- A segment of two flits of which the header alone has been confirmed, relayed or not. -/
def tHalf : Pkt := { tSeg 1 with len := 1 }
def tHalfAt (on : BitVec 32) : State :=
  let s := modLink (tColl tDesc []) 0 (fun x => { x with rx := [(2, [headerFlit tHalf 0])] })
  { s with coll := { s.coll with relayEff := on } }
theorem witness_arriving : arriving (tHalfAt 1) 0 tHalf = true ∧ arrived (tHalfAt 1) 0 tHalf = false ∧ endsHere (tHalfAt 1) 0 tHalf = true := by
  decide +kernel
theorem witness_relay_own : (tHalfAt 1).coll.relayEff.getLsbD tHalf.plot.toNat = true ∧ (tHalfAt 0).coll.relayEff.getLsbD tHalf.plot.toNat = false ∧
    findDesc (tHalfAt 1) 0 0 5 = some (7, tDesc) ∧ encrypted (linkAt (tHalfAt 1) 0) tHalf = false ∧ segRefusal (tHalfAt 1) tDesc 0 tHalf = none ∧
    tDesc.provOut = [] := by decide +kernel
theorem witness_prov_deadline :
    let d : Desc := { tDesc with provOut := [tProv] }
    let s (k : BitVec 64) := { tColl d [] with sd := { State.reset.sd with ticks := k } }
    descAt? (s 5) 0 7 = some d ∧ d.provOut.filter (fun v => decide (v.frame.toNat + 2 ≤ (s 5).sd.ticks.toNat)) ≠ [] ∧
      d.provOut.filter (fun v => decide (v.frame.toNat + 2 ≤ (s 4).sd.ticks.toNat)) = [] := by decide +kernel
/-- The descriptor as its next run starts. -/
def tRun : Desc := { tDesc with triggered := true, run := 1, prog := { startTick := 0 } }
theorem witness_trigger : descAt? (tColl tDesc []) 0 7 = some tDesc ∧ plotRuns (tColl tDesc []) 0 = true ∧
    trigAt? (tColl tDesc []) 0 0 0 = some ⟨0, 0, { poison := false, value := 1 }⟩ ∧ waitHolds { poison := false, value := 1 } (dTthr tDesc) = true ∧
    waitHolds { poison := false, value := 0 } (dTthr tDesc) = false ∧ emptyColl tDesc = false ∧
    tablesBad (tColl tRun []) tRun = none ∧ tablesOk (tColl tRun []) tRun = true ∧ emptyColl { tDesc with img := 2 ^ 450 } = true := by decide +kernel
theorem witness_trigger_broken : tablesOk (tColl { tRun with img := tRun.img ||| (1 <<< 400) } []) { tRun with img := tRun.img ||| (3 <<< 35 <<< 237) } = false ∧
    emptyColl { tRun with img := tRun.img ||| (3 <<< 35 <<< 237) } = false := by decide +kernel
theorem witness_nothing_staged : tRun.prog.staged = [] ∧ tRun.triggered = true ∧ releasable (tColl tRun []) 0 tRun = [] ∧ tDesc.triggered = false := by
  decide +kernel
/-- A staged chunk of one FP32 element whose home is pavilion 0, slot 0, by a descriptor that delivers to ACCUM (DELIV 1). -/
def tFeedImg : BitVec 512 :=
  BitVec.ofNat 512 (2 ^ 504 + 2 ^ 496 + 2 ^ 492 + 2 ^ 488 + 2 ^ 484 + 2 ^ 450 + 5 * 2 ^ 399 + 2 ^ 381 + 2 ^ 333 + 0xFFFF * 2 ^ 317 + 2 ^ 307 +
    0x400 * 2 ^ 237 + 0xC00 * 2 ^ 199 + 0x800 * 2 ^ 161)
def tFeed (st : List StagedChunk) : Desc := { tRun with img := tFeedImg, prog := { staged := st } }
def tStaged : StagedChunk := { chunk := 0, rank := 0, handle := 0, carry := false, data := [0, 0, 0x80, 0x3F], scales := [], last := true }
/-- The module with that descriptor, its home map naming this module, and a pavilion whose slot 0 may take FP32. -/
def tHome (d : Desc) (fmt : BitVec 4) : State :=
  let s := tColl d []
  let s := { s with hbm := { s.hbm with mem := memWrites tMem 0xC00 (natLe 16 (0x10 * 2 ^ 104)) }, pavs := [(0, { slots := [(0, slotMode false fmt false 0)] })] }
  setDie (setPlot s 0 { plotAt s 0 with pavSeen := 1, pavMask := 1 }) 0
    { dieAt s 0 with trigs := [⟨0, 0, { poison := false }⟩, ⟨0, 1, { poison := false, value := 1 }⟩] }
theorem witness_feed : ∀ ok : Bool,
    let d := tFeed [tStaged]
    let s := tHome d (if ok then 1 else 2)
    descAt? s 0 7 = some d ∧ plotRuns s 0 = true ∧ d.prog.staged = [tStaged] ∧ d.triggered = true ∧ dDop d = 1 ∧
      pavOfRel s 0 (homeEntry s d 0).hpav = some 0 ∧ slotRange (homeEntry s d 0).slot (tStaged.data.length * 8 / fmtBits (dIfmt d)) = [0] ∧
      feedOk d (slotAt (pavAt s 0) 0) = ok := by decide +kernel
theorem witness_release :
    let d := tFeed []
    let s := tHome d 1
    d.triggered = true ∧ dLead d = true ∧ dDeliv d = 1 ∧ emptyColl d = false ∧ dDop d ≤ 4 ∧
      (releasable s 0 d).findSome? (fun h => (nextChunk s d h).map (fun c => (h, c))) = some (0, 0) ∧ pavOfRel s 0 0 = some 0 ∧
      trigAt? s 0 0 (dRctr d + 0) = some ⟨0, 1, { poison := false, value := 1 }⟩ ∧
      sramBad (pavAt s 0) (homeEntry s d 0).raddr (dataBytes (dOfmt d) (chunkLen d (xBlock s d) 0)) = none := by decide +kernel
/-- Runs whose work is done: of an all-gather whose one member has sent, and of an empty collective at the tick after its trigger. -/
theorem witness_run_complete :
    (let d : Desc := { tRun with prog := { got := [segKey (tSeg 1)], sentRes := [(0, 0)] } }
     let s := tColl d []
     d.triggered = true ∧ emptyColl d = false ∧ workDone s 0 d = true ∧ allConfirmed s 0 d = true ∧ dDop d ≠ 10 ∧ dDeliv d ≠ 3 ∧ d.prog.nDrops = 0 ∧ d.prog.nBad = 0) ∧
    (let d : Desc := { tRun with img := 2 ^ 450 }
     emptyColl d = true ∧ d.prog.startTick.toNat < ({ State.reset.sd with ticks := 1 } : Sundial).ticks.toNat) := by decide +kernel

/-! ### Shards and the global norm -/

/-- A shard of plot 0 with 256 parameters, its twin on 0x30, TTHR 1 on trigger counter 0 of die 0. -/
def tEntry (twin : Nat) : BitVec 512 :=
  BitVec.ofNat 512 (twin * 2 ^ 478 + 256 * 2 ^ 430 + 0x10000 * 2 ^ 324 + 0x20000 * 2 ^ 286 + 2 ^ 260 + 2 ^ 242 + 2 ^ 226)
def tShard (h : Shard) (r : Role) : State :=
  let s := tReady (tRegion (tNet {} 1 0x20)) (tRole r 0)
  setDie { s with shards := [(0, h)] } 0 { dieAt s 0 with trigs := [⟨0, 0, { poison := false, value := 1 }⟩] }
def tBytes (v : BitVec 512) : List Byte := natLe 64 v.toNat
theorem tWhole (s : State) (q : KReq) (index sub limit : Nat) (bs : List Byte) (h : bs.length ≤ limit) (hs : (sessAt s q.slot).staging = none) :
    wholeValue s q index sub limit ⟨0, true, bs⟩ bs := by
  refine ⟨rfl, h, [], rfl, rfl, ?_⟩
  rw [hs]
theorem witness_shard_entry :
    (∀ st ∈ [0, 1, 2], admits (tShard { state := st, entry := if st = 0 then 0 else tEntry 0x30 } .fm) (tAsk 64) 0x6000 0x02 false) ∧
    wholeValue (tShard { state := 1, entry := tEntry 0x30 } .fm) (tAsk 64) 0x6000 0x02 64 ⟨0, true, tBytes (tEntry 0x30)⟩ (tBytes (tEntry 0x30)) ∧
    ownsPlot (tRole .fm 0) (ePlot (tEntry 0x30)) = true ∧ ownsPlot (tRole .po 1) (ePlot (tEntry 0x30)) = false ∧ entryInRange (tEntry 0x30) = true ∧
    entryInRange (tEntry 0x30 ||| 4 <<< 226) = false ∧ field (tEntry 0x30) 0 194 = 0 ∧ entryFits (tShard {} .fm) 0 (tEntry 0x30) = true ∧
    entryFits (setPlot (tShard {} .fm) 0 {}) 0 (tEntry 0x30) = false ∧ eNparam 0 = 0 := by
  refine ⟨by unfold admits; decide +kernel, tWhole _ _ _ _ _ _ (by decide +kernel) (by decide +kernel), ?_⟩
  decide +kernel
/-- Each shard command in a state that takes it and in one that does not. -/
theorem witness_shard_commands : ∀ st, st ≤ 8 → admits (tShard { state := st, entry := tEntry 0x30 } .fm) (tAsk 1) 0x6000 0x08 true := by
  unfold admits; decide +kernel
theorem witness_shard_foreign : ownsPlot (tRole .po 1) (ePlot (tEntry 0x30)) = false ∧ eNparam (tEntry 0x30) ≠ 0 ∧
    admits (setSess (tShard { state := 5, entry := tEntry 0x30 } .fm) 0 (tRole .po 1)) (tAsk 1) 0x6000 0x08 true := by unfold admits; decide +kernel
/-- The configuration of a norm of plot 0 over `k` modules with root 0x40, TTHR 1 on trigger counter 0. -/
def tNorm (k root : Nat) : BitVec 512 := BitVec.ofNat 512 (root * 2 ^ 488 + k * 2 ^ 466 + 2 ^ 440 + 2 ^ 388)
theorem witness_norm_config : ∀ c ∈ [true, false],
    let s := { tShard {} .fm with norms := [(0, { collecting := c })] }
    admits s (tAsk 64) 0x6000 0x21 false ∧ wholeValue s (tAsk 64) 0x6000 0x21 64 ⟨0, true, tBytes (tNorm 65536 0x40)⟩ (tBytes (tNorm 65536 0x40)) ∧
      ownsPlot (tRole .fm 0) 0 = true ∧ field (tNorm 65536 0x40) 0 312 = 0 ∧ xNmod (tNorm 65536 0x40) ≤ 65536 ∧ xTthr (tNorm 65536 0x40) ≠ 0 ∧
      xRaddr (tNorm 65536 0x40) % 4 = 0 ∧ xRinc (tNorm 65536 0x40) ≠ 0 ∧ (normAt s 0).collecting = c := by
  intro c h
  refine ⟨?_, tWhole _ _ _ _ _ _ (by decide +kernel) ?_, by decide +kernel, by decide +kernel, by decide +kernel, by decide +kernel, by decide +kernel, by decide +kernel, ?_⟩
  · revert c; unfold admits; decide +kernel
  · revert c; decide +kernel
  · rfl
theorem witness_step_counter : ∀ st, st ≤ 8 → admits (tShard { state := st, entry := tEntry 0x30 } .fm) (tAsk 8) (0x4000 + 0) 0x05 false := by
  unfold admits; decide +kernel
/-- A step of a shard: its trigger is there, it digests its one block, and its list is whole. -/
theorem witness_shard_steps :
    (let s := tShard { state := 1, entry := tEntry 0x30 } .fm
     trigReady s 0 0 0 1 = some { poison := false, value := 1 } ∧ eTthr (tEntry 0x30) = 1 ∧ (shardAt s 0).state = 1) ∧
    (let s := tShard { state := 2, entry := tEntry 0x30 } .fm
     mayDigest s 0 = true ∧ blockBad s (tEntry 0x30) 1 0 = none ∧ (shardAt s 0).blocks < nBlocks (tEntry 0x30)) ∧
    (let s := tShard { state := 2, entry := tEntry 0x30, blocks := 1 } .fm
     mayDigest s 0 = false ∧ nBlocks (tEntry 0x30) ≤ (shardAt s 0).blocks ∧ eTwin (tEntry 0xFFFFFF) = 0xFFFFFF) ∧
    trigReady (tShard {} .fm) 0 0 1 1 = none := by decide +kernel
/-- A damaged block: the word of its first byte is uncorrectable. -/
theorem witness_shard_damaged :
    let s := tShard { state := 2, entry := tEntry 0x30 } .fm
    (blockBad { s with hbm := { s.hbm with badWords := [0x10000 / 32] } } (tEntry 0x30) 1 0).isSome = true := by decide +kernel
/-- The comparison of Table 10.7: lists that agree, that differ, that are not all there, another configuration, no twin. -/
theorem witness_shard_compare :
    let h (cfg : BitVec 512) (l t : List (BitVec 64)) : Shard :=
      { state := 3, entry := tEntry 0x30, blocks := 1, local_ := l, twin := t.zipIdx.map (fun e => (e.2, e.1)), twinHdr := some (cfg, 0) }
    let c := eConfig (tEntry 0x30)
    twinAbsent (tShard (h c [5] [5]) .fm) (h c [5] [5]) = none ∧ (h c [5] [5]).hdrStep = (h c [5] [5]).cur ∧ nBlocks c = 1 ∧
      ((h c [5] [5]).local_.zipIdx.filter (fun d => d.1 != tblGet 0 (h c [5] [5]).twin d.2)) = [] ∧
      ((h c [5] [6]).local_.zipIdx.filter (fun d => d.1 != tblGet 0 (h c [5] [6]).twin d.2)).map (·.2) = [0] ∧ (h c [5] []).twin.length < nBlocks c ∧
      c ||| 1 <<< 194 ≠ eConfig (tEntry 0x30) ∧ nBlocks (c ||| 1 <<< 194) ≤ 1 ∧
      twinAbsent (tShard { state := 3, entry := tEntry 0xFFFFFF } .fm) { state := 3, entry := tEntry 0xFFFFFF } = some 0x80 := by decide +kernel
theorem witness_shard_commit :
    let s := tShard { state := 4, entry := tEntry 0x30, todo := some (stOk, 0) } .fm
    (shardAt s 0).todo = some (stOk, 0) ∧ mayCommit s 0 = true ∧ (shardAt (tShard {} .fm) 0).todo = none := by decide +kernel
theorem witness_twin_late : (4096 : Nat) ≤ ({ state := 3, waitTicks := 4096 } : Shard).waitTicks ∧ ({ state := 3, waitTicks := 4095 } : Shard).waitTicks < 4096 := by
  decide

/-- A message of a kind from the twin of shard 0. -/
def tPsm (kind : Nat) (step : BitVec 64) (dest : BitVec 24) : Pkt :=
  { tPkt 4 (if kind < 4 then 2 else 7) (if kind < 4 then 0 else 2) 1 0 with dest := dest, op := psOp step kind 0 0x30 0 0 8 0, body := natLe 8 5 }
theorem witness_twin_messages : ∀ kind ∈ [2, 3, 4, 5, 6, 7],
    let s := tAt (tShard { state := 1, entry := tEntry 0x30, step := 6, cur := 6 } .fm) (tPsm kind 6 0x10)
    passes s 0 (tPsm kind 6 0x10) ∧ mKind (tPsm kind 6 0x10) = kind ∧ mShard (tPsm kind 6 0x10) = 0 ∧ mStep (tPsm kind 6 0x10) = 6 ∧
      endsHere s 0 (tPsm kind 6 0x10) = true ∧ fromTwin (shardAt s 0) (tPsm kind 6 0x10) = true ∧ stepNow (shardAt s 0) = 6 ∧
      fromTwin { entry := tEntry 0x31 } (tPsm kind 6 0x10) = false ∧ (tPsm kind 6 0x10).prov = false ∧
      (let t := tAt (tShard { state := 1, entry := tEntry 0x30, step := 6, cur := 6 } .fm) (tPsm kind 6 0x20)
       passes t 0 (tPsm kind 6 0x20) ∧ routeOf t (some 0) (tPsm kind 6 0x20) = .out 1) := by
  unfold passes; decide +kernel
/-- A message that came provisionally waits for its CONFIRM or RETRACT. -/
theorem witness_message_waits :
    let p := { tPsm 2 6 0x10 with prov := true }
    let c : Pkt := { tPkt 2 1 0 0 0 with dest := 0x10, op := p.op }
    let s := { tAt (tShard { state := 1, entry := tEntry 0x30 } .fm) p with coll := { State.reset.coll with psWait := [p] } }
    passes s 0 p ∧ p.prov = true ∧ s.coll.psWait.find? (fun q => psNamed q c) = some p := by unfold passes; decide +kernel
/-- The steps that a message may be of: past, present, next and beyond. -/
theorem witness_twin_steps : (5 : BitVec 64).toNat < (stepNow { state := 4, cur := 6 }).toNat ∧ (7 : BitVec 64).toNat = (stepNow { state := 4, cur := 6 }).toNat + 1 ∧
    (stepNow { state := 3, cur := 6 }).toNat < (7 : BitVec 64).toNat := by decide
theorem witness_restore :
    (match serveFrom (setPlot (tShard { state := 1, entry := tEntry 0x30, step := 6 } .fm) 0 { state := 1 })
      { state := 1, entry := tEntry 0x30, step := 6 } false 6 with | .ok st => st | .error _ => 0) = 6 ∧
    (match serveFrom (tShard { state := 1, entry := tEntry 0x30, step := 6 } .fm) { state := 1, entry := tEntry 0x30, step := 6 } false 6 with
      | .ok _ => 0 | .error st => st) = stShardState := by decide +kernel

/-- A norm of plot 0 whose slot list at 0x30000 names slot 0 of pavilion 0. -/
def tNormed (x : Norm) (base : Int) : State :=
  let s := tShard {} .fm
  { setPlot s 0 { plotAt s 0 with pavMask := 1, pavSeen := 1 } with
    norms := [(0, x)], pavs := [(0, { slots := [(0, { slotMode true 0 true base with count := 1 })] })] }
def tNormCfg (k root : Nat) : BitVec 512 := tNorm k root ||| (1 <<< 428) ||| (0x30000 <<< 350)
theorem witness_norm_trigger :
    let s := tNormed { config := tNormCfg 1 0x10 } (-298)
    trigReady s 0 0 0 1 = some { poison := false, value := 1 } ∧ xTthr (tNormCfg 1 0x10) = 1 ∧ xNmod (tNormCfg 1 0x10) ≠ 0 ∧
      regBad s 0 (xSlist (tNormCfg 1 0x10)) (4 * xNslot (tNormCfg 1 0x10)) = none ∧ (normSlots s 0 (tNormCfg 1 0x10)).all (normSlotOk s) = true ∧
      (normSlots s 0 (tNormCfg 1 0x10)).length = 1 ∧ isRoot s (tNormCfg 1 0x10) = true ∧ isRoot s (tNormCfg 2 0x40) = false ∧
      (normSlots s 0 (tNormCfg 1 0x10)).all (normSlotOk (tNormed {} 0)) = false := by decide +kernel
theorem witness_norm_messages : ∀ c : Bool,
    let s := tNormed { config := tNormCfg 2 (if c then 0x10 else 0x30), collecting := true, step := 6 } (-298)
    let p (kind : Nat) : Pkt := { tPsm kind 6 0x10 with vc := if kind = 1 then 3 else 2 }
    (∀ k ∈ [0, 1],
      let t := tAt s (p k)
      passes t 0 (p k) ∧ endsHere t 0 (p k) = true ∧ mKind (p k) = k ∧ xNmod (normAt t 0).config ≠ 0 ∧ isRoot t (normAt t 0).config = c ∧
        (normAt t 0).collecting = true ∧ mStep (p k) = (normAt t 0).step) ∧
      (5 : BitVec 64).toNat < (normAt s 0).step.toNat ∧
      (mSrc (p 1) = xRootId (normAt s 0).config ↔ c = false) ∧ mSplot (p 1) = xRplot (normAt s 0).config ∧
      (let q := { p 0 with dest := 0x20 }
       let t := tAt s q
       routeOf t (some 0) q = .out 1 ∧ passes t 0 q) := by unfold passes; decide +kernel

/-! ### HBM, links and the sender -/

/-- A region of every stack that ends at unit 507, the last that a plot may have. -/
def tReg (base size : Nat) : BitVec 64 := (255 : BitVec 8) ++ BitVec.ofNat 9 base ++ BitVec.ofNat 9 size ++ (0 : BitVec 38)
theorem witness_region :
    let s := tReady State.reset (tRole .fm 0)
    admits s (tAsk 8) (0x4000 + 31) 0x04 false ∧ regionInRange (tReg 507 1) = true ∧ regionFits s 31 (tReg 507 1) = true ∧ s.gate.entropyFailed = false ∧
      508 < regBase (tReg 507 2) + regSize (tReg 507 2) ∧ field (tReg 0 1 ||| 1) 0 38 ≠ 0 := by unfold admits; decide +kernel
theorem witness_region_refused :
    let s := tReady { State.reset with plots := [(0, { region := tReg 507 1, loadState := 2 })] } (tRole .fm 0)
    admits s (tAsk 8) (0x4000 + 31) 0x04 false ∧ (∃ m ∈ allPlots, m ≠ 31 ∧ regionsMeet (tReg 507 1) (plotAt s m).region = true) ∧
      admits s (tAsk 8) (0x4000 + 0) 0x04 false ∧ (plotAt s 0).loadState ≠ 0 := by unfold admits; decide +kernel
theorem witness_stacks : (511 : Nat) ∈ ({ scrubbing := [511] } : Stack).scrubbing ∧ (511 : Nat) ∉ ({} : Stack).scrubbing ∧
    (stackAt (setStack State.reset 7 { state := 1 }) ((2 ^ 38 - 1) / 2 ^ 35)).state = 1 ∧ ({} : Stack).state ≠ 1 ∧
    inReserved (7 * 2 ^ 35 + 0x7EFFFFFFF) = false ∧ State.reset.hbm.badWords.contains 5 = false ∧ [5].contains 5 = true ∧
    (4096 : Nat) ≤ ({ above := 4096 } : Stack).above ∧ ({ above := 4095 } : Stack).above < 4096 := by decide +kernel

/-- A link in a state, and a flit of all zeros but its header and its CRC. -/
def tLink (x : Link) : State := setLink State.reset 0 x
def tFlit (h : Nat) : List Byte :=
  let rest := (natLe 16 h).drop 4 ++ List.replicate 240 0
  natLe 4 (crc32c rest) ++ rest
theorem witness_flits :
    active (tLink { state := 6 }) 0 = true ∧ active (tLink { state := 5 }) 0 = false ∧ (tFlit (2 ^ 126)).length = 256 ∧
    fieldN (flitHead (tFlit (7 * 2 ^ 120))) 126 2 = 0 ∧ flitCrcOk (tFlit (7 * 2 ^ 120)) = true ∧ fieldN (flitHead (tFlit (7 * 2 ^ 120))) 120 6 = 7 ∧
    fieldN (flitHead (tFlit (8 * 2 ^ 120))) 120 6 = 8 ∧ flitCrcOk (List.replicate 256 0) = false ∧
    fieldN (flitHead (tFlit (2 ^ 126))) 126 2 = 1 ∧ flitCrcOk (tFlit (2 ^ 126)) = true ∧ fieldN (flitHead (tFlit (2 ^ 126))) 112 14 = ({} : Link).seqRx.toNat ∧
    fieldN (flitHead (tFlit (3 * 2 ^ 126))) 126 2 = 3 ∧ fieldN (flitHead (tFlit (2 ^ 126 + 2 ^ 112))) 112 14 ≠ ({} : Link).seqRx.toNat ∧
    (tblGet [] ({ alloc := [32] } : Link).rx 0).length < ({ alloc := [32] } : Link).alloc.getD 0 0 ∧
    ({} : Link).alloc.getD 0 0 ≤ (tblGet [] ({} : Link).rx 0).length := by decide +kernel
/-- A payload flit that continues the one packet open on VC 0, a NAK answered 7,199 cycles ago, and one 7,200 cycles ago. -/
theorem witness_payload :
    let x : Link := { state := 6, alloc := [32], rx := [(0, [tFlit (2 ^ 126 + 2 * 2 ^ 107)])] }
    payloadVc x 0 = some 0 ∧ (lastHeader x 0).isSome = true ∧ (tblGet [] x.rx 0).length < x.alloc.getD 0 0 ∧
    fieldN (flitHead (tFlit (2 ^ 127))) 126 2 = 2 ∧ flitCrcOk (tFlit (2 ^ 127)) = true ∧
    ((7199 : BitVec 64) - 0).toNat < 7200 ∧ ¬ ((7200 : BitVec 64) - 0).toNat < 7200 := by decide +kernel
/-- One flit in the retry buffer: a NAK for it, one beyond it, and the ninth replay. -/
theorem witness_replay :
    let x : Link := { state := 6, seqTx := 1, retry := [⟨[], 128, 0, 0, 0⟩], replays := 8, ret := [(7, 1)] }
    (0 - (x.seqTx - BitVec.ofNat 14 x.retry.length)).toNat < x.retry.length ∧ x.retry.length ≤ (1 - (x.seqTx - BitVec.ofNat 14 x.retry.length)).toNat ∧
      x.retry ≠ [] ∧ 8 ≤ x.replays ∧ ({} : Link).replays < 8 ∧ (List.range 8).any (fun v => tblGet 0 x.ret v != tblGet 0 x.retSaid v) = true := by decide +kernel
theorem witness_heartbeat :
    let s := setDom (tNet {} 1 0x20) 0 { state := 1 }
    hbPlot s 0 = some 0 ∧ hbPlot State.reset 0 = none ∧ (plotAt s 0).epoch = 7 := by decide +kernel
/-- Each state of bring-up with what lets it go on, and what does not. -/
theorem witness_link_states : ∀ st, st ≤ 7 →
    linkExists (tLink { state := st }) 0 = true ∧ linkExists (tLink { state := st }) 1 = false ∧ (linkAt (tLink { state := st }) 0).state = st ∧
      (dieAt (tLink { state := st }) 0).failed = false ∧ (dieAt (tLink { state := st }) 0).testing = false ∧ freeSpares (tLink { state := st }) 0 = 4 := by
  decide +kernel
theorem witness_no_spares : freeSpares { State.reset with net := { State.reset.net with sparesUsed := [(0, 4)] } } 0 = 0 ∧
    (dieAt (setDie State.reset 0 { testing := true }) 0).testing = true := by decide +kernel
def tParam : ParamBody := ⟨1, 0, 0, 0x30, [32, 17, 17, 17, 17, 17, 17, 17], 0, 4096, 1⟩
theorem witness_param : paramOk (tLink { state := 5 }) 0 tParam = true ∧ paramOk (tLink { state := 5 }) 0 { tParam with init := [31, 17, 17, 17, 17, 17, 17, 17] } = false ∧
    maskOf (tLink { state := 5 }) 0 = 0 := by decide +kernel
theorem witness_link_commands : ∀ st ∈ [0, 6, 7],
    let s := tReady (tLink { state := st }) (tRole .fm 0)
    admits s (tAsk 1) (0x3000 + 0) 0x02 true ∧ splitPort s 0 = false ∧ (linkAt s 0).state = st ∧ (∀ k, k ≤ 7 → (sessAt s k).transport ≠ .inband) := by
  unfold admits; decide +kernel
theorem witness_link_sessions : ∀ k, (sessAt (tReady (tLink {}) (tRole .fm 0)) k).transport ≠ .inband := by
  intro k
  cases k with
  | zero => decide
  | succ k => simp [sessAt, tReady, tblGet]
/-- What a sender may find: a set that is due, a flit to replay, packets of VC0, VC1 and VC2, and nothing. -/
theorem witness_sender :
    let t (v : BitVec 3) (len : BitVec 5) : TxPkt := { pkt := { vc := v, cls := 0, opc := 9, len := len } }
    let x (ts : List TxPkt) : Link := { state := 6, init := List.replicate 8 64, txq := ts }
    let ready (ts : List TxPkt) := startedFirst ((x ts).txq.filter (canSend (x ts)))
    (ready [t 2 0, t 1 0, t 0 0]).find? (fun u => u.pkt.vc == 0) = some (t 0 0) ∧ (ready [t 2 0, t 1 0]).find? (fun u => u.pkt.vc == 0) = none ∧
      (ready [t 2 0, t 1 0]).find? (fun u => u.pkt.vc == 1) = some (t 1 0) ∧ (pickNext (tLink (x [t 2 0])) 0 (x [t 2 0])).1 = some (t 2 0) ∧
      (pickNext (tLink (x [])) 0 (x [])).1 = none ∧ retryDepth (tLink (x [])) 0 = 4096 ∧
      encrypted (x []) (t 0 0).pkt = false ∧ rsvDue (tLink (x [t 0 0])) 0 (x [t 0 0]) (t 0 0) = none ∧ (t 0 0).spray = none ∧
      [TxFlit.mk [] 128 0 0 0][1 - 1]? = some (TxFlit.mk [] 128 0 0 0) := by decide +kernel
/-- A key whose counters are spent, and a packet that needs the next generation. -/
theorem witness_key_needed :
    let k : LinkKey := { plot := 0, txCtr := 2 ^ 32 }
    let x : Link := { state := 6, keys := [k], encMask := 1, txq := [{ pkt := { vc := 2, cls := 0, opc := 1, plot := 0 } }] }
    keyNeeded x k = true ∧ keyNeeded x { k with stopped := true } = false := by decide +kernel
/-- Route tables: one entry whose range is the whole of the ids but the top two, and one that ends above them. -/
def tRoutes (hi : Nat) : List Byte := natLe 16 (2 ^ 112) ++ natLe 32 (0 * 2 ^ 232 + hi * 2 ^ 208 + 1)
theorem witness_routes_written :
    let s := tReady State.reset (tRole .fm 0)
    admits s (tAsk 48) 0x3400 0x01 false ∧ wholeValue s (tAsk 48) 0x3400 0x01 131088 ⟨0, true, tRoutes 0xFFFFFD⟩ (tRoutes 0xFFFFFD) ∧
      (match routeTable? s (tRoutes 0xFFFFFD) with | .ok es => es.length | .error _ => 0) = 1 ∧
      (match routeTable? s (tRoutes 0xFFFFFE) with | .ok _ => 0 | .error st => st) = stKioskRange ∧
      admits s (tAsk 32) 0x3400 0x02 false ∧ (2 : Nat) ^ 128 ≤ (1 <<< 128 : BitVec 256).toNat ∧ ((1 <<< 128) - 1 : BitVec 256).toNat < 2 ^ 128 := by
  refine ⟨by unfold admits; decide +kernel, tWhole _ _ _ _ _ _ (by decide +kernel) (by decide +kernel), by decide +kernel, by decide +kernel,
    by unfold admits; decide +kernel, by decide +kernel, by decide +kernel⟩
theorem witness_port_mode : admits (tReady State.reset (tRole .fm 0)) (tAsk 1) (0x3000 + 63) 0x01 false ∧
    (∀ l ∈ [126, 127], (linkAt (tReady State.reset (tRole .fm 0)) l).state = 0) ∧ plotsOfPort (tReady State.reset (tRole .fm 0)) 63 = [] ∧
    admits (tReady (tLink { state := 6 }) (tRole .fm 0)) (tAsk 1) (0x3000 + 0) 0x01 false ∧ (linkAt (tReady (tLink { state := 6 }) (tRole .fm 0)) 0).state = 6 := by
  unfold admits; decide +kernel
theorem witness_notices : State.reset.route.stallLimit.toNat ≤ tblGet 0 ({ stall := [(7, 4096)] } : Link).stall 7 ∧
    tblGet 0 ({ stall := [(7, 4095)] } : Link).stall 7 < State.reset.route.stallLimit.toNat ∧
    (4096 : Nat) ≤ (tblGet ({} : SprayState) [(4095, { above := 4096, armed := true })] 4095).above ∧
    State.reset.route.starveLimit.toNat ≤ ({ sub := 32, cls := 2, dry := 4096 } : Service).dry ∧
    [({ sub := 32, cls := 2, dry := 4096 } : Service)].find? (fun v => v.sub == 32 && v.cls == 2) = some { sub := 32, cls := 2, dry := 4096 } := by decide +kernel

/-! ### Plot objects, keys and the Gatehouse -/

/-- A ready module whose plot 0 is as given, and a session of a role. -/
def tWith (p : Plot) (r : Role) : State := tReady { State.reset with plots := [(0, p)] } (tRole r 0)
/-- A failed pavilion in the mask of a plot that may run, and in that of one that is empty or at reset. -/
theorem witness_failed_hold : ∀ st, st ≤ 4 →
    let s : State := { State.reset with failedMap := 1, plots := [(0, { state := st, pavMask := 3 })] }
    ((plotAt s 0).pavMask &&& s.failedMap ≠ 0) ∧ (plotAt s 0).causes.getLsbD hcPavilion = false ∧
      ((plotAt (failedHold s 0) 0).pendHold = 0 ↔ (st = 0 ∨ st = 4)) := by decide +kernel
theorem witness_masks :
    (let s := tWith {} .fm
     admits s (tAsk 32) 0x4000 0x02 false ∧ s.enableMap = BitVec.allOnes 256 ∧ (plotAt s 0).loadState = 0 ∧ s.failedMap = 0 ∧ maskOwner s 255 = none ∧
       (pavAt s 255).testing = false) ∧
    (let s := tWith { loadState := 1, pavMask := 1 } .fm
     admits s (tAsk 32) 0x4000 0x02 false ∧ (plotAt s 0).loadState ≠ 0 ∧ admits s (tAsk 32) 0x4001 0x02 false ∧ (plotAt s 1).loadState = 0 ∧ maskOwner s 0 = some 0) ∧
    (let s := { tWith {} .fm with enableMap := (BitVec.allOnes 256) <<< 1 }
     admits s (tAsk 32) 0x4000 0x02 false ∧ (1 : BitVec 256).getLsbD 0 = true ∧ s.enableMap.getLsbD 0 = false) := by unfold admits; decide +kernel
theorem witness_port_masks :
    (let s := tWith {} .fm
     admits s (tAsk 8) 0x4000 0x03 false ∧ (plotAt s 0).loadState = 0 ∧ portOver (setPlot s 0 { plotAt s 0 with portMask := 1 }) 0 = false ∧
       (dieAt s 0).testing = false ∧ (dieAt (setDie s 0 { testing := true }) 0).testing = true) ∧
    (let s := tWith { loadState := 1, portMask := 1 } .fm
     admits s (tAsk 8) 0x4000 0x03 false ∧ (plotAt s 0).loadState ≠ 0 ∧ (bitsSet (plotAt s 0).portMask 64).all (fun j => (0 : BitVec 64).getLsbD j) = false) := by
  unfold admits; decide +kernel
theorem witness_plot_commands : ∀ st ∈ [1, 2, 3, 4], ∀ pc ∈ [none, some PlotCmd.start],
    let s := tWith { state := st, pendingCmd := pc, held := true, causes := 8 } .fm
    admits s (tAsk 1) 0x4000 0x10 true ∧ (plotAt s 0).state = st ∧ (plotAt s 0).pendingCmd = pc ∧ (domAt s 0).state = 0 ∧ mayRelease s 0 3 = true ∧
      (bitsSet (plotAt s 0).causes 32).all (mayRelease s 0) = true := by unfold admits; decide +kernel
theorem witness_seed : ∀ st ∈ [1, 2], ∀ k ∈ [15, 16],
    let s := tWith { state := st } .fm
    admits s (tAsk k) 0x4000 0x06 false ∧ wholeValue s (tAsk k) 0x4000 0x06 16 ⟨0, true, List.replicate k 1⟩ (List.replicate k 1) ∧ (plotAt s 0).state = st := by
  intro st h k h2
  simp only [List.mem_cons, List.not_mem_nil, or_false] at h h2
  obtain rfl | rfl := h <;> obtain rfl | rfl := h2 <;>
    exact ⟨by unfold admits; decide +kernel, tWhole _ _ _ _ _ _ (by decide +kernel) (by decide +kernel), by decide +kernel⟩
theorem witness_energy :
    let s := tWith { image := some { tImg with budget := [[⟨4, 0, 0, 0, 0, 0, 24576⟩]] } } .fm
    admits s (tAsk 4) 0x4000 0x08 false ∧ moduleEnergy s.sd.period.toNat = 12288 ∧ (admitted (plotAt s 0)).map energyPeak = [24576] ∧
      admitted (plotAt (tWith {} .fm) 0) = [] := by unfold admits; decide +kernel

/-- A message of the exchange with the elements of the types given. -/
def tKeyx (ts : List Nat) : KeyxMsg :=
  let ls := ts.map (fun t => (t, (match t with | 1 => 97 | 2 => 1568 | 3 => 1568 | 4 => 1000 | 5 => 96 | 6 => 4627 | _ => 48)))
  ⟨ls, true, sumN (ls.map (fun e => 6 + e.2)), true⟩
theorem witness_keyx : ∀ st ∈ [KeyxState.idle, .failed, .awaitHello, .awaitResponse, .awaitFinish, .agreed],
    let s := tLink { state := 6, keyx := st, keys := [{ plot := 0, txGen := 255, asked := true }] }
    active s 0 = true ∧ (linkAt s 0).keyx = st ∧ renewDue (linkAt s 0) = true ∧ renewDue {} = false ∧ active s 1 = false ∧
      keyxOk (tKeyx [1, 2, 4, 5, 6]) [1, 2, 4, 5, 6] = true ∧ keyxOk (tKeyx [1, 3, 4, 5, 6]) [1, 3, 4, 5, 6] = true ∧
      keyxOk (tKeyx [7]) [7] = true ∧ keyxOk { tKeyx [7] with verdict := false } [7] = false ∧
      (∃ k ∈ (linkAt s 0).keys, k.plot = 0 ∧ k.asked = true) := by decide +kernel
theorem witness_gatehouse :
    (let s := tWith {} .so
     admits s (tAsk 1) 0x7000 0x20 true ∧ (0x5B : BitVec 8) ≠ 0x5A ∧ s.gate.nonce = none ∧ s.gate.entropyFailed = false ∧
       ({ s.gate with entropyFailed := true } : Gate).entropyFailed = true ∧ ({ s.gate with nonce := some [], reporting := true } : Gate).nonce = some []) ∧
    ∀ k ∈ [31, 32], admits (tWith {} .fm) (tAsk k) 0x7000 0x30 false := by unfold admits; decide +kernel
theorem witness_attestation : ∀ k ∈ [31, 32], wholeValue (tWith {} .fm) (tAsk k) 0x7000 0x30 32 ⟨0, true, List.replicate k 1⟩ (List.replicate k 1) := by
  intro k h
  simp only [List.mem_cons, List.not_mem_nil, or_false] at h
  obtain rfl | rfl := h <;> exact tWhole _ _ _ _ _ _ (by decide +kernel) (by decide +kernel)

/-! ### The Kiosk -/

/-- Each check of R359 meets a request that it refuses. -/
theorem witness_kiosk_checks :
    (let s := tWith {} .fm
     ({ tAsk 1 with wellFormed := false } : KReq).wellFormed = false ∧ (sessAt s 1).isOpen = false ∧ gateSession s (tAsk 1) = .pass ∧
       objExists 0x4020 0x02 = false ∧ objExists 0x401F 0x02 = true ∧ (objAcc 0x7000 0x20 .fm 0) ≠ .cmd ∧ (objAcc 0x4000 0x02 .ob 0).writes = false ∧
       (objAcc 0x4001 0x05 .po 0).writes = false ∧ (objFind 0x1200 0x01).bind (fun o => o.ty.size) = some 1 ∧ kioskReady s = true) ∧
    (let s := tReady State.reset { tRole .fm 0 with transport := .inband, authed := true, mctrIn := 4 }
     gateSession s { tAsk 1 with mctr := 5, macOk := true } = .pass ∧ ({ tAsk 1 with mctr := 4 } : KReq).mctr.toNat ≤ (sessAt s 0).mctrIn.toNat) ∧
    (let s := tReady State.reset { tRole .fm 0 with transport := .i3c }
     gateSession s (tAsk 1) = .pass ∧ (sessAt s 0).transport = .i3c) ∧
    (let s := { tWith {} .fm with power := { State.reset.power with pg := true, step := 10 } }
     gateSession s (tAsk 1) = .pass ∧ kioskReady s = false) ∧
    (let s := { tWith {} .fm with gate := { State.reset.gate with state := 2 } }
     gateSession s (tAsk 1) = .pass ∧ s.gate.state = 2 ∧ (objAcc 0x1200 0x01 .fm 0).writes = true) := by decide +kernel

/-- A module with an anchor in the SO and PO lists. -/
def tAnchors (x : Session) : State :=
  let s := tReady State.reset x
  { s with kiosk := { s.kiosk with anchorsSo := [1], anchorsPo := [2] } }
/-- The module without entropy: no region, no in-band session. -/
theorem witness_no_entropy :
    let s0 := tReady State.reset (tRole .fm 0)
    let s := { s0 with gate := { s0.gate with entropyFailed := true } }
    admits s (tAsk 8) (0x4000 + 31) 0x04 false ∧ regionInRange (tReg 507 1) = true ∧ regionFits s 31 (tReg 507 1) = true ∧
      s.gate.entropyFailed = true ∧ freeSlot s = some 1 ∧ kioskReady s = true ∧ s.gate.state ≠ 2 := by unfold admits; decide +kernel
theorem witness_open :
    (let s := tAnchors (tRole .fm 0)
     freeSlot s = some 1 ∧ kioskReady s = true ∧ bindRole s ⟨[.fm, .so], none, true⟩ = some (.so, 0) ∧ bindRole s ⟨[.po], some 31, true⟩ = some (.po, 31) ∧
       bindRole s ⟨[.po], some 32, true⟩ = none ∧ bindRole s ⟨[.so], none, false⟩ = none ∧ bindRole s ⟨[.ob], none, true⟩ = none ∧ s.gate.state ≠ 2 ∧
       s.gate.entropyFailed = false ∧ active s 0 = false) ∧
    (let s := { State.reset with kiosk := { State.reset.kiosk with sessions := (List.range 7).map (fun k => (k, tRole .fm 0)) } }
     freeSlot s = none) ∧
    freeSlot { State.reset with kiosk := { State.reset.kiosk with sessions := (List.range 6).map (fun k => (k, tRole .fm 0)) } } = some 6 ∧
    kioskReady State.reset = false := by decide +kernel
theorem witness_sessions : ∀ au : Bool,
    let s := tAnchors { tRole .ob 0 with transport := .inband, authed := au, mctrIn := 4 }
    (sessAt s 0).isOpen = true ∧ (sessAt s 0).transport = .inband ∧ (sessAt s 0).authed = au ∧ (sessAt s 1).isOpen = false ∧ kioskReady s = true ∧
      (gateSession s { tAsk 0 with mctr := 5, macOk := true } = .pass ↔ au = true) ∧ (sessAt (tAnchors (tRole .so 0)) 0).transport = .tls0 := by decide +kernel
theorem witness_close : admits (tAnchors (tRole .so 0)) (tAsk 1) 0x1100 0x05 true ∧ 6 < (7 : BitVec 8).toNat ∧
    (sessAt (tAnchors (tRole .so 0)) 6).isOpen = false ∧ (sessAt (tAnchors (tRole .so 0)) 0).isOpen = true := by unfold admits; decide +kernel

def tSub (index : BitVec 16) (period : BitVec 32) (last : List Byte) : Sub := { index := index, sub := 1, period := period, since := 4, lastValue := last }
theorem witness_subscribe :
    subscribable (tRole .fm 0) 0x1200 0x01 = .ok () ∧ subscribable (tRole .fm 0) 0x1200 0xFF = .error stKioskNoObject ∧
    subscribable (tRole .fm 0) 0x4000 0x06 = .error stKioskAccess ∧ subscribable (tRole .fm 0) 0x4000 0x0D = .error stKioskType ∧
    ((List.range 32).map (fun k => tSub (BitVec.ofNat 16 k) 0 [])).length = 32 ∧ gateSession (tWith {} .fm) (tAsk 4) = .pass := by decide +kernel
/-- The frame period, 0, compared with a value; and a period that ends at tick 260. -/
theorem witness_notify : ∀ due change : Bool,
    let tk : BitVec 64 := if due then 260 else 259
    let v : Byte := if change then 2 else 1
    let x := { tRole .fm 0 with subs := [tSub 0x1200 0 [v], tSub 0x1200 256 [v]] }
    let s := tReady { State.reset with sd := { State.reset.sd with ticks := tk } } x
    (sessAt s 0).isOpen = true ∧ (sessAt s 0).subs.find? (fun u => u.index == 0x1200 && u.sub == 1) = some (tSub 0x1200 0 [v]) ∧
      (readObject s (sessAt s 0) 0 0x1200 0x01 = [v] ↔ change = false) ∧ (s.sd.ticks.toNat < (tSub 0x1200 256 [v]).since.toNat + (tSub 0x1200 256 [v]).period.toNat ↔ due = false) ∧
      (sessAt s 0).outq.length < 64 := by decide +kernel
theorem witness_notify_full : (64 : Nat) ≤ (List.replicate 64 ({ notify := true, seq := 0, index := 0x1200, sub := 1 } : KMsg)).length ∧
    (∃ z ∈ List.replicate 64 ({ notify := true, seq := 0, index := 0x1200, sub := 1 } : KMsg), z.notify = true ∧ z.index = 0x1200 ∧ z.sub = 1) ∧
    (∀ z ∈ List.replicate 64 ({ notify := false, seq := 0 } : KMsg), ¬ (z.notify = true)) := by decide
theorem witness_rings : ringReadable (tWith {} .fm) (tRole .fm 0) = true ∧ ringReadable State.reset { tRole .ob 0 with transport := .i3c } = false ∧
    ringReadable { State.reset with power := { State.reset.power with step := 10 } } { tRole .ob 0 with transport := .i3c } = true := by decide +kernel

/-- Every row of the statement admits a request, with values in its range and out of it. -/
theorem witness_object_writes :
    (∀ r ∈ [(0x1100, 0x06, 4), (0x2000, 0x01, 1), (0x2000, 0x02, 4), (0x3400, 0x03, 4), (0x5900, 0x01, 4), (0x8000, 0x10, 4), (0x8000, 0x11, 1),
        (0x9100, 0x06, 4), (0x9100, 0x07, 2), (0x3400, 0x07, 4), (0x3500, 0x04, 4), (0x3500, 0x02, 2), (0x5800, 0x06, 4), (0x1100, 0x02, 1),
        (0x3500, 0x05, 1), (0x5000, 0x10, 1), (0x5800, 0x12, 2), (0x6800, 0x01, 1), (0xA000, 0x10, 1)],
      admits (tWith {} .fm) (tAsk r.2.2) r.1 r.2.1 false) ∧
    signedN 32 417 = 417 ∧ signedN 32 (2 ^ 32 - 1074) = -1074 ∧ signedN 32 (2 ^ 32 - 1075) < -1074 ∧ leNat [0x00, 0x80, 0x40] = 4227072 ∧
    writeRow 0x4000 0x02 = true ∧ commandRow 0x4000 0x10 1 = true := by unfold admits; decide +kernel

theorem witness_journal :
    (let s := tWith { loadState := 1 } .fm
     admits s (tAsk 1) 0x1200 0x01 false ∧ (∃ n ∈ allPlots, (plotAt s n).loadState ≠ 0) ∧ admits (tWith {} .so) (tAsk 1) 0xA000 0x32 false) ∧
    (∀ n ∈ allPlots, (plotAt (tWith {} .fm) n).loadState = 0) ∧ admits (tWith {} .fm) (tAsk 1) 0x1200 0x01 false ∧
    ({ State.reset.power with versionA := 0, versionB := 1 } : Power).versionA = 0 ∧
    (let p : JPend := { slot := some 0, seq := 1, sel := 0, entry := some { index := 0x1200, sub := 0x01, value := [2] } }
     p.zmark = none ∧ p.entry = some ⟨0x1200, 0x01, [2]⟩ ∧ (objFind 0x1200 0x01).any (fun x => x.ty == .domain) = false) ∧
    (⟨false, false⟩ : FlashObs).first = false ∧ State.reset.tele.collector = 0x00FFFFFF := by unfold admits; decide +kernel
def tRec (n : Nat) : Rec :=
  { tick := 0, boot := 0, code := 0x0101, epoch := 0, cls := 2, plot := none, src := srcModule, sseq := BitVec.ofNat 16 n, count := 1, arg := 0 }
theorem witness_export :
    let s := { tNet {} 1 0x20 with tele := { State.reset.tele with collector := 0x20, toSend := (List.range 121).map tRec } }
    let p := telemetryPkt s (s.tele.toSend.take 120)
    s.tele.collector ≠ 0x00FFFFFF ∧ s.tele.toSend ≠ [] ∧ routeOf s none p = .out 1 ∧ routeOf s none p ≠ .out 0 := by decide +kernel
theorem witness_incident : ∀ due : Bool,
    let tk : BitVec 64 := if due then 4096 else 4095
    let i : Incident := { plot := none, n := 1, last := 0, tail := [] }
    [i].find? (fun j => j.plot == none) = some i ∧ (i.last.toNat + 4096 ≤ tk.toNat ↔ due = true) ∧ i.tail = [] := by decide +kernel
theorem witness_records : (∀ g ∈ State.reset.tele.stages, g.staged = []) ∧ rkLodgeTakeover.cls ≤ 3 ∧ 1 ≤ rkLodgeTakeover.cls ∧
    (ringOf State.reset.tele rkLodgeTakeover.cls).length < ringCap rkLodgeTakeover.cls ∧ rkThermalHold.cls = 0 := by decide +kernel

/-! ### The Lodge -/

/-- Members of confirmation 1 and no twin, with the ids given; the first is this module. -/
def tMembers (ids : List (BitVec 24)) : List Member := ids.map (fun i => ⟨i, false, 1, 0x3FFFF, false⟩)
/-- Plot 0 has a domain of two modules, 0x10 and 0x20; link 0 leads to 0x20. -/
def tDom (d : Domain) : State :=
  setDom (tNet { partner := 0x20, init := List.replicate 8 32, hbMissed := 4 } 1 0x20) 0 { d with id := 1, members := tMembers [0x10, 0x20] }
/-- A LODGE packet of a type, epoch, sender, subject and part. -/
def tLodge (type epoch oidx subj : Nat) : Pkt :=
  { tPkt 9 0 3 0 0 with
    dest := 0xFFFFFE, op := BitVec.ofNat 256 (1 * 2 ^ 224 + type * 2 ^ 220 + epoch * 2 ^ 204 + 0x20 * 2 ^ 180 + oidx * 2 ^ 162 + subj * 2 ^ 144) }
theorem witness_lodge : ∀ t ∈ List.range 8, ∀ e ∈ [6, 7, 8], ∀ st ∈ [1, 2, 3, 4],
    let p := tLodge t e 1 0
    let s := tAt (tDom { state := st }) p
    passes s 0 p ∧ p.opc = opLodge ∧ lType p = t ∧ lEpoch p = e ∧ endsHere s 0 p = true ∧ lodgePlot s p = some 0 ∧
      (plotAt s 0).epoch.toNat = 7 ∧ (domAt s 0).state = st ∧ (domAt s 0).round = none ∧ (domAt s 0).proposed = none ∧ (domAt s 0).probe = none := by
  unfold passes; decide +kernel
theorem witness_lodge_else :
    (let p := { tLodge 0 7 1 0 with dest := 0x20 }
     let s := tAt (tDom { state := 1 }) p
     routeOf s (some 0) p = .out 1 ∧ takes s 1 p ∧ passes s 0 p) ∧
    (let p := { tLodge 0 7 1 0 with op := BitVec.ofNat 256 (2 * 2 ^ 224) }
     endsHere (tDom { state := 1 }) 0 p = true ∧ lodgePlot (tDom { state := 1 }) p = none) ∧
    (let d := domAt (tDom { state := 2, proposed := some 1, round := some ⟨8, [0], [], 0⟩, probe := some (1, 0), kept := [⟨7, 0x20, 1, [], [0], some 0⟩] }) 0
     (∃ o, d.proposed = some o ∧ o < lOidx (tLodge 1 8 2 0)) ∧ d.proposed = some (lOidx (tLodge 1 8 1 0)) ∧ (∀ o, d.proposed = some o → lOidx (tLodge 1 8 0 0) < o) ∧
       d.round.map (·.epoch.toNat) = some (lEpoch (tLodge 2 8 1 0)) ∧ d.probe = some (1, 0) ∧ lSubj (tLodge 7 7 1 1) = 1 ∧ lOidx (tLodge 7 7 1 1) = 1 ∧
       (d.kept.filter (fun c => decide (lEpoch (tLodge 5 6 1 0) < c.epoch.toNat))).length = 1) := by unfold passes takes; decide +kernel
theorem witness_suspect : silent (tDom {}) 0x20 = true ∧ (0x20 : BitVec 24) ∉ (tDom {}).lodge.suspects ∧ silent (tDom {}) 0x21 = false ∧
    silent (modLink (tDom {}) 0 (fun x => { x with hbMissed := 3 })) 0x20 = false ∧ (0x20 : BitVec 24) ∈ ([0x20] : List (BitVec 24)) := by decide +kernel
theorem witness_rounds :
    (let d : Domain := { state := 1, accusals := [(1, 0)], accusedTicks := 16 }
     mayRound (tDom d) 0 = true ∧ wardenOf (domAt (tDom d) 0) = some (domAt (tDom d) 0).self ∧ mayRound (tDom { d with state := 3 }) 0 = false ∧
       (tDom d).lodge.takeover.toNat = 16 ∧ wardenOf (domAt (tDom { d with self := 1 }) 0) = some 0) ∧
    (let r : Round := ⟨8, [], [1], 0⟩
     let d := domAt (tDom { state := 2, round := some r }) 0
     allAcked d r = true ∧ allAcked d { r with acks := [] } = false ∧ aliveOf d = [0, 1] ∧
       (aliveOf d).length < 2 * ((aliveOf d).filter (fun i => i == d.self || r.acks.contains i)).length ∧
       ¬ (aliveOf d).length < 2 * ((aliveOf d).filter (fun i => i == d.self || ([] : List Nat).contains i)).length ∧
       (∀ i ∈ aliveOf d, ∀ m ∈ d.members[i]?, m.ps = false)) := by decide +kernel
theorem witness_adopt :
    (let c : CommitMsg := ⟨8, 0x20, 1, [1], [0], some 0⟩
     complete c = true ∧ complete { c with parts := [] } = false ∧ (domAt (tDom { coming := some c }) 0).self ∉ c.dead ∧ 0 ∈ ({ c with dead := [0] } : CommitMsg).dead ∧
       (plotAt (tDom { coming := some c }) 0).pendHold = 0 ∧ (domAt (tDom {}) 0).coming = none) ∧
    (∀ t ∈ [15, 16], (domAt (tDom { probe := some (1, BitVec.ofNat 64 (100 - t)) }) 0).probe = some (1, BitVec.ofNat 64 (100 - t))) := by decide +kernel

/-- A table of two modules at epoch 5, whose own entry is the first, and whose last bit is spare. -/
def tTable (spare : Nat) : List Byte :=
  natLe 16 (1 * 2 ^ 96 + 2 * 2 ^ 78 + 0 * 2 ^ 60 + 5 * 2 ^ 44) ++ [0x10, 0x20].flatMap (fun e => natLe 8 (e * 2 ^ 40 + 1 * 2 ^ 37 + 0x3FFFF * 2 ^ 19 + spare))
theorem witness_table : ∀ st ∈ [0, 1],
    let s := tWith { loadState := st } .fm
    let s := { s with route := { s.route with self := 0x10 } }
    admits s (tAsk 32) 0x9100 0x02 false ∧ wholeValue s (tAsk 32) 0x9100 0x02 2097160 ⟨0, true, tTable 0⟩ (tTable 0) ∧ tableOk s (tTable 0) = true ∧
      tableOk s (tTable 1) = false ∧ (plotAt s (sessAt s 0).domSel.toNat).loadState = st := by
  intro st h
  simp only [List.mem_cons, List.not_mem_nil, or_false] at h
  obtain rfl | rfl := h <;>
    exact ⟨by unfold admits; decide +kernel, tWhole _ _ _ _ _ _ (by decide +kernel) (by decide +kernel), by decide +kernel, by decide +kernel, by decide +kernel⟩
theorem witness_claims :
    let s (d : Domain) (n : Nat) : State := tReady (tDom d) { tRole .po n with domSel := 0 }
    admits (s { state := 1 } 0) (tAsk 4) 0x9100 0x09 true ∧ ownsPlot (tRole .po 0) 0 = true ∧ admits (s { state := 1 } 1) (tAsk 4) 0x9100 0x09 true ∧
      ownsPlot (tRole .po 1) 0 = false ∧ field (0x00040000 : BitVec 32) 18 13 ≠ 0 ∧ field (0x80000001 : BitVec 32) 18 13 = 0 ∧ field (0x80000001 : BitVec 32) 0 18 = 1 ∧
      bitAt (0x80000001 : BitVec 32) 31 = true ∧ bitAt (0x00000001 : BitVec 32) 31 = false ∧ (domAt (s { state := 1, dead := [1] } 0) 0).members.length = 2 ∧
      1 ∈ (domAt (s { state := 1, dead := [1] } 0) 0).dead ∧ ((domAt (s { state := 1 } 0) 0).members[1]?).isSome = true ∧ (domAt (s {} 0) 0).self = 0 := by
  unfold admits; decide +kernel

/-! ### Power, resets, sundial and tick -/

/-- Main power on or off, at a start-up step. -/
def tPow (p : Power) : State := { State.reset with power := p, sd := { State.reset.sd with ticks := 5000 } }
theorem witness_power :
    (tPow {}).power.pg = false ∧ (tPow { pg := true }).power.pg = true ∧ ({ reached := 3, hotJunction := true } : StartEnv).reached = 3 ∧
    3 ≤ ({ reached := 3 } : StartEnv).reached ∧ 3 < ({ reached := 4, katFail := true } : StartEnv).reached ∧ ({ reached := 2 } : StartEnv).reached < 3 ∧
    10 < ({} : StartEnv).reached ∧ ({} : StartEnv).katFail = false ∧ ({} : StartEnv).slotA = .good 0 0 ∧ (tPow {}).gate.rollback.toNat ≤ (0 : BitVec 32).toNat ∧
    (∀ k ∈ [3, 10], 3 ≤ (tPow { pg := true, step := k }).power.step ∧ (tPow { pg := true, step := k }).power.step ≤ 10 ∧
      (tPow { pg := true, step := k }).power.stopped = false) ∧
    10 < (tPow { pg := true, step := 11 }).power.step ∧ kioskReady (tPow { pg := true, step := 11 }) = true := by decide +kernel
theorem witness_voltage : ∀ v ∈ [43999, 44000, 47999, 48000, 60000, 60001, 62000, 62001],
    ((44000 ≤ (BitVec.ofNat 32 v).toNat ∧ (BitVec.ofNat 32 v).toNat < 48000) ∨ (60000 < (BitVec.ofNat 32 v).toNat ∧ (BitVec.ofNat 32 v).toNat ≤ 62000) ↔
      v ∈ [44000, 47999, 60001, 62000]) := by decide +kernel
theorem witness_reports :
    (∀ t, (some (904 : BitVec 64)) = some t → t.toNat + 4096 ≤ (tPow {}).sd.ticks.toNat) ∧
    ¬ (∀ t, (some (905 : BitVec 64)) = some t → t.toNat + 4096 ≤ (tPow {}).sd.ticks.toNat) ∧
    (40000 : Int) < 40001 ∧ (2999 : BitVec 32).toNat < 3000 ∧ ¬ (3000 : BitVec 32).toNat < 3000 := by
  refine ⟨fun t h => ?_, fun h => ?_, by decide, by decide, by decide⟩
  · cases h; decide
  · exact absurd (h 905 rfl) (by decide)
theorem witness_temperatures :
    [(⟨67, 105001⟩ : Reading)].find? (fun r => decide (r.sensor < 68) && decide (105000 < r.mC)) = some ⟨67, 105001⟩ ∧
    [(⟨67, 105000⟩ : Reading), ⟨68, 110000⟩].find? (fun r => decide (r.sensor < 68) && decide (105000 < r.mC)) = none ∧
    (⟨0, 115000⟩ : Reading).mC ≤ 115000 ∧ 115000 < (⟨0, 115001⟩ : Reading).mC ∧ (tPow { hot := true }).power.hot = true := by decide +kernel
theorem witness_resets : ∀ b : Bool,
    let s := tReady (tState { testing := b }) (tRole .fm 0)
    let u := selEng (sessAt s 0)
    admits s (tAsk 1) 0xA000 0x20 true ∧ gateObj s (tAsk 1) 0xA000 0x20 true true = .pass ∧ (sessAt s 0).role ≠ .po ∧ s.power.warm = none ∧
      ownsPav s (sessAt s 0) u.pav = true ∧ (pavAt s u.pav).testing = b ∧ ownsPav (tReady State.reset (tRole .po 1)) (tRole .po 1) 0 = false ∧
      admits (tReady State.reset (tRole .po 1)) (tAsk 1) 0xA000 0x20 true ∧ ({ s.power with warm := some {} } : Power).warm ≠ none := by
  unfold admits; decide +kernel
theorem witness_cold_reset : gateObj (tReady State.reset (tRole .fm 0)) (tAsk 2) 0xA000 0x20 true true = .refuse stKioskType ∧
    gateObj State.reset (tAsk 1) 0xA000 0x20 true true = .discard ∧ gateObj (tReady State.reset (tRole .po 0)) (tAsk 1) 0xA000 0x20 true true = .pass := by decide +kernel
theorem witness_update : ∀ u : Bool,
    let s := tReady { State.reset with power := { State.reset.power with update := if u then 2 else 0 } } (tRole .so 0)
    admits s (tAsk 1) 0xA000 0x30 false ∧ wholeValue s (tAsk 1) 0xA000 0x30 33554432 ⟨0, true, [1]⟩ [1] ∧ (s.power.update = 2 ↔ u = true) ∧
      slotStatus s (.good 2 0) = none ∧ slotStatus s .badSignature = some stImageAuthFail ∧ slotStatus s .rollback = some stRollback := by
  intro u
  cases u <;>
    exact ⟨by unfold admits; decide +kernel, tWhole _ _ _ _ _ _ (by decide +kernel) (by decide +kernel), by decide +kernel, by decide +kernel, by decide +kernel,
      by decide +kernel⟩

/-- Link 0 is ACTIVE and the parent's. -/
def tSun (sd : Sundial) : State := { setLink State.reset 0 { state := 6 } with sd := { sd with parent := 0 } }
/-- A set of the period in force that echoes 0, received at 36 cycles of hold. -/
def tSet : SundialBody := ⟨9, 1, 0, 0, 32, 0, 0x10, 1, 2, 0⟩
theorem witness_sundial :
    active (tSun {}) 0 = true ∧ parentLink (tSun {}) = some 0 ∧ parentLink (tSun {}) ≠ some 1 ∧ active (tSun {}) 1 = false ∧ (tSet.period = (tSun {}).sd.periodEff) ∧
    tSet.echots ≠ BitVec.allOnes 64 ∧ ({ tSet with period := 0 } : SundialBody).period ≠ (tSun {}).sd.periodEff ∧ (tSun { align := 4 }).sd.align = 4 ∧
    (tSun { excursion := some 30 }).sd.excursion = some 30 := by decide +kernel
/-- The error that a set of that round trip and reception phase gives, in ns: at and just beyond each limit. -/
theorem witness_sundial_errors : ∀ e ∈ [(20, 0), (21, 0), (71, 0), (72, 0)],
    let b := { tSet with err := BitVec.ofNat 16 e.1 }
    ((reducePhase (cycles10 (tSun {}).sd.periodEff.toNat) (10 * b.phase.toNat + 5 * (((0 : BitVec 64) - b.echots).toNat - b.hold.toNat) - 10 * 32)).tdiv 18 + b.err.toInt).natAbs = e.1 := by
  decide +kernel
theorem witness_holdover :
    ((parentLink (tSun { missed := 4, align := 2 })).isSome = true ∧ 4 ≤ (tSun { missed := 4, align := 2 }).sd.missed ∧ (tSun { missed := 4, align := 2 }).sd.align = 2) ∧
    (tSun { missed := 3 }).sd.missed < 4 ∧
    holdoverLimit (tSun {}).sd.periodEff.toNat < (tSun { align := 3, holdover := BitVec.ofNat 32 (holdoverLimit 1 + 1) }).sd.holdover.toNat ∧
    ¬ holdoverLimit (tSun {}).sd.periodEff.toNat < (tSun { align := 3, holdover := BitVec.ofNat 32 (holdoverLimit 1) }).sd.holdover.toNat ∧
    71 < (tSun { err := 72, align := 1 }).sd.err.toInt.natAbs ∧ ¬ 71 < (tSun { err := -71, align := 1 }).sd.err.toInt.natAbs := by decide +kernel
theorem witness_tick :
    (tPow { pg := true }).power.pg = true ∧ ({ ticking := true } : Sundial).ticking = true ∧ (plotAt (tPlot { pendHold := 8 }) 31).pendHold ≠ 0 ∧
    (∀ c ∈ [PlotCmd.start, .suspend, .resume, .release], (plotAt (tPlot { pendingCmd := some c }) 31).pendingCmd = some c) ∧
    (tPow { warm := some {} }).power.warm = some {} ∧ ({ periodSet := true } : Sundial).periodSet = true ∧
    (∀ k ∈ [(1, 5), (5, 1), (6, 3)], shardCmdOk (shardAt (tShard { cmds := [k.1], state := k.2 } .fm) 0) k.1 = true ∧
      (shardAt (tShard { cmds := [k.1], state := k.2 } .fm) 0).cmds = [k.1]) := by decide +kernel

/-- R404: of the sets on ACTIVE links with STATE 2 and HOPS below 0xFF, the lowest HOPS and then the lowest link; with none, frame 0. -/
theorem test_start_follows_lowest_hops :
    let s : State := { State.reset with net := { State.reset.net with links := [(1, { state := 6 }), (4, { state := 6 })] } }
    let ps : List PhaseSet := [⟨0, 0, 2, 9, 1⟩, ⟨4, 3, 2, 7, -5⟩, ⟨1, 3, 2, 6, 8⟩, ⟨1, 1, 1, 5, 2⟩]
    (step9 s { phase := ps }).sd.phaseStep = 8 ∧ (step9 s { phase := ps }).sd.nextFrame = some 7 ∧
      (step9 s { phase := ps.take 1 }).sd.nextFrame = none := by decide +kernel

end Sys2Proof.Tests
end

section
/-! PROOF. What a message that this module sends can change, and what becomes of a launch block that its window admits (R4, R296). -/

namespace Sys2Proof.Machine

open Sys2Proof.Safety

/-! ### The link a packet came in on -/

/-- Accepting a packet's key generation changes its link, or nothing (R301). -/
theorem opened_cases (s : State) (l : Nat) (p : Pkt) : opened s l p = s ∨ ∃ x, opened s l p = setLink s l x := by
  unfold opened
  split
  · exact .inr ⟨_, rfl⟩
  · exact .inl rfl

/-- Counting a packet against its pair changes its link, or nothing (R296). -/
theorem countPair_cases (s : State) (l : Nat) (p : Pkt) : countPair s l p = s ∨ ∃ x, countPair s l p = setLink s l x := by
  simp only [countPair]
  split
  · exact .inl rfl
  · split
    · exact .inr ⟨_, rfl⟩
    · exact .inr ⟨_, rfl⟩

/-! ### What the ports may change -/

/-- `t` differs from `s` at most in what the ports, the router, the gate, the plots and the telemetry hold: no data, buffer, signal or
descriptor is touched. -/
def portsOnly (s t : State) : Prop :=
  t = { s with net := t.net, route := t.route, gate := t.gate, plots := t.plots, tele := t.tele }

theorem portsOnly_refl (s : State) : portsOnly s s := rfl

theorem portsOnly_trans {s t u : State} (hst : portsOnly s t) (htu : portsOnly t u) : portsOnly s u := by
  unfold portsOnly at *
  rw [htu, hst]

theorem portsOnly_setLink (s : State) (l : Nat) (x : Link) : portsOnly s (setLink s l x) := rfl
theorem portsOnly_modLink (s : State) (l : Nat) (f : Link → Link) : portsOnly s (modLink s l f) := rfl
theorem portsOnly_raiseHold (s : State) (n cause : Nat) : portsOnly s (raiseHold s n cause) := rfl
theorem portsOnly_emit (s : State) (k : RecKind) (src : Src) (pl : Option Nat) (args : List (Nat × Nat)) :
    portsOnly s (emit s k src pl args) := rfl

theorem portsOnly_raiseHolds (s : State) (ns : List Nat) (cause : Nat) :
    portsOnly s (ns.foldl (fun s n => raiseHold s n cause) s) := by
  induction ns generalizing s with
  | nil => exact portsOnly_refl s
  | cons n ns ih => exact portsOnly_trans (portsOnly_raiseHold s n cause) (ih _)

theorem portsOnly_containedHold (s : State) (ns : List Nat) (cause : Nat) : portsOnly s (containedHold s ns cause) := by
  unfold containedHold
  split
  · exact portsOnly_refl s
  · exact portsOnly_trans (t := { s with tele := { s.tele with contained := s.tele.contained + 1 } }) rfl (portsOnly_raiseHolds _ ns cause)

theorem portsOnly_sayOnce (s : State) (l : Nat) (k : RecKind) (src : Src) (pl : Option Nat) (args : List (Nat × Nat)) :
    portsOnly s (sayOnce s l k src pl args) := by
  unfold sayOnce
  split
  · exact portsOnly_refl s
  · exact portsOnly_trans (portsOnly_modLink s l _) (portsOnly_emit _ k src pl args)

theorem portsOnly_handOff (s : State) (l source : Nat) (p : Pkt) : portsOnly s (handOff s l source p) := by
  unfold handOff
  split
  · exact portsOnly_modLink s l _
  · split
    · exact portsOnly_trans (t := emit { s with gate := { s.gate with violations := s.gate.violations + 1 } } _ _ _ _) rfl
        (portsOnly_containedHold _ _ _)
    · exact portsOnly_modLink s l _

/-- However a message fares on its way out, it changes nothing but the ports and what counts and reports its loss. -/
theorem portsOnly_sendOut (s : State) (src : Option Nat) (p : Pkt) : portsOnly s (sendOut s src p) := by
  unfold sendOut
  split
  case h_1 => exact portsOnly_handOff s _ _ p
  case h_2 =>
    refine portsOnly_trans (t := { s with route := { s.route with noRoute := s.route.noRoute + 1 } }) rfl ?_
    cases src with
    | none => exact portsOnly_emit _ _ _ _ _
    | some l => exact portsOnly_sayOnce _ _ _ _ _ _
  case h_3 =>
    refine portsOnly_trans (t := { s with route := { s.route with turns := s.route.turns + 1 } }) rfl ?_
    cases src with
    | none => exact portsOnly_refl _
    | some l => exact portsOnly_sayOnce _ _ _ _ _ _
  case h_4 => exact portsOnly_refl s

theorem portsOnly_opened (s : State) (l : Nat) (p : Pkt) : portsOnly s (opened s l p) := by
  rcases opened_cases s l p with h | ⟨x, h⟩
  · rw [h]; exact portsOnly_refl s
  · rw [h]; exact portsOnly_setLink s l x

theorem portsOnly_countPair (s : State) (l : Nat) (p : Pkt) : portsOnly s (countPair s l p) := by
  rcases countPair_cases s l p with h | ⟨x, h⟩
  · rw [h]; exact portsOnly_refl s
  · rw [h]; exact portsOnly_setLink s l x

theorem portsOnly_oweAck (s : State) (l : Nat) (p : Pkt) : portsOnly s (oweAck s l p) := portsOnly_modLink s l _

/-- The parts of the state in which a collective's data stands are as they were. -/
theorem portsOnly_data {s t : State} (h : portsOnly s t) :
    t.coll = s.coll ∧ t.hbm = s.hbm ∧ t.pavs = s.pavs ∧ t.pools = s.pools ∧ t.sigs = s.sigs := by
  unfold portsOnly at h
  rw [h]
  exact ⟨rfl, rfl, rfl, rfl, rfl⟩

/-! ### A packet within its window -/

/-- No route depends on the state of a link. -/
theorem endsHere_setLink (s : State) (k : Nat) (x : Link) (l : Nat) (p : Pkt) : endsHere (setLink s k x) l p = endsHere s l p := rfl

theorem endsHere_opened (s : State) (l : Nat) (p : Pkt) : endsHere (opened s l p) l p = endsHere s l p := by
  rcases opened_cases s l p with h | ⟨x, h⟩
  · rw [h]
  · rw [h, endsHere_setLink]

theorem endsHere_countPair (s : State) (l : Nat) (p : Pkt) : endsHere (countPair s l p) l p = endsHere s l p := by
  rcases countPair_cases s l p with h | ⟨x, h⟩
  · rw [h]
  · rw [h, endsHere_setLink]

/-- The window of a pair does not depend on the key generation of its link (R296, R301). -/
theorem police_opened (s : State) (l : Nat) (p : Pkt) : police (opened s l p) l p = police s l p := by
  unfold opened
  split
  · unfold police
    rw [linkAt_setLink_same]
    rfl
  · rfl

theorem policed_pass {s : State} {l : Nat} {p : Pkt} (act : State → State) (h : police s l p = .pass) :
    policed s l p act = act (countPair s l p) := by simp only [policed, h]

/-! ### B2_LAUNCH -/

theorem exec_b2Launch (l : Nat) (p : Pkt) (s : State) :
    exec (.b2Launch l p) s = done (onPacket s l p [opB2Launch] (fun s => policed s l p (fun s => launchPass s l p))) := rfl

/-- A launch block that passes the checks and is within its pair's window is counted and acted on (R290, R296). -/
theorem exec_b2Launch_admitted {s : State} {l : Nat} {p : Pkt} (hpass : passes s l p) (hopc : p.opc = opB2Launch)
    (hwin : police s l p = .pass) :
    exec (.b2Launch l p) s = .next (settle (launchPass (countPair (opened s l p) l p) l p)) := by
  have hin : [opB2Launch].contains p.opc = true := by rw [hopc]; rfl
  rw [exec_b2Launch, onPacket_passes _ hpass hin, policed_pass _ ((police_opened s l p).trans hwin)]
  rfl

theorem launchPass_here {s : State} {l : Nat} {p : Pkt} (h : endsHere s l p = true) :
    launchPass s l p = freeRx (launchHere (oweAck s l p) l p) l p := by simp only [launchPass, h, if_true]

/-- Below 4 KiB a launch for a plot in B2 launch mode is refused before its group is looked up (R4). -/
theorem launchHere_small {s : State} {p : Pkt} (l : Nat) (hmode : s.coll.b2Enable.getLsbD p.plot.toNat = true)
    (hsize : (launchOf p).bytes < 4096) :
    launchHere s l p = refuseLaunch s p.plot.toNat (launchOf p).tag (p2pSrc p) stB2MinSize := by
  simp only [launchHere, hmode, hsize, Bool.not_true, Bool.false_eq_true, if_false, if_true]

/-- Settles O32: the checks and the window admit the launch, its size refuses it, and what the refusal sends stays within the ports. -/
theorem smallB2LaunchIsRefused : Obligations.SmallB2LaunchIsRefused := by
  unfold Obligations.SmallB2LaunchIsRefused
  intro s l p hpass hopc hends hwin hmode hsize n tag owed told t
  have howed : portsOnly s owed :=
    portsOnly_trans (portsOnly_trans (portsOnly_opened s l p) (portsOnly_countPair _ l p)) (portsOnly_oweAck _ l p)
  have htold : portsOnly s told := portsOnly_trans howed (portsOnly_sendOut owed none _)
  obtain ⟨hcoll, -⟩ := portsOnly_data howed
  obtain ⟨hcoll', hdata⟩ := portsOnly_data htold
  refine ⟨?_, hcoll', hdata⟩
  have hhere : endsHere (countPair (opened s l p) l p) l p = true := by rw [endsHere_countPair, endsHere_opened, hends]
  have hrefused : launchHere owed l p = t := by
    rw [launchHere_small l (hcoll ▸ hmode) hsize, refuseLaunch]
    simp only [t, told, n, tag, ← hcoll']
  rw [exec_b2Launch_admitted hpass hopc hwin, launchPass_here hhere, hrefused]

end Sys2Proof.Machine
end

section
/-! PROOF. What answers a Kiosk write or command that passes its checks. An object's own condition is met after the request has been heard;
where it neither reads nor writes the Kiosk, it may be evaluated in the state before (R352, R357, R359). -/

namespace Sys2Proof.Machine

open Sys2Proof.Safety

/-! ### The Kiosk apart from the rest of the state -/

/-- The state with this Kiosk in place of its own. -/
def withKiosk (s : State) (k : Kiosk) : State := { s with kiosk := k }

section WithKiosk

variable (s : State) (k : Kiosk)

@[simp] theorem plotAt_withKiosk (n : Nat) : plotAt (withKiosk s k) n = plotAt s n := rfl
@[simp] theorem plotOfPav_withKiosk (i : Nat) : plotOfPav (withKiosk s k) i = plotOfPav s i := rfl
@[simp] theorem modPav_withKiosk (i : Nat) (f : Pavilion → Pavilion) : modPav (withKiosk s k) i f = withKiosk (modPav s i f) k := rfl
@[simp] theorem modEng_withKiosk (u : EngRef) (f : Engine → Engine) : modEng (withKiosk s k) u f = withKiosk (modEng s u f) k := rfl
@[simp] theorem modPlot_withKiosk (n : Nat) (f : Plot → Plot) : modPlot (withKiosk s k) n f = withKiosk (modPlot s n f) k := rfl

end WithKiosk

/-- A run of operations that leave the Kiosk alone leaves it alone. -/
theorem foldl_withKiosk {α : Type} {f : State → α → State} {k : Kiosk} (h : ∀ s a, f (withKiosk s k) a = withKiosk (f s a) k)
    (l : List α) (s : State) : l.foldl f (withKiosk s k) = withKiosk (l.foldl f s) k :=
  List.foldl_hom (fun s => withKiosk s k) h

/-- The condition of an object neither reads nor writes the Kiosk, whether it answers a status or a new state. -/
def conditionApart (f : State → Except U16 State) : Prop := ∀ s k, f (withKiosk s k) = (f s).map (fun t => withKiosk t k)

/-- What such a condition answers leaves the Kiosk as it was. -/
theorem withKiosk_of_conditionApart {f : State → Except U16 State} (hf : conditionApart f) {s w : State} (hok : f s = .ok w) :
    withKiosk w s.kiosk = w := by
  have h : f s = (f s).map (fun t => withKiosk t s.kiosk) := hf s s.kiosk
  rw [hok] at h
  exact (Except.ok.inj h).symm

/-- The operation moves the Kiosk alone, to what the Kiosk alone decides. -/
def withinKiosk (h : State → State) : Prop := ∀ s t, h (withKiosk t s.kiosk) = withKiosk t (h s).kiosk

/-- A condition apart from the Kiosk may be met before or after what moves the Kiosk alone. -/
theorem condition_comm {f : State → Except U16 State} (hf : conditionApart f) {h : State → State} (hh : withinKiosk h) (s : State) :
    f (h s) = (f s).map h := by
  have hs : h s = withKiosk s (h s).kiosk := hh s s
  rw [hs, hf]
  cases hr : f s with
  | error st => rfl
  | ok w =>
    have hw : h w = withKiosk w (h s).kiosk := by rw [← hh, withKiosk_of_conditionApart hf hr]
    simp only [Except.map, hw]

/-! ### Hearing a request -/

/-- Hearing a request moves the Kiosk alone (R355). -/
theorem withinKiosk_heardReq (q : KReq) : withinKiosk (fun s => heardReq s q) := by
  intro s t
  have hgate : gateSession (withKiosk t s.kiosk) q = gateSession s q := rfl
  simp only [heardReq, hgate]
  split
  · rfl
  · rfl

/-- So does hearing the segment that completes a value (R357). -/
theorem withinKiosk_heardReq_unstaged (q : KReq) : withinKiosk (fun s => heardReq (unstaged s q) q) :=
  fun s t => withinKiosk_heardReq q (unstaged s q) t

/-- Hearing a request and dropping its session's staged segments may change places (R357). -/
theorem unstaged_heardReq (s : State) (q : KReq) : unstaged (heardReq s q) q = heardReq (unstaged s q) q := by
  have hgate : gateSession (unstaged s q) q = gateSession s q := by
    simp only [gateSession, unstaged, sessAt_modSess_same]
  unfold heardReq
  rw [hgate]
  split
  · simp only [unstaged, modSess, sessAt_setSess_same, setSess_setSess]
    congr 1
    split <;> rfl
  · rfl

/-- Hearing a request leaves the staged segments (R357). -/
theorem heardReq_staging (s : State) (q : KReq) : (sessAt (heardReq s q) q.slot).staging = (sessAt s q.slot).staging := by
  unfold heardReq
  split
  · rw [sessAt_modSess_same]
    split <;> rfl
  · rfl

/-- Hearing a request and counting a change of a DOMAIN object may change places (R355, Table 15.5). -/
theorem bumpChange_heardReq (s : State) (q : KReq) (index sub : Nat) :
    bumpChange (heardReq s q) index sub = heardReq (bumpChange s index sub) q := by
  have hgate : gateSession (bumpChange s index sub) q = gateSession s q := rfl
  unfold heardReq
  rw [hgate]
  split
  · rfl
  · rfl

/-! ### Writes and commands -/

section KioskCmd

variable {s : State} {q : KReq} {c : Instr} {index sub : Nat} {command : Bool} {f : State → Session → Except U16 State}
  (hexec : exec c s = done (kioskCmd s q index sub command f)) (hadmits : admits s q index sub command)
  (hf : ∀ x, conditionApart (fun s => f s x))

include hexec hadmits hf

/-- An admitted write or command whose object's condition answers a state has that effect. -/
theorem okWith_of_kioskCmd {w : State} (hok : f s (sessAt s q.slot) = .ok w) : okWith s c q w := by
  have hheard : f (heardReq s q) (sessAt s q.slot) = .ok (heardReq w q) :=
    (condition_comm (hf _) (withinKiosk_heardReq q) s).trans (congrArg _ hok)
  refine ⟨_, hexec, ?_⟩
  rw [kioskCmd, kioskReq_pass _ hadmits, hheard]
  exact accepted_answer w q

/-- An admitted write or command whose object's condition answers a status is refused with it. -/
theorem notOk_of_kioskCmd {st : U16} (herr : f s (sessAt s q.slot) = .error st) (hst : st ≠ stOk) : notOk s c q st := by
  have hheard : f (heardReq s q) (sessAt s q.slot) = .error st :=
    (condition_comm (hf _) (withinKiosk_heardReq q) s).trans (congrArg _ herr)
  refine ⟨_, hexec, ?_⟩
  rw [kioskCmd, kioskReq_pass _ hadmits, hheard]
  exact refused_answer s q st hst

end KioskCmd

/-! ### DOMAIN writes -/

/-- The segments of `index:sub` that the session has staged (R357). -/
def stagedFor (x : Session) (index sub : Nat) : List Byte :=
  match x.staging with
  | some g => if g.index.toNat = index ∧ g.sub.toNat = sub then g.data else []
  | none => []

theorem domSegment_eq (s : State) (q : KReq) (index sub limit : Nat) (d : DomSeg) (act : State → List Byte → State) :
    domSegment s q index sub limit d act =
      let staged := stagedFor (sessAt s q.slot) index sub
      if d.offset ≠ staged.length then refuse (unstaged s q) q stDomainSeq
      else if limit < (staged ++ d.data).length then refuse s q stKioskRange
      else if d.last then act (unstaged s q) (staged ++ d.data)
      else accept (modSess s q.slot (fun x => { x with
        staging := some { index := BitVec.ofNat 16 index, sub := BitVec.ofNat 8 sub, data := staged ++ d.data } })) q := rfl

theorem wholeValue_iff (s : State) (q : KReq) (index sub limit : Nat) (d : DomSeg) (all : List Byte) :
    wholeValue s q index sub limit d all ↔
      d.last = true ∧ all.length ≤ limit ∧ all = stagedFor (sessAt s q.slot) index sub ++ d.data ∧
        d.offset = (stagedFor (sessAt s q.slot) index sub).length := by
  constructor
  · rintro ⟨hlast, hlimit, staged, hall, hoffset, hstaged⟩
    have h : staged = stagedFor (sessAt s q.slot) index sub := hstaged
    exact ⟨hlast, hlimit, h ▸ hall, h ▸ hoffset⟩
  · rintro ⟨hlast, hlimit, hall, hoffset⟩
    exact ⟨hlast, hlimit, _, hall, hoffset, rfl⟩

/-- The segment that completes a value hands the whole of it on, the staged segments gone (R357). -/
theorem domSegment_whole {s : State} {q : KReq} {index sub limit : Nat} {d : DomSeg} {all : List Byte}
    (h : wholeValue s q index sub limit d all) (act : State → List Byte → State) :
    domSegment (heardReq s q) q index sub limit d act = act (heardReq (unstaged s q) q) all := by
  obtain ⟨hlast, hlimit, hall, hoffset⟩ := (wholeValue_iff ..).mp h
  have hstaged : stagedFor (sessAt (heardReq s q) q.slot) index sub = stagedFor (sessAt s q.slot) index sub := by
    rw [stagedFor, heardReq_staging]
    rfl
  simp only [domSegment_eq, hstaged, ← hall, ← hoffset, hlast, Nat.not_lt.mpr hlimit, ne_eq, not_true_eq_false, if_false, if_true,
    unstaged_heardReq]

section KioskDom

variable {s : State} {q : KReq} {c : Instr} {index sub limit : Nat} {d : DomSeg} {all : List Byte}
  {f : State → Session → List Byte → Except U16 State}
  (hexec : exec c s = done (kioskDom s q index sub limit d f)) (hadmits : admits s q index sub false)
  (hwhole : wholeValue s q index sub limit d all) (hf : ∀ x, conditionApart (fun s => f s x all))

include hexec hadmits hwhole hf

/-- An admitted DOMAIN write whose object's condition answers a state to the whole value has that effect. -/
theorem domOk_of_kioskDom {w : State} (hok : f s (sessAt s q.slot) all = .ok w) : domOk s c q index sub w := by
  have hheard : f (heardReq (unstaged s q) q) (sessAt s q.slot) all = .ok (heardReq (unstaged w q) q) :=
    (condition_comm (hf _) (withinKiosk_heardReq_unstaged q) s).trans (congrArg _ hok)
  refine ⟨_, hexec, ?_⟩
  rw [kioskDom, kioskReq_pass _ hadmits, domSegment_whole hwhole, hheard]
  dsimp only
  rw [bumpChange_heardReq]
  exact accepted_answer _ q

/-- An admitted DOMAIN write whose object's condition answers a status to the whole value is refused with it. -/
theorem domNotOk_of_kioskDom {st : U16} (herr : f s (sessAt s q.slot) all = .error st) (hst : st ≠ stOk) : domNotOk s c q st := by
  have hheard : f (heardReq (unstaged s q) q) (sessAt s q.slot) all = .error st :=
    (condition_comm (hf _) (withinKiosk_heardReq_unstaged q) s).trans (congrArg _ herr)
  refine ⟨_, hexec, ?_⟩
  rw [kioskDom, kioskReq_pass _ hadmits, domSegment_whole hwhole, hheard]
  exact refused_answer _ q st hst

end KioskDom

end Sys2Proof.Machine
end

section
/-! PROOF. Masks, plot commands, seed and energy budget of a plot: each condition met in the order in which the model tests it (R18, R331,
R332, R334, R341, R369, R397). -/

namespace Sys2Proof.Machine

open Sys2Proof.Safety

/-! ### The bits of a mask -/

theorem bitsSet_any_eq_true {w n : Nat} {v : BitVec w} {p : Nat → Bool} :
    (bitsSet v n).any p = true ↔ ∃ i, i < n ∧ v.getLsbD i = true ∧ p i = true := by
  simp only [bitsSet, List.any_eq_true, List.mem_filter, List.mem_range, and_assoc]

theorem bitsSet_any_eq_false {w n : Nat} {v : BitVec w} {p : Nat → Bool} :
    (bitsSet v n).any p = false ↔ ∀ i, i < n → v.getLsbD i = true → p i = false := by
  simp only [bitsSet, List.any_eq_false, List.mem_filter, List.mem_range, and_imp, Bool.not_eq_true]

/-! ### Why a pavilion mask is refused (R18, R168, R331) -/

/-- The pavilion is failed, or in the mask of another plot. -/
def pavTaken (s : State) (n i : Nat) : Bool :=
  s.failedMap.getLsbD i || (match maskOwner s i with | some m => m != n | none => false)

theorem pavTaken_eq_true {s : State} {n i : Nat} :
    pavTaken s n i = true ↔ s.failedMap.getLsbD i = true ∨ ∃ m, m ≠ n ∧ maskOwner s i = some m := by
  cases h : maskOwner s i <;> simp [pavTaken, h]

theorem pavTaken_eq_false {s : State} {n i : Nat} :
    pavTaken s n i = false ↔ s.failedMap.getLsbD i = false ∧ ∀ m, maskOwner s i = some m → m = n := by
  cases h : maskOwner s i <;> simp [pavTaken, h]

theorem maskRefusal_eq (s : State) (n : Nat) (v : BitVec 256) : maskRefusal s n v =
    if (bitsSet v 256).any (fun i => !s.enableMap.getLsbD i) then some stKioskRange
    else if (plotAt s n).loadState ≠ 0 then some stKioskState
    else if (bitsSet v 256).any (pavTaken s n) then some stKioskState
    else if (bitsSet v 256).any (fun i => !(plotAt s n).pavMask.getLsbD i && (pavAt s i).testing) then some stSelftestBusy
    else none := rfl

section MaskRefusal

variable {s : State} {n : Nat} {v : BitVec 256}

theorem maskRefusal_disabled (h : ∃ i, i < 256 ∧ v.getLsbD i = true ∧ s.enableMap.getLsbD i = false) :
    maskRefusal s n v = some stKioskRange := by
  have hany : (bitsSet v 256).any (fun i => !s.enableMap.getLsbD i) = true := by
    simpa only [bitsSet_any_eq_true, Bool.not_eq_true'] using h
  rw [maskRefusal_eq, if_pos hany]

variable (henabled : ∀ i, i < 256 → v.getLsbD i = true → s.enableMap.getLsbD i = true)

include henabled

theorem maskRefusal_enabled : maskRefusal s n v =
    if (plotAt s n).loadState ≠ 0 then some stKioskState
    else if (bitsSet v 256).any (pavTaken s n) then some stKioskState
    else if (bitsSet v 256).any (fun i => !(plotAt s n).pavMask.getLsbD i && (pavAt s i).testing) then some stSelftestBusy
    else none := by
  have hany : (bitsSet v 256).any (fun i => !s.enableMap.getLsbD i) = false := by
    simpa only [bitsSet_any_eq_false, Bool.not_eq_false'] using henabled
  rw [maskRefusal_eq, hany, if_neg Bool.false_ne_true]

theorem maskRefusal_loaded (hload : (plotAt s n).loadState ≠ 0) : maskRefusal s n v = some stKioskState := by
  rw [maskRefusal_enabled henabled, if_pos hload]

variable (hload : (plotAt s n).loadState = 0)

include hload

theorem maskRefusal_taken
    (h : ∃ i, i < 256 ∧ v.getLsbD i = true ∧ (s.failedMap.getLsbD i = true ∨ ∃ m, m ≠ n ∧ maskOwner s i = some m)) :
    maskRefusal s n v = some stKioskState := by
  have hany : (bitsSet v 256).any (pavTaken s n) = true := by simpa only [bitsSet_any_eq_true, pavTaken_eq_true] using h
  rw [maskRefusal_enabled henabled, if_neg (not_not_intro hload), if_pos hany]

theorem maskRefusal_free
    (h : ∀ i, i < 256 → v.getLsbD i = true → s.failedMap.getLsbD i = false ∧ ∀ m, maskOwner s i = some m → m = n) :
    maskRefusal s n v =
      if (bitsSet v 256).any (fun i => !(plotAt s n).pavMask.getLsbD i && (pavAt s i).testing) then some stSelftestBusy else none := by
  have hany : (bitsSet v 256).any (pavTaken s n) = false := by simpa only [bitsSet_any_eq_false, pavTaken_eq_false] using h
  rw [maskRefusal_enabled henabled, if_neg (not_not_intro hload), hany, if_neg Bool.false_ne_true]

theorem maskRefusal_testing
    (hfree : ∀ i, i < 256 → v.getLsbD i = true → s.failedMap.getLsbD i = false ∧ ∀ m, maskOwner s i = some m → m = n)
    (h : ∃ i, i < 256 ∧ v.getLsbD i = true ∧ (plotAt s n).pavMask.getLsbD i = false ∧ (pavAt s i).testing = true) :
    maskRefusal s n v = some stSelftestBusy := by
  have hany : (bitsSet v 256).any (fun i => !(plotAt s n).pavMask.getLsbD i && (pavAt s i).testing) = true := by
    simpa only [bitsSet_any_eq_true, Bool.and_eq_true, Bool.not_eq_true'] using h
  rw [maskRefusal_free henabled hload hfree, if_pos hany]

theorem maskRefusal_none
    (h : ∀ i, i < 256 → v.getLsbD i = true → s.failedMap.getLsbD i = false ∧ (∀ m, maskOwner s i = some m → m = n) ∧
      ((plotAt s n).pavMask.getLsbD i = true ∨ (pavAt s i).testing = false)) :
    maskRefusal s n v = none := by
  have hfree : ∀ i, i < 256 → v.getLsbD i = true → s.failedMap.getLsbD i = false ∧ ∀ m, maskOwner s i = some m → m = n := by
    intro i hi hv
    obtain ⟨hfailed, howner, -⟩ := h i hi hv
    exact ⟨hfailed, howner⟩
  have hany : (bitsSet v 256).any (fun i => !(plotAt s n).pavMask.getLsbD i && (pavAt s i).testing) = false := by
    rw [bitsSet_any_eq_false]
    intro i hi hv
    obtain ⟨-, -, hseen | htest⟩ := h i hi hv
    · rw [hseen]; rfl
    · rw [htest, Bool.and_false]
  rw [maskRefusal_free henabled hload hfree, hany, if_neg Bool.false_ne_true]

end MaskRefusal

/-! ### A new mask leaves the Kiosk alone -/

/-- What powering the quarters comes to for one of them, `need` being those that some mask needs (R30, R124). -/
def powerQuarter (need : List Nat) (s : State) (j : Nat) : State :=
  if need.contains j then (if s.powered.getLsbD j then s else { s with powering := setBit s.powering j true })
  else { s with powered := setBit s.powered j false, powering := setBit s.powering j false }

theorem powerQuarters_eq (s : State) : powerQuarters s = (List.range 32).foldl (powerQuarter (neededQuarters s)) s := rfl

section WithKiosk

variable (s : State) (k : Kiosk)

@[simp] theorem headStops_withKiosk : headStops (withKiosk s k) = headStops s := rfl
@[simp] theorem neededQuarters_withKiosk : neededQuarters (withKiosk s k) = neededQuarters s := rfl

@[simp] theorem containedHold_withKiosk (ns : List Nat) (cause : Nat) :
    containedHold (withKiosk s k) ns cause = withKiosk (containedHold s ns cause) k := by
  unfold containedHold
  split
  · rfl
  · exact foldl_withKiosk (fun _ _ => rfl) ns { s with tele := { s.tele with contained := s.tele.contained + 1 } }

@[simp] theorem traceCmd_withKiosk (u : EngRef) (c : EngCmd) (st : U16) :
    traceCmd (withKiosk s k) u c st = withKiosk (traceCmd s u c st) k := by
  unfold traceCmd
  split
  · rfl
  · rfl

@[simp] theorem poisonEngine_withKiosk (f : Engine → Engine) (u : EngRef) :
    poisonEngine f (withKiosk s k) u = withKiosk (poisonEngine f s u) k := by
  unfold poisonEngine
  cases h : headStops s u with
  | some c => simp only [headStops_withKiosk, h, modEng_withKiosk, traceCmd_withKiosk]
  | none => simp only [headStops_withKiosk, h, modEng_withKiosk]

@[simp] theorem resetPav_withKiosk (i : Nat) : resetPav (withKiosk s k) i = withKiosk (resetPav s i) k := by
  simp only [resetPav, headStops_withKiosk, foldl_withKiosk (fun s u => poisonEngine_withKiosk s k _ u), modPav_withKiosk,
    plotOfPav_withKiosk, containedHold_withKiosk]
  split
  · rfl
  · rfl

@[simp] theorem powerQuarter_withKiosk (need : List Nat) (j : Nat) :
    powerQuarter need (withKiosk s k) j = withKiosk (powerQuarter need s j) k := by
  simp only [powerQuarter, apply_ite (fun t => withKiosk t k)]
  rfl

@[simp] theorem powerQuarters_withKiosk : powerQuarters (withKiosk s k) = withKiosk (powerQuarters s) k := by
  simp only [powerQuarters_eq, neededQuarters_withKiosk, foldl_withKiosk (fun s j => powerQuarter_withKiosk s k _ j)]

@[simp] theorem setPavMask_withKiosk (n : Nat) (v : BitVec 256) : setPavMask (withKiosk s k) n v = withKiosk (setPavMask s n v) k := by
  simp only [setPavMask, plotAt_withKiosk, foldl_withKiosk (fun s i => resetPav_withKiosk s k i), modPlot_withKiosk,
    powerQuarters_withKiosk]

end WithKiosk

/-! ### What a plot sees once its mask is written (R124) -/

/-- A hold raised of one plot leaves what every plot sees. -/
theorem pavSeen_raiseHold (s : State) (m cause n : Nat) : (plotAt (raiseHold s m cause) n).pavSeen = (plotAt s n).pavSeen := by
  by_cases h : n = m
  · subst h; rw [raiseHold, plotAt_modPlot_same]
  · rw [raiseHold, plotAt_modPlot_ne s _ h]

theorem pavSeen_containedHold (s : State) (ns : List Nat) (cause n : Nat) :
    (plotAt (containedHold s ns cause) n).pavSeen = (plotAt s n).pavSeen := by
  unfold containedHold
  split
  · rfl
  · exact List.foldlRecOn (motive := fun t => (plotAt t n).pavSeen = (plotAt s n).pavSeen) ns _ rfl
      (fun t ht m _ => (pavSeen_raiseHold t m cause n).trans ht)

theorem plotAt_poisonEngine (f : Engine → Engine) (s : State) (u : EngRef) (n : Nat) : plotAt (poisonEngine f s u) n = plotAt s n := by
  unfold poisonEngine traceCmd
  split
  · split <;> rfl
  · rfl

theorem pavSeen_resetPav (s : State) (i n : Nat) : (plotAt (resetPav s i) n).pavSeen = (plotAt s n).pavSeen := by
  have hpoison : plotAt ((engsOfPav i).foldl (poisonEngine (fun e => if e.mode == .fault then engEmpty e else engIdle e)) s) n =
      plotAt s n :=
    List.foldlRecOn (motive := fun t => plotAt t n = plotAt s n) (engsOfPav i) _ rfl
      (fun t ht u _ => (plotAt_poisonEngine _ t u n).trans ht)
  simp only [resetPav]
  split
  · rw [pavSeen_containedHold, plotAt_modPav, hpoison]
  · rw [plotAt_modPav, hpoison]

theorem plotAt_powerQuarters (s : State) (n : Nat) : plotAt (powerQuarters s) n = plotAt s n := by
  refine List.foldlRecOn (motive := fun t => plotAt t n = plotAt s n) (List.range 32) (powerQuarter (neededQuarters s)) rfl
    (fun t ht j _ => ?_)
  unfold powerQuarter
  split
  · split <;> exact ht
  · exact ht

/-- The plot's mask takes its value, and of what it sees only the pavilions of the new mask stay (R124). -/
theorem plotAt_setPavMask (s : State) (n : Nat) (v : BitVec 256) :
    (plotAt (setPavMask s n v) n).pavMask = v ∧ (plotAt (setPavMask s n v) n).pavSeen = (plotAt s n).pavSeen &&& v := by
  simp only [setPavMask, plotAt_powerQuarters, plotAt_modPlot_same, true_and]
  congr 1
  exact List.foldlRecOn (motive := fun t => (plotAt t n).pavSeen = (plotAt s n).pavSeen) _ _ rfl
    (fun t ht i _ => (pavSeen_resetPav t i n).trans ht)

/-! ### The conditions of the writes, each apart from the Kiosk -/

/-- PAVILION_MASK_WRITE's own condition and effect (R18, R124, R168, R331). -/
def pavMaskCondition (n : Nat) (v : BitVec 256) (s : State) : Except U16 State :=
  match maskRefusal s n v with
  | some st => .error st
  | none => .ok (setPavMask s n v)

/-- The ports that a mask adds to its plot's. -/
def portsAdded (s : State) (n : Nat) (v : BitVec 64) : List Nat := (bitsSet v 64).filter (fun j => !(plotAt s n).portMask.getLsbD j)

/-- The plot-relative numbers of the ports it had are as they were: none is dropped, and all that are added come after them (R332). -/
def portsKept (s : State) (n : Nat) (v : BitVec 64) : Bool :=
  (bitsSet (plotAt s n).portMask 64).all (fun j => v.getLsbD j && (portsAdded s n v).all (fun a => decide (j < a)))

/-- PORT_MASK_WRITE's own condition and effect (R321, R332). -/
def portMaskCondition (n : Nat) (v : BitVec 64) (s : State) : Except U16 State :=
  let t := setPlot s n { plotAt s n with portMask := v }
  if (plotAt s n).loadState ≠ 0 ∧ portsKept s n v = false then .error stKioskState
  else if (portsAdded s n v).any (portOver t) then .error stKioskState
  else if (portsAdded s n v).any (fun j => (dieAt s (j / 4)).testing) then .error stSelftestBusy
  else .ok t

/-- The condition and effect of a plot command that a state of its plot allows: it waits for the next tick (R334, R369). -/
def plotCommandCondition (n : Nat) (pc : PlotCmd) (allowed : State → Bool) (s : State) : Except U16 State :=
  if (plotAt s n).pendingCmd.isSome && !(pc == .reset && allowed s) then .error stKioskPending
  else if !allowed s then .error stKioskState
  else .ok (setPlot s n { plotAt s n with pendingCmd := some pc })

/-- JOB_SEED_WRITE's own condition and effect (R341). -/
def jobSeedCondition (n : Nat) (all : List Byte) (s : State) : Except U16 State :=
  if all.length ≠ 16 then .error stKioskRange
  else if 1 < (plotAt s n).state then .error stKioskState
  else .ok (setPlot s n { plotAt s n with seed := BitVec.ofNat 128 (leNat all) })

/-- ENERGY_BUDGET_WRITE's own condition and effect (R397). -/
def energyCondition (n : Nat) (v : BitVec 32) (s : State) : Except U16 State :=
  if moduleEnergy s.sd.period.toNat < v.toNat then .error stKioskRange
  else if (admitted (plotAt s n)).any (fun i => decide (v.toNat < energyPeak i)) then .error stKioskState
  else .ok (setPlot s n { plotAt s n with energy := v })

theorem conditionApart_pavMask (n : Nat) (v : BitVec 256) : conditionApart (pavMaskCondition n v) := by
  intro s k
  have hsame : maskRefusal (withKiosk s k) n v = maskRefusal s n v := rfl
  simp only [pavMaskCondition, hsame, setPavMask_withKiosk]
  split
  · rfl
  · rfl

theorem conditionApart_portMask (n : Nat) (v : BitVec 64) : conditionApart (portMaskCondition n v) := by
  intro s k
  simp only [portMaskCondition, apply_ite (Except.map _)]
  rfl

theorem conditionApart_plotCommand {allowed : State → Bool} (h : ∀ s k, allowed (withKiosk s k) = allowed s) (n : Nat) (pc : PlotCmd) :
    conditionApart (plotCommandCondition n pc allowed) := by
  intro s k
  simp only [plotCommandCondition, h, apply_ite (Except.map _)]
  rfl

theorem conditionApart_jobSeed (n : Nat) (all : List Byte) : conditionApart (jobSeedCondition n all) := by
  intro s k
  simp only [jobSeedCondition, apply_ite (Except.map _)]
  rfl

theorem conditionApart_energy (n : Nat) (v : BitVec 32) : conditionApart (energyCondition n v) := by
  intro s k
  simp only [energyCondition, apply_ite (Except.map _)]
  rfl

/-! ### What the writes answer -/

section Answers

variable {s : State} {q : KReq} {n : Nat} {st : U16}

theorem notOk_pavilionMaskWrite {v : BitVec 256} (hadmits : admits s q (0x4000 + n) 0x02 false) (h : maskRefusal s n v = some st)
    (hst : st ≠ stOk) : notOk s (.pavilionMaskWrite q n v) q st :=
  notOk_of_kioskCmd (f := fun s _ => pavMaskCondition n v s) rfl hadmits (fun _ => conditionApart_pavMask n v)
    (by simp only [pavMaskCondition, h]) hst

theorem okWith_pavilionMaskWrite {v : BitVec 256} (hadmits : admits s q (0x4000 + n) 0x02 false) (h : maskRefusal s n v = none) :
    okWith s (.pavilionMaskWrite q n v) q (setPavMask s n v) :=
  okWith_of_kioskCmd (f := fun s _ => pavMaskCondition n v s) rfl hadmits (fun _ => conditionApart_pavMask n v)
    (by simp only [pavMaskCondition, h])

theorem notOk_portMaskWrite {v : BitVec 64} (hadmits : admits s q (0x4000 + n) 0x03 false) (h : portMaskCondition n v s = .error st)
    (hst : st ≠ stOk) : notOk s (.portMaskWrite q n v) q st :=
  notOk_of_kioskCmd (f := fun s _ => portMaskCondition n v s) rfl hadmits (fun _ => conditionApart_portMask n v) h hst

theorem okWith_portMaskWrite {v : BitVec 64} {w : State} (hadmits : admits s q (0x4000 + n) 0x03 false)
    (h : portMaskCondition n v s = .ok w) : okWith s (.portMaskWrite q n v) q w :=
  okWith_of_kioskCmd (f := fun s _ => portMaskCondition n v s) rfl hadmits (fun _ => conditionApart_portMask n v) h

/-- A plot command is refused while another waits, unless it is a RESET, and in a state that does not allow it; else it waits
(R334, R369). -/
theorem plotCommand_answers {c : Instr} {pc : PlotCmd} {allowed : State → Bool} {b : Bool} (hadmits : admits s q (0x4000 + n) 0x10 true)
    (hexec : exec c s = done (plotCommand s q n pc allowed)) (hapart : ∀ s k, allowed (withKiosk s k) = allowed s) (hb : allowed s = b) :
    let p := plotAt s n
    (p.pendingCmd ≠ none → pc ≠ .reset → notOk s c q stKioskPending) ∧
    (p.pendingCmd = none → b = false → notOk s c q stKioskState) ∧
    (p.pendingCmd = none ∨ pc = .reset → b = true → okWith s c q (setPlot s n { p with pendingCmd := some pc })) := by
  have hcmd : exec c s = done (kioskCmd s q (0x4000 + n) 0x10 true (fun s _ => plotCommandCondition n pc allowed s)) := hexec
  have hf := fun _ : Session => conditionApart_plotCommand hapart n pc
  subst hb
  refine ⟨fun hpend hpc => notOk_of_kioskCmd hcmd hadmits hf ?_ (by decide),
    fun hpend hno => notOk_of_kioskCmd hcmd hadmits hf ?_ (by decide),
    fun hpend hyes => okWith_of_kioskCmd hcmd hadmits hf ?_⟩
  · have hsome : (plotAt s n).pendingCmd.isSome = true := Option.isSome_iff_ne_none.mpr hpend
    simp [plotCommandCondition, hsome, hpc]
  · simp [plotCommandCondition, hpend, hno]
  · rcases hpend with hpend | rfl
    · simp [plotCommandCondition, hpend, hyes]
    · simp [plotCommandCondition, hyes]

end Answers

/-! ### The obligation -/

/-- Settles O45: each write's condition is met in the order of the model's tests, and its effect is that of the state before the request. -/
theorem plotObjects : Obligations.PlotObjects := by
  unfold Obligations.PlotObjects
  intro s q n p
  refine ⟨?mask, ?ports, ?commands, ?seed, ?energy⟩
  case mask =>
    intro v hadmits c
    refine ⟨fun h => notOk_pavilionMaskWrite hadmits (maskRefusal_disabled h) (by decide), fun henabled => ⟨?_, ?_, ?_, ?_⟩⟩
    · exact fun hload => notOk_pavilionMaskWrite hadmits (maskRefusal_loaded henabled hload) (by decide)
    · exact fun hload h => notOk_pavilionMaskWrite hadmits (maskRefusal_taken henabled hload h) (by decide)
    · exact fun hload hfree h => notOk_pavilionMaskWrite hadmits (maskRefusal_testing henabled hload hfree h) (by decide)
    · exact fun hload h => ⟨okWith_pavilionMaskWrite hadmits (maskRefusal_none henabled hload h), plotAt_setPavMask s n v⟩
  case ports =>
    intro v hadmits t added kept
    have hcond : portMaskCondition n v s =
        if p.loadState ≠ 0 ∧ kept = false then .error stKioskState
        else if added.any (portOver t) then .error stKioskState
        else if added.any (fun j => (dieAt s (j / 4)).testing) then .error stSelftestBusy
        else .ok t := rfl
    refine ⟨fun hload hkept => notOk_portMaskWrite hadmits (hcond.trans (if_pos ⟨hload, hkept⟩)) (by decide), fun hfits => ?_⟩
    have hmay : ¬ (p.loadState ≠ 0 ∧ kept = false) := by
      rintro ⟨hload, hkept⟩
      rcases hfits with h | h
      · exact hload h
      · exact Bool.false_ne_true (hkept.symm.trans h)
    rw [if_neg hmay] at hcond
    refine ⟨fun hover => notOk_portMaskWrite hadmits (by rw [hcond, if_pos hover]) (by decide), fun hover h => ?_, fun hover h => ?_⟩
    · have htest : added.any (fun j => (dieAt s (j / 4)).testing) = true := List.any_eq_true.mpr h
      exact notOk_portMaskWrite hadmits (by rw [hcond, hover, if_neg Bool.false_ne_true, if_pos htest]) (by decide)
    · have htest : added.any (fun j => (dieAt s (j / 4)).testing) = false :=
        List.any_eq_false.mpr (fun j hj => Bool.not_eq_true _ ▸ h j hj)
      exact okWith_portMaskWrite hadmits (by rw [hcond, hover, htest]; rfl)
  case commands =>
    intro hadmits
    refine List.forall_mem_cons.mpr ⟨?start, List.forall_mem_cons.mpr ⟨?suspend, List.forall_mem_cons.mpr ⟨?resume,
      List.forall_mem_cons.mpr ⟨?reset, List.forall_mem_singleton.mpr ?release⟩⟩⟩⟩
    case start => exact plotCommand_answers hadmits rfl (fun _ _ => rfl) (by simp only [p, bne, beq_eq_decide, decide_not])
    case suspend => exact plotCommand_answers hadmits rfl (fun _ _ => rfl) (beq_eq_decide _ _)
    case resume => exact plotCommand_answers hadmits rfl (fun _ _ => rfl) (beq_eq_decide _ _)
    case reset => exact plotCommand_answers hadmits rfl (fun _ _ => rfl) (by rfl)
    case release => exact plotCommand_answers hadmits rfl (fun _ _ => rfl) (by rfl)
  case seed =>
    intro d all hadmits hwhole
    have hf := fun _ : Session => conditionApart_jobSeed n all
    refine ⟨fun hlen => domNotOk_of_kioskDom rfl hadmits hwhole hf (if_pos hlen) (by decide), fun hlen hst => ?_, fun hlen hst => ?_⟩
    · exact domNotOk_of_kioskDom rfl hadmits hwhole hf ((if_neg (not_not_intro hlen)).trans (if_pos hst)) (by decide)
    · exact domOk_of_kioskDom rfl hadmits hwhole hf ((if_neg (not_not_intro hlen)).trans (if_neg (Nat.not_lt.mpr hst)))
  case energy =>
    intro v hadmits
    have hf := fun _ : Session => conditionApart_energy n v
    refine ⟨fun hv => notOk_of_kioskCmd rfl hadmits hf (if_pos hv) (by decide), fun hv => ⟨fun h => ?_, fun h => ?_⟩⟩
    · have hpeak : (admitted p).any (fun i => decide (v.toNat < energyPeak i)) = true := by
        simpa only [List.any_eq_true, decide_eq_true_eq] using h
      exact notOk_of_kioskCmd rfl hadmits hf ((if_neg (Nat.not_lt.mpr hv)).trans (if_pos hpeak)) (by decide)
    · have hpeak : ¬ (admitted p).any (fun i => decide (v.toNat < energyPeak i)) = true := by
        simpa only [List.any_eq_true, decide_eq_true_eq, not_exists, not_and, Nat.not_lt] using h
      exact okWith_of_kioskCmd rfl hadmits hf ((if_neg (Nat.not_lt.mpr hv)).trans (if_neg hpeak))

end Sys2Proof.Machine
end

section
/-! PROOF. The reset state: what stands in a record is read off it, and a unit that no table lists reads as its default (R41, R47, R91,
R93, R174, R291, R295, R333, R354, R392, R393, R400). -/

namespace Sys2Proof.Machine

open Sys2Proof.Safety

/-- Reset meets the invariant: no store holds a byte, and no pavilion or port die is listed. -/
theorem kept_reset : kept State.reset :=
  ⟨⟨rfl, List.forall_mem_nil _, List.forall_mem_nil _⟩, List.forall_mem_nil _⟩

/-- Of the session slots, reset opens that of I3C alone (R354). -/
theorem isOpen_sessAt_reset {k : Nat} (h : k ≠ 7) : (sessAt State.reset k).isOpen = false := by
  simp only [sessAt, State.reset, tblGet, if_neg h]

/-- Settles O4: the invariant and the empty queue, then the values in the order of the chapters, each by evaluation. -/
theorem resetState : Obligations.ResetState := by
  unfold Obligations.ResetState
  refine ⟨kept_reset, rfl, ?_⟩
  -- the sundial and arithmetic
  refine ⟨rfl, rfl, rfl, rfl, rfl, rfl, rfl, ?_⟩
  -- pavilions and plots
  refine ⟨rfl, fun _ => rfl, fun _ _ => ⟨rfl, rfl⟩, fun _ => ⟨rfl, rfl⟩, fun _ => ⟨rfl, rfl, rfl, rfl⟩, ?_⟩
  -- ports, links and routing
  refine ⟨rfl, fun _ => ⟨rfl, rfl⟩, fun _ => rfl, rfl, rfl, rfl, rfl, ?_⟩
  -- shards and sessions
  refine ⟨fun _ => rfl, rfl, fun k hk => isOpen_sessAt_reset (Nat.ne_of_lt hk), ?_⟩
  -- Belvedere, Lodge and power
  exact ⟨rfl, rfl, rfl, rfl, rfl, rfl⟩

end Sys2Proof.Machine
end

section
/-! PROOF. SUNDIAL sets, holdover and loss (R43–R47, R298, Table 2.3): what a set leaves behind before its period and its error are
judged, and what each judgement then does, an open excursion ending before. -/

namespace Sys2Proof.Machine

open Sys2Proof.Safety

/-! ### The end of an excursion -/

theorem endExcursion_none {s : State} (h : s.sd.excursion = none) : endExcursion s = s := by simp only [endExcursion, h]

theorem endExcursion_some {s : State} {p : Nat} (h : s.sd.excursion = some p) :
    endExcursion s = emit { s with sd := { s.sd with excursion := none } } rkSundialAlign (srcHub 0) none [(32, p)] := by
  simp only [endExcursion, h]

/-! ### The judgement of a set (Table 2.3) -/

section Judged

variable {s : State}

theorem periodMismatch_lost (h : s.sd.align = 4) : periodMismatch s = s := if_pos h

theorem periodMismatch_of_none (h : s.sd.align ≠ 4) (hx : s.sd.excursion = none) :
    periodMismatch s = holdPortOwners (emit { s with sd := { s.sd with align := 4 } } rkPeriodMismatch (srcHub 0) none []) := by
  rw [periodMismatch, if_neg h, endExcursion_none hx]

theorem periodMismatch_of_some {p : Nat} (h : s.sd.align ≠ 4) (hx : s.sd.excursion = some p) :
    periodMismatch s = holdPortOwners
      (emit (emit { s with sd := { s.sd with align := 4, excursion := none } } rkSundialAlign (srcHub 0) none [(32, p)])
        rkPeriodMismatch (srcHub 0) none []) := by
  rw [periodMismatch, if_neg h, endExcursion_some hx]
  rfl

theorem alignBy_within {e : Int} (h : e.natAbs ≤ 20) : alignBy s e = endExcursion { s with sd := { s.sd with align := 2 } } := if_pos h

theorem alignBy_beyond {e : Int} (hlo : 20 < e.natAbs) (hhi : e.natAbs ≤ 71) :
    alignBy s e = { s with sd := { s.sd with align := 1, excursion := some (max e.natAbs (s.sd.excursion.getD 0)) } } := by
  simp only [alignBy, if_neg (Nat.not_le.mpr hlo), if_pos hhi]

theorem alignBy_lost {e : Int} (h : 71 < e.natAbs) : alignBy s e = s := by
  simp only [alignBy, if_neg (Nat.not_le.mpr (Nat.lt_trans (by decide : 20 < 71) h)), if_neg (Nat.not_le.mpr h)]

end Judged

/-- What becomes of a set that has been heard, with the error that it measured: another period is a mismatch, and an error aligns. -/
def judged (period : BitVec 8) (s : State) (err : Option Int) : State :=
  if period ≠ s.sd.periodEff then periodMismatch s
  else match err with
    | some e => alignBy s e
    | none => s

theorem judged_mismatch {period : BitVec 8} {s : State} (err : Option Int) (h : period ≠ s.sd.periodEff) :
    judged period s err = periodMismatch s := if_pos h

theorem judged_none {period : BitVec 8} {s : State} (h : period = s.sd.periodEff) : judged period s none = s := if_neg (not_not_intro h)

theorem judged_some {period : BitVec 8} {s : State} (e : Int) (h : period = s.sd.periodEff) : judged period s (some e) = alignBy s e :=
  if_neg (not_not_intro h)

/-! ### What a set leaves behind (R298) -/

/-- Core cycles from the sending of the set that is echoed to the receipt of its echo, but for those it was held. -/
def tripCycles (b : SundialBody) (trx : BitVec 64) : Int := (trx - b.echots).toNat - b.hold.toNat

/-- The round trip that a set measures; none where it echoes no set. -/
def roundTrip (b : SundialBody) (trx : BitVec 64) : Option Int :=
  if b.echots = BitVec.allOnes 64 then none else some (tripCycles b trx)

/-- The state once a set has measured its link. -/
def linkMeasured (s : State) (l : Nat) (b : SundialBody) (trx : BitVec 64) : State :=
  modLink s l (fun x => { x with
    lastSundial := some (b.txs, trx), rtt := match roundTrip b trx with | some r => BitVec.ofNat 32 (r.toNat * 10 / 18) | none => x.rtt })

/-- The state once a set has been heard, and the error that it measures, before either is judged. -/
def setHeard (s : State) (l : Nat) (b : SundialBody) (trx : BitVec 64) (prx : Nat) : State × Option Int :=
  if parentLink s == some l then fromParent (linkMeasured s l b trx) b (roundTrip b trx) prx else (linkMeasured s l b trx, none)

theorem exec_sundial_down {s : State} {l : Nat} (b : SundialBody) (trx : BitVec 64) (prx : Nat) (h : active s l = false) :
    exec (.sundial l b trx prx) s = .next (settle s) := by
  show execSundial l b trx prx s = _
  simp only [execSundial, h, Bool.not_false, if_true, done]

theorem exec_sundial_active {s : State} {l : Nat} (b : SundialBody) (trx : BitVec 64) (prx : Nat) (h : active s l = true) :
    exec (.sundial l b trx prx) s =
      .next (settle (judged b.period (setHeard s l b trx prx).1 (setHeard s l b trx prx).2)) := by
  have hexec : exec (.sundial l b trx prx) s =
      (let w := setHeard s l b trx prx
       if b.period ≠ w.1.sd.periodEff then done (periodMismatch w.1)
       else match w.2 with
         | some e => done (alignBy w.1 e)
         | none => done w.1) := by
    show execSundial l b trx prx s = _
    simp only [execSundial, h, Bool.not_true, Bool.false_eq_true, if_false]
    rfl
  rw [hexec]
  unfold judged
  dsimp only
  split
  · rfl
  · split <;> rfl

/-- What a module takes from a set of its parent, but for the error: a holdover ends, and the next frame number and the hops are given. -/
def sundialFrom (d : Sundial) (b : SundialBody) : Sundial :=
  { d with
    align := if d.align = 3 then 1 else d.align, heard := true, missed := 0, nextFrame := some (b.frame + 1)
    hops := if b.hops = 0xFF then 0xFF else b.hops + 1 }

/-- The error in ns that a set of the parent measures with a round trip of `r` cycles. -/
def measuredError (period : BitVec 8) (b : SundialBody) (r : Int) (prx : Nat) : Int :=
  (reducePhase (cycles10 period.toNat) (10 * b.phase.toNat + 5 * r - 10 * prx)).tdiv 18 + b.err.toInt

section Heard

variable {s : State} {l : Nat} {b : SundialBody} {trx : BitVec 64} {prx : Nat}

theorem setHeard_other (h : parentLink s ≠ some l) : setHeard s l b trx prx = (linkMeasured s l b trx, none) :=
  if_neg (by rwa [beq_iff_eq])

theorem setHeard_blind (h : parentLink s = some l) (hb : b.echots = BitVec.allOnes 64) :
    setHeard s l b trx prx = ({ linkMeasured s l b trx with sd := sundialFrom s.sd b }, none) := by
  have hr : roundTrip b trx = none := if_pos hb
  rw [setHeard, if_pos (beq_iff_eq.mpr h), hr]
  rfl

theorem setHeard_seeing (h : parentLink s = some l) (hb : b.echots ≠ BitVec.allOnes 64) :
    setHeard s l b trx prx =
      (let e := measuredError s.sd.periodEff b (tripCycles b trx) prx
       ({ linkMeasured s l b trx with sd := { sundialFrom s.sd b with err := BitVec.ofInt 32 e } }, some e)) := by
  have hr : roundTrip b trx = some (tripCycles b trx) := if_neg hb
  rw [setHeard, if_pos (beq_iff_eq.mpr h), hr]
  rfl

/-- A set ends a holdover, and no loss (Table 2.3). -/
theorem align_sundialFrom_eq_four (d : Sundial) (b : SundialBody) : (sundialFrom d b).align = 4 ↔ d.align = 4 := by
  unfold sundialFrom
  dsimp only
  split <;> omega

/-- Before it is judged a set moves neither the period in force nor an excursion, and neither begins nor ends a loss. -/
theorem sd_setHeard :
    let d := (setHeard s l b trx prx).1.sd
    d.periodEff = s.sd.periodEff ∧ d.excursion = s.sd.excursion ∧ (d.align = 4 ↔ s.sd.align = 4) := by
  by_cases h : parentLink s = some l
  · by_cases hb : b.echots = BitVec.allOnes 64
    · rw [setHeard_blind h hb]
      exact ⟨rfl, rfl, align_sundialFrom_eq_four s.sd b⟩
    · rw [setHeard_seeing h hb]
      exact ⟨rfl, rfl, align_sundialFrom_eq_four s.sd b⟩
  · rw [setHeard_other h]
    exact ⟨rfl, rfl, Iff.rfl⟩

end Heard

/-! ### Holdover and loss (R47) -/

theorem exec_sundialHoldover (s : State) :
    exec .sundialHoldover s = .next (settle (
      if (parentLink s).isSome = true ∧ 4 ≤ s.sd.missed ∧ s.sd.align ≠ 3 ∧ s.sd.align ≠ 4 then
        emit { endExcursion s with sd := { (endExcursion s).sd with align := 3, holdover := 0 } } rkSundialHoldover (srcHub 0) none []
      else s)) := by
  show execSundialHoldover s = _
  simp only [execSundialHoldover, Bool.and_eq_true, decide_eq_true_eq, bne_iff_ne, and_assoc]
  split <;> rfl

theorem exec_sundialLost (s : State) :
    exec .sundialLost s = .next (settle (
      if s.sd.align = 3 ∧ holdoverLimit s.sd.periodEff.toNat < s.sd.holdover.toNat ∨
          (parentLink s).isSome = true ∧ s.sd.align ≠ 4 ∧ s.sd.align ≠ 3 ∧ 71 < s.sd.err.toInt.natAbs then
        holdPortOwners (emit { endExcursion s with sd := { (endExcursion s).sd with align := 4 } } rkSundialLost (srcHub 0) none [])
      else s)) := by
  show execSundialLost s = _
  simp only [execSundialLost, Bool.or_eq_true, Bool.and_eq_true, decide_eq_true_eq, beq_iff_eq, bne_iff_ne, and_assoc]
  split <;> rfl

/-! ### The obligation -/

/-- Settles O59: what the set leaves behind is one of three states, and each judgement is made of that state. -/
theorem sundialSets : Obligations.SundialSets := by
  unfold Obligations.SundialSets
  intro s l b trx prx c x blind r s1 sd1 err sd2 a own u
  have hs1 : linkMeasured s l b trx = s1 := by
    simp only [linkMeasured, roundTrip, s1, x, blind]
    by_cases hb : b.echots = BitVec.allOnes 64
    · simp only [hb, if_true]; rfl
    · simp only [hb, if_false]; rfl
  have hu : setHeard s l b trx prx = (u, if own ∧ ¬ blind then some err else none) := by
    by_cases ho : own
    · by_cases hb : blind
      · rw [setHeard_blind ho hb, hs1]; simp only [u, ho, hb]; rfl
      · rw [setHeard_seeing ho hb, hs1]; simp only [u, ho, hb]; rfl
    · rw [setHeard_other ho, hs1]; simp only [u, ho]; rfl
  obtain ⟨hperiod, hexc, halign⟩ := hu ▸ sd_setHeard (s := s) (l := l) (b := b) (trx := trx) (prx := prx)
  have hexec : active s l = true →
      exec c s = .next (settle (judged b.period u (if own ∧ ¬ blind then some err else none))) := by
    intro h
    rw [exec_sundial_active b trx prx h, hu]
  refine ⟨exec_sundial_down b trx prx, fun hact hne => ?mismatch, fun hact heq => ?same, ?holdover, ?lost⟩
  case mismatch =>
    rw [hexec hact, judged_mismatch _ (hperiod ▸ hne)]
    refine ⟨fun h => ?_, fun h hx => ?_, fun p h hx => ?_⟩
    · rw [periodMismatch_lost (halign.mpr h)]
    · rw [periodMismatch_of_none (mt halign.mp h) (hexc.trans hx)]
    · rw [periodMismatch_of_some (mt halign.mp h) (hexc.trans hx)]
  case same =>
    rw [hexec hact]
    refine ⟨fun h => ?_, fun ho hb => ?_⟩
    · rw [if_neg (fun hob => h.elim (absurd hob.1) hob.2), judged_none (heq.trans hperiod.symm)]
    · have hu2 : u = { s1 with sd := sd2 } := by simp only [u, if_pos ho, if_neg hb]
      rw [if_pos ⟨ho, hb⟩, judged_some _ (heq.trans hperiod.symm), hu2]
      refine ⟨fun ha hx => ?_, fun p ha hx => ?_, fun hlo hhi => ?_, fun ha => ?_⟩
      · rw [alignBy_within ha, endExcursion_none (by exact hx)]
      · rw [alignBy_within ha, endExcursion_some (p := p) (by exact hx)]
        rfl
      · rw [alignBy_beyond hlo hhi]
      · rw [alignBy_lost ha]
  case holdover =>
    intro holds
    rw [exec_sundialHoldover]
    refine ⟨fun h => ?_, fun h hx => ?_, fun p h hx => ?_⟩
    · rw [if_neg h]
    · rw [if_pos h, endExcursion_none hx]
      rfl
    · rw [if_pos h, endExcursion_some hx]
      rfl
  case lost =>
    intro late far
    rw [exec_sundialLost]
    refine ⟨fun hl hf => ?_, fun h hx => ?_, fun p h hx => ?_⟩
    · rw [if_neg (not_or.mpr ⟨hl, hf⟩)]
    · rw [if_pos h, endExcursion_none hx]
    · rw [if_pos h, endExcursion_some hx]
      rfl

end Sys2Proof.Machine
end

section
/-! PROOF. Writes that wait for their snapshots, what a snapshot commits or leaves, and which records leave for the collector and at the
end of an incident (R41, R362, R364, R372, R374, R408). -/

namespace Sys2Proof.Machine

open Sys2Proof.Safety

/-! ### Writes of RWS objects (R362) -/

/-- What an accepted write of an RWS object leaves in the journal's queue. -/
def rwsPend (q : KReq) (index sub sel : Nat) (value : List Byte) : JPend :=
  { slot := some q.slot, seq := q.seq, sel := sel
    entry := some { index := BitVec.ofNat 16 index, sub := BitVec.ofNat 8 sub, value := value } }

section KioskRws

variable {s : State} {q : KReq} {c : Instr} {index sub sel : Nat} {value : List Byte} {f : State → Session → Option U16}
  (hexec : exec c s = done (kioskRws s q index sub sel value f)) (hadmits : admits s q index sub false)
  (hf : ∀ s k x, f (withKiosk s k) x = f s x)

include hexec hadmits hf

/-- A condition apart from the Kiosk is met as before the request was heard. -/
theorem exec_kioskRws : exec c s = .next (settle (match f s (sessAt s q.slot) with
    | some st => refuse (heardReq s q) q st
    | none => journalWrite (heardReq s q) q index sub sel value)) := by
  have hheard : f (heardReq s q) (sessAt s q.slot) = f s (sessAt s q.slot) := by
    rw [show heardReq s q = withKiosk s (heardReq s q).kiosk from withinKiosk_heardReq q s s, hf]
  rw [hexec, kioskRws, kioskReq_pass _ hadmits, hheard]
  rfl

theorem notOk_of_kioskRws {st : U16} (h : f s (sessAt s q.slot) = some st) (hst : st ≠ stOk) : notOk s c q st :=
  ⟨_, exec_kioskRws hexec hadmits hf, by rw [h]; exact refused_answer s q st hst⟩

theorem awaitsSnapshot_of_kioskRws (h : f s (sessAt s q.slot) = none) : awaitsSnapshot s c q (rwsPend q index sub sel value) := by
  refine ⟨_, exec_kioskRws hexec hadmits hf, ?_⟩
  have hheard : heardReq s q = withKiosk s (heardReq s q).kiosk := withinKiosk_heardReq q s s
  rw [h, hheard]
  rfl

end KioskRws

/-! ### What a snapshot does (R362, R364) -/

theorem runSnapshot_pend_zmark (j : Journal) (ok z : Bool) (b : BitVec 32) (set : List JEntry) :
    (runSnapshot j ok b z set).pend = j.pend ∧ (runSnapshot j ok b z set).zmark = j.zmark := by
  cases ok <;> cases h : targetB j <;> simp [runSnapshot, putSlot, h]

/-- A value that takes hold moves neither the journal nor the boot count. -/
theorem rwsPut_journal_boot (s : State) (index sub sel : Nat) (bs : List Byte) :
    (rwsPut s index sub sel bs).journal = s.journal ∧ (rwsPut s index sub sel bs).sd.boot = s.sd.boot := by
  unfold rwsPut
  dsimp only
  split
  · split <;> exact ⟨rfl, rfl⟩
  · split
    case h_11 =>
      split
      · exact ⟨rfl, rfl⟩
      · refine List.foldlRecOn (motive := fun t : State => t.journal = s.journal ∧ t.sd.boot = s.sd.boot) _ _ ⟨rfl, rfl⟩
          (fun t ht e _ => ?_)
        split
        · exact ht
        · exact ht
    all_goals exact ⟨rfl, rfl⟩

section Messages

variable (s : State)

@[simp] theorem sendMsg_sd (k : Nat) (m : KMsg) : (sendMsg s k m).sd = s.sd := rfl
@[simp] theorem sendMsg_power (k : Nat) (m : KMsg) : (sendMsg s k m).power = s.power := rfl
@[simp] theorem sendMsg_journal (k : Nat) (m : KMsg) : (sendMsg s k m).journal = s.journal := rfl

/-- A response moves neither the sundial nor the power nor the journal. -/
theorem respond_rest (q : KReq) (st : U16) (param : BitVec 32) (body : List Byte) :
    (respond s q st param body).sd = s.sd ∧ (respond s q st param body).power = s.power ∧
      (respond s q st param body).journal = s.journal := by
  simp only [respond, sendMsg_sd, sendMsg_power, sendMsg_journal]
  split
  · exact ⟨rfl, rfl, rfl⟩
  · exact ⟨rfl, rfl, rfl⟩

/-- Nor does the answer to the writer of a snapshot. -/
theorem answerPend_rest (p : JPend) (st : U16) :
    (answerPend s p st).sd = s.sd ∧ (answerPend s p st).power = s.power ∧ (answerPend s p st).journal = s.journal := by
  unfold answerPend
  split
  · split
    · exact respond_rest ..
    · exact ⟨rfl, rfl, rfl⟩
  · exact ⟨rfl, rfl, rfl⟩

end Messages

section Snapshot

variable {s : State} {o : FlashObs} {p : JPend} {r : List JPend}

theorem exec_snapshot_nil (h : s.journal.pend = []) : exec (.snapshot o) s = .next (settle s) := by
  show execSnapshot o s = _
  simp only [execSnapshot, h, done]

variable (hpend : s.journal.pend = p :: r)

include hpend

theorem exec_snapshot_verified (ho : o.first = true ∨ o.second = true) :
    exec (.snapshot o) s = .next (settle (commitPend { s with journal := { s.journal with pend := r } } p)) := by
  show execSnapshot o s = _
  simp only [execSnapshot, hpend, Bool.or_eq_true, if_pos ho, done]

theorem exec_snapshot_failed (h1 : o.first = false) (h2 : o.second = false) :
    exec (.snapshot o) s = .next (settle (failPend { s with journal := { s.journal with pend := r } } p
      (rwsSet { s with journal := { s.journal with pend := r } }))) := by
  show execSnapshot o s = _
  simp only [execSnapshot, hpend, h1, h2, Bool.or_self, Bool.false_eq_true, if_false, done]

end Snapshot

/-- The object is a DOMAIN, whose change count its snapshot advances (Table 15.5). -/
def objIsDomain (index sub : Nat) : Bool := (objFind index sub).any (fun x => x.ty == .domain)

/-- A snapshot of one new value puts it in force, commits the set with it and answers its writer (R362). -/
theorem commitPend_entry {s : State} {p : JPend} {e : JEntry} (he : p.entry = some e) (hz : p.zmark = none)
    (hdom : objIsDomain e.index.toNat e.sub.toNat = false) :
    commitPend s p =
      (let w := rwsPut s e.index.toNat e.sub.toNat p.sel e.value
       answerPend { w with journal := runSnapshot w.journal true s.sd.boot s.journal.zmark (rwsSet w) } p stOk) := by
  unfold objIsDomain at hdom
  obtain ⟨hjournal, hboot⟩ := rwsPut_journal_boot s e.index.toNat e.sub.toNat p.sel e.value
  have hmark : ∀ set, { runSnapshot s.journal true s.sd.boot s.journal.zmark set with zmark := s.journal.zmark } =
      runSnapshot s.journal true s.sd.boot s.journal.zmark set := by
    intro set
    have hkept : (runSnapshot s.journal true s.sd.boot s.journal.zmark set).zmark = s.journal.zmark := (runSnapshot_pend_zmark ..).2
    exact congrArg (fun z => { runSnapshot s.journal true s.sd.boot s.journal.zmark set with zmark := z }) hkept.symm
  simp only [commitPend, snapshotOf, he, hz, hdom, hjournal, hboot, hmark, Bool.false_eq_true, if_false]

/-- Two failed verifies leave the target slot invalid and the old set in force (R364). -/
theorem failPend_eq (s : State) (p : JPend) (set : List JEntry) :
    failPend s p set = answerPend
      (emit { s with journal := if targetB s.journal then { s.journal with b := {} } else { s.journal with a := {} } }
        rkJournalWriteFail srcMgmt none []) p stJournalFail := rfl

theorem ofNat_leNat_natLe_byte (v : BitVec 8) : BitVec.ofNat 8 (leNat (natLe 1 v.toNat)) = v := by
  simp [natLe, leNat]

theorem rwsPut_period (s : State) (sel : Nat) (v : BitVec 8) :
    (rwsPut s 0x1200 0x01 sel (natLe 1 v.toNat)).sd = { s.sd with period := v, periodSet := true } :=
  congrArg (fun u => { s.sd with period := u, periodSet := true }) (ofNat_leNat_natLe_byte v)

theorem rwsPut_preferred (s : State) (sel : Nat) (v : BitVec 8) :
    (rwsPut s 0xA000 0x32 sel (natLe 1 v.toNat)).power = { s.power with preferred := v } :=
  congrArg (fun u => { s.power with preferred := u }) (ofNat_leNat_natLe_byte v)

/-- A snapshot of one new value moves the sundial and the power as the value does, and the journal's queue not at all. -/
theorem commitPend_entry_rest {s : State} {p : JPend} {e : JEntry} (he : p.entry = some e) (hz : p.zmark = none)
    (hdom : objIsDomain e.index.toNat e.sub.toNat = false) :
    let w := rwsPut s e.index.toNat e.sub.toNat p.sel e.value
    (commitPend s p).sd = w.sd ∧ (commitPend s p).power = w.power ∧ (commitPend s p).journal.pend = s.journal.pend := by
  intro w
  rw [commitPend_entry he hz hdom]
  obtain ⟨hsd, hpower, hjournal⟩ :=
    answerPend_rest { w with journal := runSnapshot w.journal true s.sd.boot s.journal.zmark (rwsSet w) } p stOk
  refine ⟨hsd, hpower, ?_⟩
  have hpend : (runSnapshot w.journal true s.sd.boot s.journal.zmark (rwsSet w)).pend = w.journal.pend := (runSnapshot_pend_zmark ..).1
  have hw : w.journal = s.journal := (rwsPut_journal_boot ..).1
  exact (congrArg Journal.pend hjournal).trans (hpend.trans (congrArg Journal.pend hw))

/-- A write that waits alone takes hold at the next snapshot that a verify passes: its value is in force, and the queue is empty. -/
theorem exists_snapshot_of_awaits {s : State} {c : Instr} {q : KReq} {p : JPend} {e : JEntry} {o : FlashObs}
    (hwaits : awaitsSnapshot s c q p) (hempty : s.journal.pend = []) (ho : o.first = true ∨ o.second = true)
    (he : p.entry = some e) (hz : p.zmark = none) (hdom : objIsDomain e.index.toNat e.sub.toNat = false) :
    ∃ t u w, exec c s = .next t ∧ exec (.snapshot o) t = .next u ∧ w.sd = s.sd ∧ w.power = s.power ∧
      u.sd = (rwsPut w e.index.toNat e.sub.toNat p.sel e.value).sd ∧
      u.power = (rwsPut w e.index.toNat e.sub.toNat p.sel e.value).power ∧ u.journal.pend = [] := by
  obtain ⟨t, hexec, ht⟩ := hwaits
  have hpend : t.journal.pend = [p] := by rw [ht, hempty]; rfl
  obtain ⟨hsd, hpower, hpend'⟩ := commitPend_entry_rest (s := { t with journal := { t.journal with pend := [] } }) he hz hdom
  exact ⟨t, _, _, hexec, exec_snapshot_verified hpend ho, by rw [ht], by rw [ht], hsd, hpower, hpend'⟩

/-! ### The collector and incidents (R372, R374) -/

theorem exec_telemetryExport (link : Option Nat) (s : State) :
    exec (.telemetryExport link) s = .next (settle (
      let rs := s.tele.toSend.take 120
      let p := telemetryPkt s rs
      if s.tele.collector = 0x00FFFFFF ∨ rs = [] then s
      else if link.any (fun l => routeOf s none p != .out l) then s
      else sendOut { s with
        tele := (List.range 4).foldl (fun t c => markRead t c (fun _ r => rs.contains r.rec_))
          { s.tele with toSend := s.tele.toSend.drop 120 } } none p)) := by
  show execTelemetryExport link s = _
  simp only [execTelemetryExport]
  split
  · rfl
  · split <;> rfl

theorem exec_incidentEnd_none {s : State} {plot : Option Nat} (h : s.tele.incidents.find? (fun i => i.plot == plot) = none) :
    exec (.incidentEnd plot) s = .next (settle s) := by
  show execIncidentEnd plot s = _
  simp only [execIncidentEnd, h, done]

theorem exec_incidentEnd_some {s : State} {plot : Option Nat} {i : Incident}
    (h : s.tele.incidents.find? (fun i => i.plot == plot) = some i) :
    exec (.incidentEnd plot) s = .next (settle (
      if i.last.toNat + 4096 ≤ s.sd.ticks.toNat then { s with
        tele := i.tail.foldl (fun t r => collectTele (stageRec t r))
          { s.tele with incidents := s.tele.incidents.filter (fun j => j.plot != plot) } }
      else s)) := by
  show execIncidentEnd plot s = _
  simp only [execIncidentEnd, h, done]
  split <;> rfl

/-! ### The conditions of the two writes (R41, R408) -/

/-- PERIOD_WRITE's own condition: a code of Table 2.1, while no plot is loaded (R41). -/
def periodRefusal (v : BitVec 8) (s : State) (_ : Session) : Option U16 :=
  rangeIf (decide (2 < v.toNat)) <|> stateIf (allPlots.any (fun n => (plotAt s n).loadState != 0))

/-- PREFERRED_SLOT_WRITE's own condition: a slot that holds a valid image (R408). -/
def slotRefusal (v : BitVec 8) (s : State) (_ : Session) : Option U16 :=
  rangeIf (decide (1 < v.toNat)) <|> stateIf (if v = 0 then s.power.versionA == 0 else s.power.versionB == 0)

theorem periodRefusal_range {v : BitVec 8} (s : State) (x : Session) (h : 2 < v.toNat) : periodRefusal v s x = some stKioskRange := by
  simp [periodRefusal, rangeIf, h]

theorem periodRefusal_eq {v : BitVec 8} {b : Bool} (s : State) (x : Session) (h : v.toNat ≤ 2)
    (hb : allPlots.any (fun n => (plotAt s n).loadState != 0) = b) : periodRefusal v s x = stateIf b := by
  simp [periodRefusal, rangeIf, Nat.not_lt.mpr h, ← hb]

theorem slotRefusal_range {v : BitVec 8} (s : State) (x : Session) (h : 1 < v.toNat) : slotRefusal v s x = some stKioskRange := by
  simp [slotRefusal, rangeIf, h]

theorem slotRefusal_eq {v : BitVec 8} (s : State) (x : Session) (h : v.toNat ≤ 1) :
    slotRefusal v s x = stateIf ((if v = 0 then s.power.versionA else s.power.versionB) == 0) := by
  simp only [slotRefusal, rangeIf, Nat.not_lt.mpr h, apply_ite (fun w : BitVec 32 => w == 0)]
  rfl

/-! ### The obligation -/

/-- Settles O52: each write waits under its own condition, and what the next snapshot then does to it is what a snapshot does to any. -/
theorem journalAndExport : Obligations.JournalAndExport := by
  unfold Obligations.JournalAndExport
  intro s q v o link plot waits
  refine ⟨fun hadmits => ?period, fun hadmits => ?slot, exec_snapshot_nil, fun p r e hpend he hz ho => ?commits,
    fun p r hpend h1 h2 => ?fails, ?unsent, ?sends, exec_incidentEnd_none, fun i hi => ?incident⟩
  case period =>
    have hrow : ∀ {st}, periodRefusal v s (sessAt s q.slot) = some st → st ≠ stOk → notOk s (.periodWrite q v) q st :=
      fun h hst => notOk_of_kioskRws (f := periodRefusal v) rfl hadmits (fun _ _ _ => rfl) h hst
    refine ⟨fun hv => hrow (periodRefusal_range s _ hv) (by decide),
      fun hv hload => hrow (periodRefusal_eq s _ hv (b := true) ?_) (by decide), fun hv hload => ?_⟩
    · simpa using hload
    · have hfree : periodRefusal v s (sessAt s q.slot) = none := periodRefusal_eq s _ hv (b := false) (by simpa using hload)
      have hwaits : waits (.periodWrite q v) 0x1200 0x01 :=
        awaitsSnapshot_of_kioskRws (f := periodRefusal v) rfl hadmits (fun _ _ _ => rfl) hfree
      refine ⟨hwaits, fun hempty ho => ?_⟩
      obtain ⟨t, u, w, ht, hu, hsd, -, husd, -, hup⟩ :=
        exists_snapshot_of_awaits hwaits hempty ho rfl rfl (show objIsDomain 0x1200 0x01 = false by decide)
      exact ⟨t, u, ht, hu, husd.trans (hsd ▸ rwsPut_period w 0 v), hup⟩
  case slot =>
    intro image
    have hrow : ∀ {st}, slotRefusal v s (sessAt s q.slot) = some st → st ≠ stOk → notOk s (.preferredSlotWrite q v) q st :=
      fun h hst => notOk_of_kioskRws (f := slotRefusal v) rfl hadmits (fun _ _ _ => rfl) h hst
    refine ⟨fun hv => hrow (slotRefusal_range s _ hv) (by decide), fun hv himage => hrow ?_ (by decide), fun hv himage => ?_⟩
    · rw [slotRefusal_eq s _ hv, beq_iff_eq.mpr himage]
      rfl
    · have hfree : slotRefusal v s (sessAt s q.slot) = none := by
        rw [slotRefusal_eq s _ hv, beq_eq_false_iff_ne.mpr himage]
        rfl
      have hwaits : waits (.preferredSlotWrite q v) 0xA000 0x32 :=
        awaitsSnapshot_of_kioskRws (f := slotRefusal v) rfl hadmits (fun _ _ _ => rfl) hfree
      refine ⟨hwaits, fun hempty ho => ?_⟩
      obtain ⟨t, u, w, ht, hu, -, hpower, -, hupower, hup⟩ :=
        exists_snapshot_of_awaits hwaits hempty ho rfl rfl (show objIsDomain 0xA000 0x32 = false by decide)
      exact ⟨t, u, ht, hu, hupower.trans (hpower ▸ rwsPut_preferred w 0 v), hup⟩
  case commits =>
    intro s0 s1 s2 hdom
    rw [exec_snapshot_verified hpend ho, commitPend_entry he hz hdom]
  case fails =>
    intro j s1
    rw [exec_snapshot_failed hpend h1 h2, failPend_eq]
  case unsent =>
    intro h
    have hnone : s.tele.collector = 0x00FFFFFF ∨ s.tele.toSend.take 120 = [] := h.imp_right (fun h => by rw [h, List.take_nil])
    rw [exec_telemetryExport]
    dsimp only
    rw [if_pos hnone]
  case sends =>
    intro hcollector hwaiting rs p t
    have hrs : rs ≠ [] := by simpa [rs] using hwaiting
    have hsome : ¬ (s.tele.collector = 0x00FFFFFF ∨ rs = []) := not_or.mpr ⟨hcollector, hrs⟩
    rw [exec_telemetryExport]
    dsimp only
    rw [if_neg hsome]
    refine ⟨?_, ?_⟩
    · rintro l rfl hroute
      rw [if_pos (by simpa using hroute)]
    · rintro (rfl | ⟨l, rfl, hroute⟩)
      · rfl
      · rw [if_neg (by simpa using hroute)]
  case incident =>
    rw [exec_incidentEnd_some hi]
    refine ⟨fun h => ?_, fun h => ?_⟩
    · rw [if_neg (Nat.not_le.mpr h)]
    · rw [if_pos h]

end Sys2Proof.Machine
end

section
/-! PROOF. What leaves the sundial alone: every act on plots, engines, links, pools, descriptors and shards that the steps of a tick are
made of (Table 2.2). -/

namespace Sys2Proof.Machine

/-- A run of operations that leave the sundial alone leaves it alone. -/
theorem foldl_sd {α : Type} {f : State → α → State} (h : ∀ s a, (f s a).sd = s.sd) (l : List α) (s : State) :
    (l.foldl f s).sd = s.sd :=
  List.foldlRecOn (motive := fun t : State => t.sd = s.sd) l f rfl (fun t ht a _ => (h t a).trans ht)

theorem portsOnly_sd {s t : State} (h : portsOnly s t) : t.sd = s.sd := by
  unfold portsOnly at h
  rw [h]

variable (s : State)

/-! ### Holds and errors -/

@[simp] theorem raiseHold_sd (n cause : Nat) : (raiseHold s n cause).sd = s.sd := rfl
@[simp] theorem containedHold_sd (ns : List Nat) (cause : Nat) : (containedHold s ns cause).sd = s.sd :=
  portsOnly_sd (portsOnly_containedHold s ns cause)
@[simp] theorem plainHold_sd (ns : List Nat) (cause : Nat) : (plainHold s ns cause).sd = s.sd :=
  foldl_sd (fun t n => raiseHold_sd t n cause) ns s
@[simp] theorem uncontained_sd : (uncontained s).sd = s.sd := plainHold_sd ..

@[simp] theorem hbmUncorrected_sd (a : Nat) (consumed : Bool) : (hbmUncorrected s a consumed).sd = s.sd := by
  simp only [hbmUncorrected]
  split
  · simp
  · split <;> simp

@[simp] theorem pavFault_sd (k : RecKind) (i : Nat) : (pavFault s k i).sd = s.sd := containedHold_sd ..
@[simp] theorem dieFault_sd (j : Nat) (ns : List Nat) : (dieFault s j ns).sd = s.sd := containedHold_sd ..

/-! ### Packets and links -/

@[simp] theorem handOff_sd (l source : Nat) (p : Pkt) : (handOff s l source p).sd = s.sd := portsOnly_sd (portsOnly_handOff s l source p)
@[simp] theorem sendOut_sd (src : Option Nat) (p : Pkt) : (sendOut s src p).sd = s.sd := portsOnly_sd (portsOnly_sendOut s src p)

@[simp] theorem freeRx_sd (l : Nat) (p : Pkt) : (freeRx s l p).sd = s.sd := by
  unfold freeRx
  dsimp only
  split <;> rfl

@[simp] theorem sendAcks_sd (l : Nat) : (sendAcks s l).sd = s.sd := by
  refine foldl_sd (fun t u => ?_) _ _
  dsimp only
  split
  · exact handOff_sd ..
  · exact sendOut_sd ..

@[simp] theorem closeSlot_sd (k : Nat) : (closeSlot s k).sd = s.sd := by
  unfold closeSlot
  split <;> rfl

@[simp] theorem closeLinkSessions_sd (l : Nat) : (closeLinkSessions s l).sd = s.sd := by
  refine foldl_sd (fun t k => ?_) _ _
  dsimp only
  split
  · exact closeSlot_sd ..
  · rfl

@[simp] theorem closeSessions_sd : (closeSessions s).sd = s.sd := by
  refine foldl_sd (fun t k => ?_) _ _
  split
  · exact closeSlot_sd ..
  · rfl

@[simp] theorem completeCut_sd (l : Nat) (fs : List (List Byte)) : (completeCut s l fs).sd = s.sd := by
  unfold completeCut
  split
  · rfl
  · dsimp only
    split
    · split
      · split
        · rfl
        · exact handOff_sd ..
      · rfl
    · rfl

@[simp] theorem completeCuts_sd (l : Nat) : (completeCuts s l).sd = s.sd := foldl_sd (fun _ _ => completeCut_sd ..) _ _

@[simp] theorem linkDown_sd (l : Nat) (cause : U16) (tell commanded : Bool) : (linkDown s l cause tell commanded).sd = s.sd := by
  simp only [linkDown, closeLinkSessions_sd, containedHold_sd, emit_sd, setLink_sd]
  split
  · exact completeCuts_sd s l
  · exact completeCuts_sd s l

/-! ### Engines and pavilions -/

@[simp] theorem traceCmd_sd (u : EngRef) (c : EngCmd) (st : U16) : (traceCmd s u c st).sd = s.sd := by
  unfold traceCmd
  split <;> rfl

@[simp] theorem poisonEngine_sd (f : Engine → Engine) (u : EngRef) : (poisonEngine f s u).sd = s.sd := by
  unfold poisonEngine
  split
  · exact traceCmd_sd ..
  · rfl

@[simp] theorem resetPav_sd (i : Nat) : (resetPav s i).sd = s.sd := by
  have hpoison := foldl_sd (fun t u => poisonEngine_sd t (fun e => if e.mode == .fault then engEmpty e else engIdle e) u) (engsOfPav i) s
  simp only [resetPav]
  split
  · rw [containedHold_sd, modPav_sd, hpoison]
  · rw [modPav_sd, hpoison]

@[simp] theorem resetEngine_sd (u : EngRef) : (resetEngine s u).sd = s.sd := rfl

/-! ### Pools and descriptors -/

@[simp] theorem poolRelease_sd (h : U32) : (poolRelease s h).1.sd = s.sd := by
  unfold poolRelease
  split
  · rfl
  · dsimp only
    split
    · rfl
    · split <;> rfl

@[simp] theorem freeBufs_sd (hs : List U32) : (freeBufs s hs).sd = s.sd := by
  refine foldl_sd (fun t h => ?_) _ _
  split
  · rfl
  · exact poolRelease_sd ..

@[simp] theorem retractAll_sd (j : Nat) (d : Desc) (vs : List ProvSeg) : (retractAll s j d vs).sd = s.sd := by
  refine foldl_sd (fun t v => ?_) _ _
  exact foldl_sd (fun u l => handOff_sd u l 128 _) v.outLinks t

@[simp] theorem dropDesc_sd (j i : Nat) (d : Desc) : (dropDesc s j i d).sd = s.sd := by
  simp only [dropDesc, modDie_sd, retractAll_sd, freeBufs_sd]

@[simp] theorem dropSeg_sd (j : Nat) (k : RecKind) (st : U16) (p : Pkt) : (dropSeg s j k st p).sd = s.sd := rfl

@[simp] theorem dropHeld_sd (n j : Nat) (k : RecKind) (st : U16) (b2 : Bool) : (dropHeld s n j k st b2).sd = s.sd := by
  refine foldl_sd (fun t h => ?_) _ _
  exact freeRx_sd ..

@[simp] theorem regWrite_sd (n off : Nat) (bs : List Byte) : (regWrite s n off bs).sd = s.sd := by
  unfold regWrite
  dsimp only
  split
  · rfl
  · exact hbmUncorrected_sd ..

@[simp] theorem writeRecord_sd (d : Desc) (st : U16) : (writeRecord s d st).sd = s.sd := by
  unfold writeRecord
  split
  · rfl
  · exact regWrite_sd ..

@[simp] theorem destroyPools_sd (n : Nat) : (destroyPools s n).sd = s.sd := by
  refine foldl_sd (fun t e => ?_) _ _
  dsimp only
  split <;> rfl

@[simp] theorem abortDescs_sd (n : Nat) : (abortDescs s n).sd = s.sd := by
  refine foldl_sd (fun t j => ?_) _ _
  refine (foldl_sd (fun t e => ?_) _ _).trans (dropHeld_sd ..)
  rw [dropDesc_sd]
  split
  · exact writeRecord_sd ..
  · rfl

@[simp] theorem retireDescs_sd (n : Nat) : (retireDescs s n).sd = s.sd := by
  refine foldl_sd (fun t j => ?_) _ _
  refine (foldl_sd (fun t e => ?_) _ _).trans (dropHeld_sd ..)
  exact (foldl_sd (fun _ _ => dropSeg_sd ..) _ _).trans (dropDesc_sd ..)

/-! ### Activation (R165) -/

@[simp] theorem drawSpray_sd (n : Nat) : (drawSpray s n).sd = s.sd := by
  unfold drawSpray
  split <;> rfl

@[simp] theorem compactDie_sd (j : Nat) : (compactDie s j).sd = s.sd := by
  refine (foldl_sd (fun t m => ?_) _ _).trans (modDie_sd ..)
  split <;> rfl

@[simp] theorem dieRoom_sd (j len : Nat) : (dieRoom s j len).1.sd = s.sd := by
  unfold dieRoom
  split
  · rfl
  · exact compactDie_sd ..

@[simp] theorem poolPlace_sd (n : Nat) (p : PoolDecl) (prev : Nat) : (poolPlace s n p prev).1.sd = s.sd := by
  unfold poolPlace
  split
  · rfl
  · exact dieRoom_sd ..
  · rfl

theorem createPoolsGo_sd (n : Nat) (img : Image) (ps : List PoolDecl) :
    ∀ (rel : Nat) (ends : Tbl Nat) (s : State), (createPoolsGo n img rel ends ps s).sd = s.sd := by
  induction ps with
  | nil => exact fun _ _ _ => rfl
  | cons p ps ih =>
    intro rel ends s
    simp only [createPoolsGo, ih, setPool_sd, poolPlace_sd]

@[simp] theorem createPools_sd (n : Nat) (img : Image) : (createPools s n img).sd = s.sd :=
  (createPoolsGo_sd ..).trans (destroyPools_sd ..)

@[simp] theorem placeDescs_sd (n : Nat) (img : Image) : (placeDescs s n img).sd = s.sd := by
  refine (foldl_sd (fun t c => ?_) _ _).trans (foldl_sd (fun _ _ => modDie_sd ..) _ _)
  split
  · rfl
  · exact (foldl_sd (fun _ _ => modDie_sd ..) _ _).trans (modDie_sd ..)

@[simp] theorem placeWrite_sd (pl : Place) (bs : List Byte) : (placeWrite s pl bs).1.sd = s.sd := by
  cases pl <;> rfl

@[simp] theorem placePut_sd (n : Nat) (pl : Place) (bs : List Byte) : (placePut s n pl bs).sd = s.sd := by
  have hwrite := placeWrite_sd s pl bs
  unfold placePut
  generalize placeWrite s pl bs = r at hwrite ⊢
  split
  · exact (hbmUncorrected_sd ..).trans hwrite
  · exact (pavFault_sd ..).trans hwrite
  · exact (dieFault_sd ..).trans hwrite
  · exact hwrite

@[simp] theorem writeStatics_sd (n : Nat) (img : Image) : (writeStatics s n img).sd = s.sd := by
  refine foldl_sd (fun t c => foldl_sd (fun t r => ?_) _ _) _ _
  split
  · exact placePut_sd ..
  · split
    · exact placePut_sd ..
    · rfl

@[simp] theorem activate_sd (n : Nat) (img : Image) : (activate s n img).sd = s.sd := by
  simp only [activate, emit_sd, modPlot_sd, writeStatics_sd, placeDescs_sd, createPools_sd, retireDescs_sd]
  exact (foldl_sd (fun _ _ => modPav_sd ..) _ _).trans ((foldl_sd (fun _ _ => modEng_sd ..) _ _).trans (drawSpray_sd ..))

@[simp] theorem activateNow_sd (n : Nat) : (activateNow s n).sd = s.sd := by
  unfold activateNow
  dsimp only
  split
  · split
    · exact activate_sd ..
    · rfl
  · rfl

@[simp] theorem lapseNow_sd (n : Nat) : (lapseNow s n).sd = s.sd := by
  unfold lapseNow
  dsimp only
  split <;> rfl

/-! ### Shards (R261–R268) -/

@[simp] theorem toTwin_sd (n kind : Nat) (step : BitVec 64) (pos nel : Nat) (status : BitVec 16) (body : List Byte) :
    (toTwin s n kind step pos nel status body).sd = s.sd := by
  unfold toTwin
  dsimp only
  split
  · rfl
  · exact sendOut_sd ..

@[simp] theorem commitDue_sd (n : Nat) (st : U16) (flags : BitVec 8) : (commitDue s n st flags).sd = s.sd := rfl

@[simp] theorem diverged_sd (n : Nat) (k : RecKind) (st : U16) (first ndiff : Nat) : (diverged s n k st first ndiff).sd = s.sd :=
  containedHold_sd ..

@[simp] theorem compareShard_sd (n : Nat) : (compareShard s n).sd = s.sd := by
  unfold compareShard
  dsimp only
  split
  · rfl
  · split
    · rfl
    · split
      · rfl
      · split
        · rfl
        · split
          · exact diverged_sd ..
          · split
            · rfl
            · exact diverged_sd ..

@[simp] theorem startRestore_sd (n : Nat) (new : Bool) : (startRestore s n new).sd = s.sd := by
  unfold startRestore
  split
  · rfl
  · exact toTwin_sd ..

@[simp] theorem shardCmdRun_sd (n k : Nat) : (shardCmdRun s n k).sd = s.sd := by
  unfold shardCmdRun
  split
  · rfl
  · dsimp only
    split
    case h_2 => exact startRestore_sd ..
    case h_4 => exact startRestore_sd ..
    all_goals rfl

/-- The state once the commands that wait for a shard have run, in order (R265). -/
def shardCmdsRun (n : Nat) : State :=
  let ks := (shardAt s n).cmds
  ks.foldl (fun s k => shardCmdRun s n k) (if ks.isEmpty then s else modShard s n (fun h => { h with cmds := [] }))

theorem shardTick_eq (n : Nat) : shardTick s n =
    (let t := shardCmdsRun s n
     let h := shardAt t n
     if h.state = 3 then setShard t n { h with waitTicks := h.waitTicks + 1 }
     else if h.state = 8 ∧ servingOver t n = true then setShard t n { h with state := h.backState }
     else t) := rfl

@[simp] theorem shardCmdsRun_sd (n : Nat) : (shardCmdsRun s n).sd = s.sd := by
  refine (foldl_sd (fun t k => shardCmdRun_sd t n k) _ _).trans ?_
  split <;> rfl

@[simp] theorem shardTick_sd (n : Nat) : (shardTick s n).sd = s.sd := by
  rw [shardTick_eq]
  dsimp only
  split
  · exact shardCmdsRun_sd s n
  · split <;> exact shardCmdsRun_sd s n

@[simp] theorem resetShard_sd (n : Nat) : (resetShard s n).sd = s.sd := by
  unfold resetShard
  dsimp only
  split
  · rfl
  · exact toTwin_sd ..

@[simp] theorem resetShards_sd (n : Nat) : (resetShards s n).sd = s.sd := by
  have hshards : (s.shards.foldl (fun s e => if ePlot e.2.entry == n then resetShard s e.1 else s) s).sd = s.sd := by
    refine foldl_sd (fun t e => ?_) _ _
    split
    · exact resetShard_sd ..
    · rfl
  simp only [resetShards]
  split
  · exact hshards
  · exact hshards

@[simp] theorem advanceStep_sd (n : Nat) : (advanceStep s n).sd = s.sd := by
  unfold advanceStep
  dsimp only
  split <;> rfl

@[simp] theorem stepCounters_sd : (stepCounters s).sd = s.sd := foldl_sd (fun _ _ => advanceStep_sd ..) _ _

/-! ### Plot commands and adoption (R182, R334, R383) -/

@[simp] theorem resetPlotT_sd (n : Nat) : (resetPlotT s n).sd = s.sd := by
  simp only [resetPlotT, modPlot_sd, resetShards_sd, destroyPools_sd, abortDescs_sd]
  exact (foldl_sd (fun _ _ => modDie_sd ..) _ _).trans ((foldl_sd (fun _ _ => modPav_sd ..) _ _).trans
    (foldl_sd (fun _ _ => poisonEngine_sd ..) _ _))

@[simp] theorem commandNow_sd (n : Nat) : (commandNow s n).sd = s.sd := by
  unfold commandNow
  dsimp only
  split
  case h_5 => exact resetPlotT_sd ..
  all_goals rfl

@[simp] theorem voidProvisional_sd (n : Nat) : (voidProvisional s n).sd = s.sd := by
  refine foldl_sd (fun t j => ?_) _ _
  exact (foldl_sd (fun _ _ => freeRx_sd ..) _ _).trans ((modDie_sd ..).trans (freeBufs_sd ..))

@[simp] theorem adoptEpoch_sd (n : Nat) (c : CommitMsg) : (adoptEpoch s n c).sd = s.sd := by
  unfold adoptEpoch
  dsimp only
  refine (foldl_sd (fun t e => ?_) _ _).trans (by simp)
  split
  · exact compareShard_sd ..
  · rfl

@[simp] theorem adoptNow_sd (n : Nat) : (adoptNow s n).sd = s.sd := by
  unfold adoptNow
  dsimp only
  split
  · rfl
  · split
    · rfl
    · split
      · simp
      · exact adoptEpoch_sd ..

end Sys2Proof.Machine
end

section
/-! PROOF. What keeps the tick count (R38, R53): the frame just ended, start-up and the module warm reset, and the boundary may change
the sundial, but none of them changes the count or stops the ticking. -/

namespace Sys2Proof.Machine

/-- The tick count is the same, and ticks go on or have not begun, as before. -/
def sameClock (s t : State) : Prop := t.sd.ticks = s.sd.ticks ∧ t.sd.ticking = s.sd.ticking

theorem sameClock_refl (s : State) : sameClock s s := ⟨rfl, rfl⟩

theorem sameClock_trans {s t u : State} (hst : sameClock s t) (htu : sameClock t u) : sameClock s u :=
  ⟨htu.1.trans hst.1, htu.2.trans hst.2⟩

theorem sameClock_of_sd {s t : State} (h : t.sd = s.sd) : sameClock s t := by
  unfold sameClock
  rw [h]
  exact ⟨rfl, rfl⟩

theorem sameClock_foldl {α : Type} {f : State → α → State} (h : ∀ s a, sameClock s (f s a)) (l : List α) (s : State) :
    sameClock s (l.foldl f s) :=
  List.foldlRecOn (motive := sameClock s) l f (sameClock_refl s) (fun t ht a _ => sameClock_trans ht (h t a))

variable (s : State)

/-! ### The frame just ended -/

theorem framePlot_sd (n : Nat) : (framePlot s n).sd = s.sd := rfl

theorem frameEnergy_sd (env : TickEnv) : (frameEnergy s env).sd = s.sd := by
  unfold frameEnergy
  dsimp only
  split
  · split <;> rfl
  · rfl

theorem frameStack_sd (served : List HbmServed) (k : Nat) : (frameStack served s k).sd = s.sd := by
  unfold frameStack
  dsimp only
  split <;> rfl

theorem frameStacks_sd (env : TickEnv) :
    (if env.hbmServed.isEmpty then s else (List.range 8).foldl (frameStack env.hbmServed) s).sd = s.sd := by
  split
  · rfl
  · exact foldl_sd (fun t k => frameStack_sd t env.hbmServed k) _ s

theorem frameSpray_sd (e : Nat) : (frameSpray s e).sd = s.sd := by
  unfold frameSpray
  dsimp only
  split <;> rfl

theorem frameCool_sd : (frameCool s).sd = s.sd := rfl

theorem frameLink_sd (l : Nat) : (frameLink s l).sd = s.sd := by
  simp only [frameLink, setLink_sd, sendAcks_sd]

theorem sameClock_overrun (obs : List OverrunObs) (w : WorkUnit × Nat) : sameClock s (overrun obs s w) := ⟨rfl, rfl⟩

/-- The sundial's own counts over the frame are those of a holdover and of missed sets (R47). -/
theorem sameClock_frameSundial : sameClock s (settle (frameSundial s)) := ⟨rfl, rfl⟩

/-- What the frame just ended shows leaves the tick count, with which it is stamped (R55). -/
theorem sameClock_frameEnd (env : TickEnv) : sameClock s (frameEnd s env) := by
  unfold frameEnd
  extract_lets counted coll limits overs energy served sprays cool links
  have hlimits : limits.sd = s.sd := foldl_sd framePlot_sd (s.plots.map (·.1)) s
  have hovers : sameClock limits overs := sameClock_foldl (fun t w => sameClock_overrun t env.overruns w) _ limits
  have henergy : energy.sd = overs.sd := frameEnergy_sd overs env
  have hserved : served.sd = energy.sd := frameStacks_sd energy env
  have hsprays : sprays.sd = served.sd := foldl_sd frameSpray_sd _ served
  have hlinks : links.sd = cool.sd := foldl_sd frameLink_sd _ cool
  have hlast : links.sd = overs.sd := hlinks.trans (hsprays.trans (hserved.trans henergy))
  exact sameClock_trans (sameClock_trans (sameClock_of_sd hlimits) hovers)
    (sameClock_trans (sameClock_of_sd hlast) (sameClock_frameSundial links))

/-! ### Start-up and the module warm reset (R405) -/

theorem spareLane_sd {t : State} {l lane : Nat} (h : spareLane s l lane = some t) : t.sd = s.sd := by
  unfold spareLane at h
  dsimp only at h
  split at h
  · exact absurd h (by simp)
  · obtain rfl := Option.some.inj h
    rfl

theorem spareLanes_sd (l : Nat) (as : List Nat) : ∀ s, (spareLanes s l as).1.sd = s.sd := by
  induction as with
  | nil => exact fun _ => rfl
  | cons a as ih =>
    intro s
    simp only [spareLanes]
    split
    · rfl
    · next t ht => exact (ih t).trans (spareLane_sd s ht)

theorem keyxFail_sd (l : Nat) : (keyxFail s l).sd = s.sd := by
  unfold keyxFail
  dsimp only
  split
  · exact linkDown_sd ..
  · rfl

theorem sendKeyx_sd (l msg : Nat) : (sendKeyx s l msg).sd = s.sd := by
  refine (foldl_sd (fun t e => ?_) _ _).trans rfl
  exact handOff_sd ..

theorem startKeyx_sd (l : Nat) : (startKeyx s l).sd = s.sd := by
  unfold startKeyx drawKeyx
  split
  · split
    · exact keyxFail_sd ..
    · rw [sendKeyx_sd, modLink_sd]
  · rfl

theorem linkActive_sd (l : Nat) (b : ParamBody) : (linkActive s l b).sd = s.sd := by
  simp only [linkActive, apply_ite State.sd, startKeyx_sd, emit_sd, setLink_sd, ite_self]

theorem startFail_sd (l : Nat) (cause : U16) : (startFail s l cause).sd = s.sd := rfl

theorem startLink_sd (g : StartLink) : (startLink s g).sd = s.sd := by
  have hlanes : (laneCheck s g.link g.lanes).1.sd = s.sd := spareLanes_sd ..
  unfold startLink
  dsimp only
  split
  · rfl
  · split
    · next heq => rw [startFail_sd]; rw [heq] at hlanes; exact hlanes
    · next heq =>
      rw [heq] at hlanes
      split
      · rw [linkActive_sd, modLink_sd]; exact hlanes
      · rw [startFail_sd]; exact hlanes

theorem stopStart_sd (st : U16) : (stopStart s st).sd = s.sd := by
  simp only [stopStart, emit_sd]

theorem step3_sd (env : StartEnv) : (step3 s env).sd = s.sd := by
  unfold step3
  split
  · simp only [stopStart_sd, emit_sd]
  · exact foldl_sd (fun t j => modDie_sd t j _) env.aesFailDies s

theorem step4_sd (env : StartEnv) : (step4 s env).sd = s.sd := by
  simp only [step4]
  split
  · rfl
  · split
    · simp only [emit_sd]
    · simp only [stopStart_sd, emit_sd]

theorem step5_warm_sd (env : StartEnv) : (step5 s env false).sd = s.sd := by
  unfold step5
  split
  · exact stopStart_sd ..
  · rfl

theorem step6_sd (env : StartEnv) : (step6 s env).sd = s.sd := by
  have hdies : ∀ t : State, (env.bistDies.foldl (fun s j => modDie s j (fun d => { d with failed := true })) t).sd = t.sd :=
    foldl_sd (fun t j => modDie_sd t j _) env.bistDies
  have hlanes : ∀ t : State, (env.bistLanes.foldl (fun s e => (spareLanes s e.1 (sortNat e.2)).1) t).sd = t.sd :=
    foldl_sd (fun t e => spareLanes_sd e.1 (sortNat e.2) t) env.bistLanes
  simp only [step6, apply_ite State.sd, stopStart_sd, hlanes, hdies, ite_self]

theorem step7_sd (env : StartEnv) : (step7 s env).sd = s.sd := by
  simp only [step7]
  exact foldl_sd (fun t k => modStack_sd t k _) (List.range 8) s

theorem step8_sd (env : StartEnv) : (step8 s env).sd = s.sd := by
  refine (foldl_sd startLink_sd _ _).trans (foldl_sd (fun t l => ?_) _ s)
  split
  · rfl
  · exact modLink_sd ..

/-- Step 9 gives the next frame number and the phase step, or a frame number (R404). -/
theorem sameClock_step9 (env : StartEnv) : sameClock s (step9 s env) := by
  unfold step9
  split
  · exact ⟨rfl, rfl⟩
  · exact ⟨rfl, rfl⟩

theorem kioskUp_sd (env : StartEnv) (kind : Option Nat) : (kioskUp s env kind).sd = s.sd := by
  cases kind with
  | none => simp only [kioskUp, apply_ite State.sd, emit_sd, ite_self]
  | some k => simp only [kioskUp, apply_ite State.sd, emit_sd, ite_self]

theorem step10_warm_sd (env : StartEnv) : (step10 s env false).sd = s.sd := kioskUp_sd s env (some 1)

/-- A step of a start-up that loads nothing (Table 17.7). -/
theorem sameClock_startStep_warm (env : StartEnv) (k : Nat) : sameClock s (startStep env false s k) := by
  unfold startStep
  split
  · exact sameClock_refl s
  · extract_lets power entered ran
    have hentered : sameClock s entered := ⟨rfl, rfl⟩
    have hran : sameClock entered ran := by
      simp only [ran]
      split
      · exact sameClock_of_sd (step3_sd ..)
      · exact sameClock_of_sd (step4_sd ..)
      · exact sameClock_of_sd (step5_warm_sd ..)
      · exact sameClock_of_sd (step6_sd ..)
      · exact sameClock_of_sd (step7_sd ..)
      · exact sameClock_of_sd (step8_sd ..)
      · exact sameClock_step9 ..
      · exact sameClock_of_sd (step10_warm_sd ..)
    split
    · split
      · exact sameClock_trans hentered (sameClock_of_sd (stopStart_sd ..))
      · exact hentered
    · split
      · exact sameClock_trans hentered hran
      · exact sameClock_trans hentered hran

theorem sameClock_startFrom_warm (env : StartEnv) (first : Nat) : sameClock s (startFrom s env false first) :=
  sameClock_foldl (fun t i => sameClock_startStep_warm t env (first + i)) _ s

theorem sameClock_endExcursion : sameClock s (endExcursion s) := by
  unfold endExcursion
  split <;> exact ⟨rfl, rfl⟩

theorem sameClock_warmState : sameClock s (warmState s) := ⟨rfl, rfl⟩

/-- A module warm reset leaves the tick count (R405). -/
theorem sameClock_warmReset (env : StartEnv) : sameClock s (warmReset s env) := by
  have hdown : ∀ t : State,
      (((List.range 128).filter (active t)).foldl (fun s l => linkDown s l stLinkCommanded true true) t).sd = t.sd :=
    fun t => foldl_sd (fun u l => linkDown_sd u l stLinkCommanded true true) _ t
  exact sameClock_trans (sameClock_endExcursion s) (sameClock_trans (sameClock_of_sd (hdown _))
    (sameClock_trans (sameClock_of_sd (closeSessions_sd _)) (sameClock_trans (sameClock_warmState _) (sameClock_startFrom_warm _ env 5))))

/-! ### The steps of the tick -/

theorem failedHold_sd (n : Nat) : (failedHold s n).sd = s.sd := by
  unfold failedHold
  dsimp only
  split
  · exact raiseHold_sd ..
  · rfl

theorem holdNow_sd (n : Nat) : (holdNow s n).sd = s.sd := by
  unfold holdNow
  dsimp only
  split
  · rfl
  · simp only [settle_sd, emit_sd, setPlot_sd]

theorem stepHolds_sd : (stepHolds s).sd = s.sd :=
  (foldl_sd holdNow_sd _ _).trans ((foldl_sd adoptNow_sd _ _).trans (foldl_sd failedHold_sd _ s))

theorem pavResetNow_sd (r : Nat × Bool) : (pavResetNow s r).sd = s.sd := by
  simp only [pavResetNow, emit_sd, apply_ite State.sd, resetPav_sd, ite_self]

theorem engResetNow_sd (u : EngRef) : (engResetNow s u).sd = s.sd := by
  simp only [engResetNow, emit_sd, resetEngine_sd]

theorem sameClock_stepCommands : sameClock s (stepCommands s) := by
  unfold stepCommands
  split
  · exact sameClock_warmReset ..
  · extract_lets t ps es power cleared
    have ht : t.sd = s.sd := foldl_sd commandNow_sd allPlots s
    have hpavs : (ps.foldl pavResetNow cleared).sd = cleared.sd := foldl_sd pavResetNow_sd ps cleared
    have hengs : (es.foldl engResetNow (ps.foldl pavResetNow cleared)).sd = (ps.foldl pavResetNow cleared).sd :=
      foldl_sd engResetNow_sd es _
    have hcleared : cleared.sd = t.sd := by simp only [cleared]
    exact sameClock_of_sd (hengs.trans (hpavs.trans (hcleared.trans ht)))

theorem activationTick_sd (n : Nat) : (activationTick s n).sd = s.sd := by
  unfold activationTick
  split
  · rw [lapseNow_sd, activateNow_sd, modPlot_sd]
  · rfl

theorem stepActivations_sd : (stepActivations s).sd = s.sd := foldl_sd activationTick_sd allPlots s

theorem sameClock_boundaryPeriod : sameClock s (boundaryPeriod s) := by
  unfold boundaryPeriod
  split
  · exact ⟨rfl, rfl⟩
  · exact sameClock_refl s

theorem boundaryRoutes_sd : (boundaryRoutes s).sd = s.sd := by
  unfold boundaryRoutes
  split
  · rfl
  · rfl

theorem boundaryLink_sd (l : Nat) : (boundaryLink s l).sd = s.sd := by
  unfold boundaryLink
  dsimp only
  split
  · rfl
  · exact setLink_sd ..

theorem sameClock_stepBoundary : sameClock s (stepBoundary s) := by
  unfold stepBoundary
  extract_lets values plots shards lodge domains
  have hvalues : sameClock s values := sameClock_trans (sameClock_boundaryPeriod s) (sameClock_of_sd (boundaryRoutes_sd (boundaryPeriod s)))
  have hshards : shards.sd = plots.sd := (stepCounters_sd _).trans (foldl_sd shardTick_sd _ plots)
  have hlinks : ((List.range 128).foldl boundaryLink domains).sd = domains.sd := foldl_sd boundaryLink_sd _ domains
  have hdomains : domains.sd = shards.sd := by simp only [domains]
  have hplots : plots.sd = values.sd := by simp only [plots]
  exact sameClock_trans hvalues (sameClock_of_sd (hlinks.trans (hdomains.trans (hshards.trans hplots))))

theorem sameClock_sundialRole : sameClock s (sundialRole s) := by
  unfold sundialRole
  dsimp only
  split
  · exact sameClock_trans (sameClock_endExcursion s) ⟨rfl, rfl⟩
  · split
    · split
      · exact ⟨rfl, rfl⟩
      · exact sameClock_refl s
    · exact sameClock_trans (sameClock_endExcursion s) ⟨rfl, rfl⟩

theorem sameClock_stepSlew : sameClock s (stepSlew s) := by
  unfold stepSlew
  extract_lets role on sd
  obtain ⟨hticks, hticking⟩ : sameClock s role := sameClock_sundialRole s
  exact ⟨hticks, hticking⟩

theorem sendBeats_sd (l : Nat) : (sendBeats s l).sd = s.sd := by
  unfold sendBeats
  split
  · exact modLink_sd ..
  · rfl

/-- A slew is at most 4 core cycles either way (R46). -/
theorem slewOf_bounds (err : Int) : -4 ≤ slewOf err ∧ slewOf err ≤ 4 := by
  unfold slewOf
  omega

theorem stepSlew_bounds : (stepSlew s).sd.heard = false ∧ -4 ≤ (stepSlew s).sd.slew ∧ (stepSlew s).sd.slew ≤ 4 := by
  refine ⟨rfl, ?_⟩
  simp only [stepSlew]
  split
  · exact slewOf_bounds ..
  · decide

end Sys2Proof.Machine
end

section
/-! PROOF. The tick: its steps one by one, on a plot, on a shard and on the boundary values, and in their order (Table 2.2). -/

namespace Sys2Proof.Machine

open Sys2Proof.Safety

/-! ### Steps 1 to 3 on a plot (R38, R334, R368) -/

section OnPlot

variable {s : State} {n : Nat}

/-- A record of a plot that is emitted once the plot has changed is the one that it would have been before, its epoch being kept. -/
theorem settle_emit_setPlot {x : Plot} (h : x.epoch = (plotAt s n).epoch) (k : RecKind) (src : Src) (args : List (Nat × Nat)) :
    settle (emit (setPlot s n x) k src (some n) args) =
      { s with plots := tblSet s.plots n x, tele := told s k src (some n) args } := by
  have htele : (emit (setPlot s n x) k src (some n) args).tele = (emit s k src (some n) args).tele := by
    simp only [emit, plotAt_setPlot_same, h, setPlot_tele, setPlot_sd]
  rw [told, ← htele]
  rfl

theorem failedHold_none (h : (plotAt s n).pavMask &&& s.failedMap = 0 ∨ (plotAt s n).state = 0 ∨ (plotAt s n).state = 4) :
    failedHold s n = s := by
  refine if_neg ?_
  rintro ⟨h0, h4, hmask, -⟩
  rcases h with h | h | h
  · exact hmask h
  · exact h0 h
  · exact h4 h

theorem failedHold_raised (hlo : 1 ≤ (plotAt s n).state) (hhi : (plotAt s n).state ≤ 3)
    (hmask : (plotAt s n).pavMask &&& s.failedMap ≠ 0) (hcause : (plotAt s n).causes.getLsbD hcPavilion = false) :
    failedHold s n = setPlot s n { plotAt s n with pendHold := setBit (plotAt s n).pendHold hcPavilion true } :=
  if_pos ⟨by omega, by omega, hmask, hcause⟩

theorem activationTick_idle (h : (plotAt s n).loadState ≠ 3) : activationTick s n = s := if_neg h

theorem holdNow_none (h : (plotAt s n).pendHold = 0) : holdNow s n = s := if_pos h

theorem holdNow_pending (h : (plotAt s n).pendHold ≠ 0) :
    holdNow s n = { s with
      plots := tblSet s.plots n { plotAt s n with
        held := true, causes := (plotAt s n).causes ||| (plotAt s n).pendHold, pendHold := 0 }
      tele := told s rkPlotHold srcModule (some n) [(32, ((plotAt s n).causes ||| (plotAt s n).pendHold).toNat)] } :=
  (if_neg h).trans (settle_emit_setPlot (by rfl) ..)

/-- Each command that waits for the tick, but for a reset, and what it does to its plot (Table 14.3). -/
theorem commandNow_cases (s : State) (n : Nat) :
    let p := plotAt s n
    (p.pendingCmd = none → commandNow s n = s) ∧
    (p.pendingCmd = some .start → commandNow s n = setPlot s n { p with
      pendingCmd := none, state := 2, startFrame := s.sd.ticks, quiet := 0, moved := true }) ∧
    (p.pendingCmd = some .suspend → commandNow s n = setPlot s n { p with pendingCmd := none, state := 3 }) ∧
    (p.pendingCmd = some .resume → commandNow s n = setPlot s n { p with pendingCmd := none, state := 2, quiet := 0 }) ∧
    (p.pendingCmd = some .release → commandNow s n = { s with
      plots := tblSet s.plots n { p with pendingCmd := none, held := false, causes := 0, quiet := 0 }
      tele := told s rkHoldReleased srcModule (some n) [] }) := by
  intro p
  refine ⟨fun h => ?_, fun h => ?_, fun h => ?_, fun h => ?_, fun h => ?_⟩
  case refine_5 =>
    simp only [commandNow, p, h]
    exact settle_emit_setPlot (by rfl) ..
  all_goals simp only [commandNow, p, h]

end OnPlot

/-! ### Step 5 on a shard (R265) -/

section OnShard

variable {s : State} {n k : Nat}

theorem setShard_setShard (s : State) (n : Nat) (x y : Shard) : setShard (setShard s n x) n y = setShard s n y := by
  simp only [setShard, tblSet_tblSet]

/-- One command of a shard, which leaves it in no state that the tick goes on to treat, is all that the tick does to it. -/
theorem shardTick_of_run {x : Shard} (hcmds : (shardAt s n).cmds = [k])
    (hrun : shardCmdRun (setShard s n { shardAt s n with cmds := [] }) n k = setShard s n x) (h3 : x.state ≠ 3) (h8 : x.state ≠ 8) :
    shardTick s n = setShard s n x := by
  have hall : shardCmdsRun s n = setShard s n x := by
    simp only [shardCmdsRun, hcmds, List.isEmpty_cons, Bool.false_eq_true, if_false, List.foldl_cons, List.foldl_nil]
    exact hrun
  simp only [shardTick_eq, hall, shardAt_setShard_same, if_neg h3, h8, false_and, if_false]

/-- COMMIT, INVALIDATE and the degraded commit, each in a state that allows it (Table 10.10). -/
theorem shardTick_command (hcmds : (shardAt s n).cmds = [k]) (hok : shardCmdOk (shardAt s n) k = true) (hk : k = 1 ∨ k = 5 ∨ k = 6) :
    let h := shardAt s n
    shardTick s n = setShard s n (
      if k = 1 then { h with cmds := [], cmdStatus := stOk, state := 4, todo := some (stOk, 0x04) }
      else if k = 5 then { h with cmds := [], cmdStatus := stOk, state := 0 }
      else { h with cmds := [], cmdStatus := stOk, state := 4, todo := some (stDegradedCommit, 0x08) }) := by
  intro h
  have hok' : shardCmdOk { h with cmds := [] } k = true := hok
  refine shardTick_of_run hcmds ?_ ?_ ?_
  · rcases hk with rfl | rfl | rfl <;> simp [shardCmdRun, h, hok', commitDue, modShard, setShard_setShard]
  · rcases hk with rfl | rfl | rfl <;> simp
  · rcases hk with rfl | rfl | rfl <;> simp

end OnShard

/-! ### The tick (R38, R46) -/

/-- The first tick after power-good leaves the count as it is, and every later one adds one (R38, R53). -/
theorem stepCount_clock (s : State) :
    (stepCount s).sd.ticking = true ∧ (stepCount s).sd.ticks = if s.sd.ticking then s.sd.ticks + 1 else s.sd.ticks := by
  unfold stepCount
  split
  · next h => exact ⟨h, rfl⟩
  · exact ⟨rfl, rfl⟩

/-- The frame that has ended, if one has, closed and counted. -/
def tickBegun (s : State) (env : TickEnv) : State := stepCount (if s.sd.ticking then frameEnd s env else s)

theorem tickBegun_clock (s : State) (env : TickEnv) :
    (tickBegun s env).sd.ticking = true ∧ (tickBegun s env).sd.ticks = if s.sd.ticking then s.sd.ticks + 1 else s.sd.ticks := by
  obtain ⟨hticks, hticking⟩ : sameClock s (if s.sd.ticking then frameEnd s env else s) := by
    split
    · exact sameClock_frameEnd s env
    · exact sameClock_refl s
  obtain ⟨hon, hcount⟩ := stepCount_clock (if s.sd.ticking then frameEnd s env else s)
  rw [hticks, hticking] at hcount
  exact ⟨hon, hcount⟩

/-- The steps from the pending holds on, in their order. -/
def tickFromHolds (s : State) : State :=
  (List.range 128).foldl sendBeats
    (stepSlew (stepBoundary (stepActivations (stepCommands (stepHolds { s with tele := uncoalesce s.tele })))))

theorem exec_tick_off {s : State} (env : TickEnv) (h : s.power.pg = false) : exec (.tick env) s = .next (settle s) := by
  show execTick env s = _
  simp only [execTick, h, Bool.not_false, if_true, done]

theorem exec_tick_on {s : State} (env : TickEnv) (h : s.power.pg = true) :
    exec (.tick env) s = .next (settle (tickFromHolds (tickBegun s env))) := by
  show execTick env s = _
  simp only [execTick, h, Bool.not_true, Bool.false_eq_true, if_false]
  rfl

/-- No step after the first changes the tick count. -/
theorem sameClock_tickFromHolds (s : State) : sameClock s (tickFromHolds s) := by
  have hholds : sameClock s (stepHolds { s with tele := uncoalesce s.tele }) := sameClock_of_sd (stepHolds_sd _)
  have hcommands := sameClock_trans hholds (sameClock_stepCommands _)
  have hactivations := sameClock_trans hcommands (sameClock_of_sd (stepActivations_sd _))
  have hboundary := sameClock_trans hactivations (sameClock_stepBoundary _)
  have hslew := sameClock_trans hboundary (sameClock_stepSlew _)
  exact sameClock_trans hslew (sameClock_of_sd (foldl_sd sendBeats_sd _ _))

/-- The frame begins with nothing heard in it, under a slew of at most 4 core cycles (R46). -/
theorem tickFromHolds_slew (s : State) :
    (tickFromHolds s).sd.heard = false ∧ -4 ≤ (tickFromHolds s).sd.slew ∧ (tickFromHolds s).sd.slew ≤ 4 := by
  unfold tickFromHolds
  rw [foldl_sd sendBeats_sd]
  exact stepSlew_bounds _

/-! ### The obligation -/

/-- Settles O60: the tick is the steps in their order, of which only the first counts and the last slews. -/
theorem tickSteps : Obligations.TickSteps := by
  unfold Obligations.TickSteps
  intro s env
  refine ⟨exec_tick_off env, fun hpg => ⟨exec_tick_on env hpg, _, exec_tick_on env hpg, ?clock⟩, fun h => if_pos h, fun h => ?first,
    fun n => ⟨failedHold_none, failedHold_raised, activationTick_idle, holdNow_none, holdNow_pending, commandNow_cases s n⟩,
    fun h => ?commands, fun e h => ?warm, fun h => if_pos h, fun h => if_pos h, fun n k => shardTick_command⟩
  case clock =>
    obtain ⟨hticks, hticking⟩ := sameClock_tickFromHolds (tickBegun s env)
    obtain ⟨hon, hcount⟩ := tickBegun_clock s env
    rw [settle_sd]
    exact ⟨hticking.trans hon, (tickFromHolds_slew _).1, hticks.trans hcount, (tickFromHolds_slew _).2⟩
  case first => exact if_neg (by rw [h]; exact Bool.false_ne_true)
  case commands =>
    unfold stepCommands
    rw [h]
  case warm =>
    unfold stepCommands
    rw [h]

end Sys2Proof.Machine
end

section
/-! PROOF. The invariant of every state (R93, R101): what it says of each unit, and that it is kept by the operations over the state and by
the TILE, ACCUM and control commands. -/

namespace Sys2Proof.Machine
open Sys2Proof.Safety

/-! ### What the invariant says of each unit -/

/-- What `kept` says of one pavilion: data SRAM and stationary buffers canonical, vector length at most 512 (R93, R101). -/
def keptPav (v : Pavilion) : Prop := Memory.wf v.sram = true ∧ Memory.wf v.latStat = true ∧ v.vl ≤ 512

/-- What `kept` says of one port die: buffer memory canonical. -/
def keptDie (d : Dovecote) : Prop := Memory.wf d.mem = true

theorem kept_iff {s : State} :
    kept s ↔ Memory.wf s.hbm.mem = true ∧ (∀ e ∈ s.pavs, keptPav e.2) ∧ ∀ e ∈ s.coll.dies, keptDie e.2 := by
  constructor
  · rintro ⟨⟨hhbm, hpavs, hdies⟩, hvl⟩
    exact ⟨hhbm, fun e he => ⟨(hpavs e he).1, (hpavs e he).2, hvl e he⟩, hdies⟩
  · rintro ⟨hhbm, hpavs, hdies⟩
    exact ⟨⟨hhbm, fun e he => ⟨(hpavs e he).1, (hpavs e he).2.1⟩, hdies⟩, fun e he => (hpavs e he).2.2⟩

/-- Parts of the state other than pavilions, collectives and HBM are free. -/
theorem kept_mk {s : State} {pending out sd ar enableMap failedMap powered powering sigs plots pools shards norms net route gate kiosk
    journal tele lodge power testResult} (h : kept s) :
    kept ⟨pending, out, sd, ar, enableMap, failedMap, powered, powering, s.pavs, sigs, plots, s.coll, pools, shards, norms, s.hbm, net, route,
      gate, kiosk, journal, tele, lodge, power, testResult⟩ := h

/-- Parts of a pavilion other than its byte stores and vector length are free. -/
theorem keptPav_mk {v : Pavilion} {badWords ctrs limited tiles scalars sums slots latAcc latFull cursors sortBuf engines testing}
    (hv : keptPav v) :
    keptPav ⟨v.sram, badWords, ctrs, limited, tiles, scalars, v.vl, sums, slots, latAcc, v.latStat, latFull, cursors, sortBuf, engines,
      testing⟩ := hv

theorem kept_foldl {α : Type} {f : State → α → State} (hf : ∀ s a, kept s → kept (f s a)) {l : List α} {s : State} (h : kept s) :
    kept (l.foldl f s) :=
  List.foldlRecOn (motive := kept) l f h (fun t ht a _ => hf t a ht)

theorem kept_ite {c : Prop} [Decidable c] {s t : State} (hs : kept s) (ht : kept t) : kept (if c then s else t) := by
  split
  · exact hs
  · exact ht

/-- The block answers with a state that keeps the invariant. -/
def keptNext (o : Host.Outcome State Fault Refusal) : Prop := ∀ t, o = .next t → kept t

/-- An effect keeps the invariant, done or failed. -/
def keptEff : Eff → Prop
  | .ok s => kept s
  | .fail _ s => kept s

/-- A condition that passes keeps the invariant. -/
def keptOk : Except U16 State → Prop
  | .ok s => kept s
  | .error _ => True

/-- The state answered, if any, keeps the invariant. -/
def keptSome : Option State → Prop
  | some s => kept s
  | none => True

/-- A segment that is taken, or that stalls for a buffer, keeps the invariant. -/
def keptSeg : SegRes → Prop
  | .ok s => kept s
  | .stall s => kept s

theorem kept_of_effOk {r : Eff} {t : State} (hr : r = .ok t) (h : keptEff r) : kept t := by
  rw [hr] at h
  exact h

theorem kept_of_effFail {r : Eff} {f : Fail} {t : State} (hr : r = .fail f t) (h : keptEff r) : kept t := by
  rw [hr] at h
  exact h

theorem kept_of_segOk {r : SegRes} {t : State} (hr : r = .ok t) (h : keptSeg r) : kept t := by
  rw [hr] at h
  exact h

theorem kept_of_segStall {r : SegRes} {t : State} (hr : r = .stall t) (h : keptSeg r) : kept t := by
  rw [hr] at h
  exact h

theorem kept_of_ok {r : Except U16 State} {t : State} (hr : r = .ok t) (h : keptOk r) : kept t := by
  rw [hr] at h
  exact h

theorem kept_of_some {r : Option State} {t : State} (hr : r = some t) (h : keptSome r) : kept t := by
  rw [hr] at h
  exact h

theorem keptPav_pavAt {i : Nat} (h : kept s) : keptPav (pavAt s i) := by
  rcases tblGet_mem {} s.pavs i with hi | hi
  · show keptPav (tblGet {} s.pavs i)
    rw [hi]
    exact ⟨rfl, rfl, Nat.le_refl _⟩
  · exact (kept_iff.1 h).2.1 _ hi

theorem keptDie_dieAt {j : Nat} (h : kept s) : keptDie (dieAt s j) := by
  rcases tblGet_mem {} s.coll.dies j with hj | hj
  · show keptDie (tblGet {} s.coll.dies j)
    rw [hj]
    rfl
  · exact (kept_iff.1 h).2.2 _ hj

theorem kept_setPav {i : Nat} {v : Pavilion} (hv : keptPav v) (h : kept s) : kept (setPav s i v) := by
  obtain ⟨hhbm, hpavs, hdies⟩ := kept_iff.1 h
  refine kept_iff.2 ⟨hhbm, fun e he => ?_, hdies⟩
  rcases mem_tblSet he with rfl | he
  · exact hv
  · exact hpavs e he

theorem kept_modPav {i : Nat} {f : Pavilion → Pavilion} (h : kept s) (hf : ∀ v, keptPav v → keptPav (f v) := by exact fun _ hv => hv) :
    kept (modPav s i f) :=
  kept_setPav (hf _ (keptPav_pavAt h)) h

theorem kept_setDie {j : Nat} {d : Dovecote} (hd : keptDie d) (h : kept s) : kept (setDie s j d) := by
  obtain ⟨hhbm, hpavs, hdies⟩ := kept_iff.1 h
  refine kept_iff.2 ⟨hhbm, hpavs, fun e he => ?_⟩
  rcases mem_tblSet he with rfl | he
  · exact hd
  · exact hdies e he

theorem kept_modDie {j : Nat} {f : Dovecote → Dovecote} (h : kept s) (hf : ∀ d, keptDie d → keptDie (f d) := by exact fun _ hd => hd) :
    kept (modDie s j f) :=
  kept_setDie (hf _ (keptDie_dieAt h)) h

theorem kept_setEng {u : EngRef} {e : Engine} (h : kept s) : kept (setEng s u e) := kept_modPav h

theorem kept_modEng {u : EngRef} {f : Engine → Engine} (h : kept s) : kept (modEng s u f) := kept_setEng h

theorem kept_setCtr {p c : Nat} {x : Counter} (h : kept s) : kept (setCtr s p c x) := kept_modPav h

theorem keptPav_sramWrite {v : Pavilion} {a : Nat} {bs : List Byte} (hv : keptPav v) : keptPav (sramWrite v a bs).1 :=
  ⟨memWritesBut_wf _ _ _ hv.1, hv.2⟩

theorem keptPav_sramWrites {ws : List (Nat × List Byte)} : ∀ {v : Pavilion}, keptPav v → keptPav (sramWrites v ws).1 := by
  induction ws with
  | nil => exact fun hv => hv
  | cons w ws ih => exact fun hv => ih (keptPav_sramWrite hv)

theorem keptPav_of_sramWrites {v w : Pavilion} {ws : List (Nat × List Byte)} {e : Option Nat} (hw : sramWrites v ws = (w, e))
    (hv : keptPav v) : keptPav w := by
  have hkept : keptPav (sramWrites v ws).1 := keptPav_sramWrites hv
  rw [hw] at hkept
  exact hkept

/-- A new HBM whose memory is canonical. -/
theorem kept_hbm {m : Hbm} (hm : Memory.wf m.mem = true) (h : kept s) : kept { s with hbm := m } := by
  obtain ⟨_, hpavs, hdies⟩ := kept_iff.1 h
  exact kept_iff.2 ⟨hm, hpavs, hdies⟩

theorem kept_hbmWrite {as : List Nat} {bs : List Byte} (h : kept s) : kept { s with hbm := (hbmWrite s.hbm as bs).1 } :=
  kept_hbm (hbmPut_wf _ _ (kept_iff.1 h).1) h

/-- New collectives whose port dies are the old ones. -/
theorem kept_coll {c : Coll} (hc : c.dies = s.coll.dies) (h : kept s) : kept { s with coll := c } := by
  obtain ⟨hhbm, hpavs, hdies⟩ := kept_iff.1 h
  exact kept_iff.2 ⟨hhbm, hpavs, hc ▸ hdies⟩

theorem kept_setStack {k : Nat} {x : Stack} (h : kept s) : kept (setStack s k x) := h

theorem kept_modStack {k : Nat} {f : Stack → Stack} (h : kept s) : kept (modStack s k f) := h

theorem keptNext_done (h : kept s) : keptNext (done s) := by
  intro t ht
  cases ht
  exact h

theorem kept_of_eq {α : Type} {x : State × α} {t : State} {a : α} (hx : x = (t, a)) (h : kept x.1) : kept t := by
  rw [hx] at h
  exact h

theorem keptPav_foldl {α : Type} {f : Pavilion → α → Pavilion} (hf : ∀ v a, keptPav v → keptPav (f v a)) {l : List α} {v : Pavilion}
    (hv : keptPav v) : keptPav (l.foldl f v) :=
  List.foldlRecOn (motive := keptPav) l f hv (fun w hw a _ => hf w a hw)

theorem keptPav_setScalar {v : Pavilion} {n x : Nat} (hv : keptPav v) : keptPav (setScalar v n x) := hv

theorem keptPav_tileSet {v : Pavilion} {t e : Nat} {x : TVal} (hv : keptPav v) : keptPav (tileSet v t e x) := hv

theorem keptPav_setSlot {v : Pavilion} {j : Nat} {t : Slot} (hv : keptPav v) : keptPav (setSlot v j t) := hv

theorem keptPav_addAll {v : Pavilion} {cs : List (Nat × Num)} (hv : keptPav v) : keptPav (addAll v cs).1 :=
  List.foldlRecOn (motive := fun w : Pavilion × List Nat => keptPav w.1) cs _ hv (fun _ hw _ _ => keptPav_setSlot hw)

theorem keptPav_carryAll {v : Pavilion} {cs : List (Nat × Carry)} (hv : keptPav v) : keptPav (carryAll v cs).1 :=
  List.foldlRecOn (motive := fun w : Pavilion × List Nat => keptPav w.1) cs _ hv (fun _ hw _ _ => keptPav_setSlot hw)

theorem keptPav_loadRow {o : TileMem} {k : CmdHdr} {iter : Nat} {v : Pavilion} {r : Nat × Nat} (hv : keptPav v) :
    keptPav (loadRow o k iter v r) :=
  keptPav_foldl (fun _ _ hw => keptPav_tileSet hw) hv

theorem keptEff_ofWrite {u : EngRef} {r : Pavilion × Option Nat} (hr : keptPav r.1) (h : kept s) : keptEff (Eff.ofWrite u s r) := by
  unfold Eff.ofWrite
  split
  · exact kept_setPav hr h
  · exact kept_setPav hr h

variable {s : State}

/-! ### Units of the state -/

theorem kept_setPlot {n : Nat} {p : Plot} (h : kept s) : kept (setPlot s n p) :=
  kept_mk h

theorem kept_modPlot {n : Nat} {f : Plot → Plot} (h : kept s) : kept (modPlot s n f) :=
  kept_setPlot h

theorem kept_setShard {n : Nat} {h : Shard} (hs : kept s) : kept (setShard s n h) :=
  kept_mk hs

theorem kept_modShard {n : Nat} {f : Shard → Shard} (h : kept s) : kept (modShard s n f) :=
  kept_setShard h

theorem kept_setNorm {n : Nat} {x : Norm} (h : kept s) : kept (setNorm s n x) :=
  kept_mk h

theorem kept_modNorm {n : Nat} {f : Norm → Norm} (h : kept s) : kept (modNorm s n f) :=
  kept_setNorm h

theorem kept_setPort {n : Nat} {x : Port} (h : kept s) : kept (setPort s n x) :=
  kept_mk h

theorem kept_setLink {l : Nat} {x : Link} (h : kept s) : kept (setLink s l x) :=
  kept_mk h

theorem kept_modLink {l : Nat} {f : Link → Link} (h : kept s) : kept (modLink s l f) :=
  kept_setLink h

theorem kept_setSess {k : Nat} {x : Session} (h : kept s) : kept (setSess s k x) :=
  kept_mk h

theorem kept_modSess {k : Nat} {f : Session → Session} (h : kept s) : kept (modSess s k f) :=
  kept_setSess h

theorem kept_setDom {n : Nat} {x : Domain} (h : kept s) : kept (setDom s n x) :=
  kept_mk h

theorem kept_modDom {n : Nat} {f : Domain → Domain} (h : kept s) : kept (modDom s n f) :=
  kept_setDom h

theorem kept_setPool {p : Nat} {x : Pool} (h : kept s) : kept (setPool s p x) :=
  kept_mk h

theorem kept_settle (h : kept s) : kept (settle s) :=
  kept_mk h

theorem kept_emit {k : RecKind} {src : Src} {plot : Option Nat} {args : List (Nat × Nat)} (h : kept s) : kept (emit s k src plot args) :=
  kept_mk h

theorem kept_raiseHold {n cause : Nat} (h : kept s) : kept (raiseHold s n cause) :=
  kept_modPlot h

theorem kept_containedHold {ns : List Nat} {cause : Nat} (h : kept s) : kept (containedHold s ns cause) := by
  unfold containedHold
  dsimp only
  split
  · exact h
  · exact kept_foldl (fun _ _ ht => kept_raiseHold ht) (kept_mk h)

theorem kept_plainHold {ns : List Nat} {cause : Nat} (h : kept s) : kept (plainHold s ns cause) :=
  kept_foldl (fun _ _ ht => kept_raiseHold ht) h

theorem kept_uncontained (h : kept s) : kept (uncontained s) :=
  kept_plainHold (kept_mk (kept_emit h))

theorem kept_moved {n : Nat} (h : kept s) : kept (moved s n) :=
  kept_modPlot h

theorem kept_ctrClamped {n : Nat} {src : Src} {first : Bool} {ctr : Nat} {up : Bool} {o : CtrSrc} {senders : Nat} (h : kept s) :
    kept (ctrClamped s n src first ctr up o senders) := by
  unfold ctrClamped
  dsimp only
  split
  · exact kept_emit (kept_modPlot h)
  · exact kept_modPlot h

theorem kept_signalPav {p ctr : Nat} {sigs : List (Nat × CtrSrc)} (h : kept s) : kept (signalPav s p ctr sigs).1 := by
  unfold signalPav
  dsimp only
  split
  · split
    · exact h
    · exact kept_foldl (fun _ _ ht => kept_emit ht) (kept_modPlot h)
  · split
    · refine kept_ctrClamped (kept_modPav ?_)
      split
      · exact kept_moved (kept_setCtr h)
      · exact kept_setCtr h
    · dsimp only
      split
      · exact kept_moved (kept_setCtr h)
      · exact kept_setCtr h
    · dsimp only
      split
      · exact kept_moved (kept_setCtr h)
      · exact kept_setCtr h

theorem kept_setTrig {die plot rel : Nat} {c : Counter} (h : kept s) : kept (setTrig s die plot rel c) :=
  kept_modDie h

theorem kept_signalTrig {die plot rel : Nat} {sigs : List (Nat × CtrSrc)} (h : kept s) : kept (signalTrig s die plot rel sigs).1 := by
  unfold signalTrig
  dsimp only
  split
  · exact h
  · split
    · exact kept_foldl (fun _ _ ht => kept_emit ht) (kept_modPlot h)
    · split
      · exact kept_ctrClamped (kept_modDie (kept_moved (kept_setTrig h)))
      · exact kept_moved (kept_setTrig h)

theorem kept_pavFault {k : RecKind} {i : Nat} (h : kept s) : kept (pavFault s k i) :=
  kept_containedHold (kept_mk (kept_emit h))

theorem kept_pavCorrected {i : Nat} (h : kept s) : kept (pavCorrected s i) :=
  kept_emit h

/-! ### HBM -/

theorem kept_hbmUncorrected {a : Nat} {consumed : Bool} (h : kept s) : kept (hbmUncorrected s a consumed) := by
  unfold hbmUncorrected
  dsimp only
  split
  · exact kept_uncontained (kept_emit (kept_modStack h))
  · split
    · exact kept_containedHold (kept_emit (kept_modStack h))
    · exact kept_emit (kept_modStack h)

theorem kept_hbmCorrectedAt {a : Nat} (h : kept s) : kept (hbmCorrectedAt s a) :=
  kept_emit (kept_modStack h)

theorem kept_hbmOnDie {a : Nat} (h : kept s) : kept (hbmOnDie s a) :=
  kept_modStack h

theorem kept_hbmUpset {x : Upset} (h : kept s) : kept (hbmUpset s x) := by
  unfold hbmUpset
  dsimp only
  split
  · split
    · refine kept_hbmOnDie ?_
      split
      · exact kept_hbmCorrectedAt h
      · exact h
    · split
      · exact kept_hbmCorrectedAt h
      · exact h
  · refine kept_mk ?_
    split
    · refine kept_hbmOnDie ?_
      split
      · exact kept_hbmCorrectedAt h
      · exact h
    · split
      · exact kept_hbmCorrectedAt h
      · exact h

theorem kept_dieUpset {x : Upset} (h : kept s) : kept (dieUpset s x) :=
  kept_foldl (fun _ _ ht => kept_modDie ht) h

theorem kept_dieFault {j : Nat} {ns : List Nat} (h : kept s) : kept (dieFault s j ns) :=
  kept_containedHold (kept_emit h)

/-! ### Engines -/

theorem kept_engStop {u : EngRef} {tag : BitVec 16} {st : U16} (h : kept s) : kept (engStop s u tag st) :=
  kept_modEng h

theorem kept_engFail {u : EngRef} {tag : BitVec 16} {f : Fail} (h : kept s) : kept (engFail s u tag f) := by
  unfold engFail
  dsimp only
  split
  · exact kept_containedHold (kept_emit (kept_engStop h))
  · exact kept_containedHold (kept_emit (kept_engStop h))
  · exact kept_plainHold (kept_containedHold (kept_emit (kept_mk (kept_engStop h))))
  · exact kept_containedHold (kept_emit (kept_engStop h))
  · exact kept_plainHold (kept_pavFault (kept_engStop h))
  · exact kept_plainHold (kept_pavFault (kept_engStop h))
  · exact kept_plainHold (kept_dieFault (kept_engStop h))
  · exact kept_plainHold (kept_pavFault (kept_engStop h))
  · exact kept_plainHold (kept_hbmUncorrected (kept_engStop h))

theorem kept_queueParity {u : EngRef} {x : Upset} (h : kept s) : kept (queueParity s u x) := by
  unfold queueParity
  dsimp only
  split
  · exact kept_modEng (kept_engFail h)
  · exact kept_engFail h

theorem keptNext_execCommandFetch {u : EngRef} {x : Upset} (h : kept s) : keptNext (execCommandFetch u x s) := by
  unfold execCommandFetch
  dsimp only
  split
  · exact keptNext_done (kept_queueParity h)
  · split
    · exact keptNext_done h
    · split
      · exact keptNext_done h
      · split
        · exact keptNext_done (kept_engFail h)
        · exact keptNext_done h
      · refine keptNext_done ?_
        split
        · exact kept_moved (kept_setEng h)
        · exact kept_setEng h

theorem kept_consumeWait {u : EngRef} {k : CmdHdr} (h : kept s) : kept (consumeWait s u k) := by
  unfold consumeWait
  dsimp only
  split
  · exact kept_setCtr h
  · exact h

theorem kept_headIssued {u : EngRef} {q : QCmd} {sig : SigState} (h : kept s) : kept (headIssued s u q sig) := by
  unfold headIssued
  dsimp only
  split
  · exact kept_moved (kept_modEng h)
  · exact kept_modEng h

theorem kept_pavUpset {u : EngRef} {x : Upset} (h : kept s) : kept (pavUpset s u x) := by
  unfold pavUpset
  dsimp only
  split
  · split
    · exact kept_pavCorrected (kept_dieUpset (kept_hbmUpset h))
    · exact kept_dieUpset (kept_hbmUpset h)
  · exact kept_modPav (kept_ite (kept_pavCorrected (kept_dieUpset (kept_hbmUpset h))) (kept_dieUpset (kept_hbmUpset h)))
      (fun _ hv => keptPav_mk hv)

/-- A head that issues, waits or fails keeps what its effect keeps. -/
theorem kept_issueCmd {u : EngRef} {x : Upset} {c : EngCmd} {sig : SigState} {f : Nat → State → Eff}
    (hf : ∀ i s, kept s → keptEff (f i s)) (h : kept s) : kept (issueCmd u x c sig f s) := by
  unfold issueCmd
  split
  · exact h
  · next q _ _ =>
    split
    · exact h
    · split
      · exact kept_queueParity h
      · split
        · exact kept_modEng h
        · have hupset : kept (pavUpset (consumeWait s u c.hdr) u x) := kept_pavUpset (kept_consumeWait h)
          have heff := hf q.iter _ hupset
          dsimp only
          split
          · exact kept_engFail hupset
          · split
            · next r t ht => rw [ht] at heff; exact kept_engFail heff
            · next t ht => rw [ht] at heff; exact kept_headIssued heff

theorem keptNext_issueOp {u : EngRef} {x : Upset} {k : CmdHdr} {op : EngOp} {f : Nat → State → Eff}
    (hf : ∀ i s, kept s → keptEff (f i s)) (h : kept s) : keptNext (issueOp u x k op f s) :=
  keptNext_done (kept_issueCmd hf h)

theorem keptNext_execHeadClockGate {u : EngRef} (h : kept s) : keptNext (execHeadClockGate u s) := by
  unfold execHeadClockGate
  dsimp only
  split
  · exact keptNext_done h
  · split
    · exact keptNext_done (kept_modEng h)
    · exact keptNext_done h

theorem keptNext_execBreakHit {u : EngRef} (h : kept s) : keptNext (execBreakHit u s) := by
  unfold execBreakHit
  dsimp only
  split
  · exact keptNext_done h
  · split
    · refine keptNext_done (kept_emit ?_)
      split
      · exact kept_moved (kept_modEng h)
      · exact kept_modEng h
    · exact keptNext_done h

theorem kept_traceCmd {u : EngRef} {c : EngCmd} {st : U16} (h : kept s) : kept (traceCmd s u c st) := by
  unfold traceCmd
  split
  · exact kept_emit h
  · exact h

theorem keptNext_execCommandComplete {u : EngRef} (h : kept s) : keptNext (execCommandComplete u s) := by
  unfold execCommandComplete
  dsimp only
  split
  · exact keptNext_done h
  · split
    · exact keptNext_done h
    · split
      · exact keptNext_done (kept_containedHold (kept_traceCmd (kept_engStop (kept_modEng h))))
      · split
        · refine keptNext_done (kept_modEng (kept_traceCmd ?_))
          split
          · refine kept_signalPav ?_
            split
            · split
              · exact kept_moved (kept_modEng h)
              · exact kept_modEng h
            · exact kept_modEng h
          · dsimp only
            split
            · split
              · exact kept_moved (kept_modEng h)
              · exact kept_modEng h
            · exact kept_modEng h
        · refine keptNext_done (kept_traceCmd ?_)
          split
          · refine kept_signalPav ?_
            split
            · split
              · exact kept_moved (kept_modEng h)
              · exact kept_modEng h
            · exact kept_modEng h
          · dsimp only
            split
            · split
              · exact kept_moved (kept_modEng h)
              · exact kept_modEng h
            · exact kept_modEng h

/-! ### TILE -/

/-- SETVL takes no value above 512 (Table 5.4). -/
theorem keptEff_effSetvl {u : EngRef} {n : BitVec 10} {i : Nat} (h : kept s) : keptEff (effSetvl u n i s) := by
  unfold effSetvl
  split
  · exact h
  · next hn => exact kept_modPav h (fun v hv => ⟨hv.1, hv.2.1, Nat.not_lt.1 hn⟩)

theorem keptNext_execSetvl {u : EngRef} {x : Upset} {k : CmdHdr} {n : BitVec 10} (h : kept s) : keptNext (execSetvl u x k n s) :=
  keptNext_issueOp (fun _ _ ht => keptEff_effSetvl ht) h

/-- SETVLS stops at 512 (R101). -/
theorem keptNext_execSetvls {u : EngRef} {x : Upset} {k : CmdHdr} {sn : BitVec 5} (h : kept s) : keptNext (execSetvls u x k sn s) :=
  keptNext_issueOp (fun _ _ ht => kept_modPav ht (fun _ hv => ⟨hv.1, hv.2.1, Nat.min_le_right _ _⟩)) h

theorem keptNext_execSli {u : EngRef} {x : Upset} {k : CmdHdr} {d : BitVec 5} {imm : BitVec 32} (h : kept s) :
    keptNext (execSli u x k d imm s) :=
  keptNext_issueOp (fun _ _ ht => kept_modPav ht (fun _ hv => keptPav_setScalar hv)) h

theorem keptEff_effSalu {u : EngRef} {o : SaluOps} {x : Nat} (h : kept s) : keptEff (effSalu u o x s) := by
  unfold effSalu
  dsimp only
  split
  · exact h
  · exact kept_setPav (keptPav_setScalar (keptPav_pavAt h)) h

theorem keptNext_execSalu {u : EngRef} {x : Upset} {k : CmdHdr} {o : SaluOps} (h : kept s) : keptNext (execSalu u x k o s) :=
  keptNext_issueOp (fun _ _ ht => keptEff_effSalu ht) h

theorem keptEff_effTld {u : EngRef} {k : CmdHdr} {o : TileMem} {iter : Nat} (h : kept s) : keptEff (effTld u k o iter s) := by
  unfold effTld
  dsimp only
  split
  · exact h
  · split
    · exact h
    · split
      · exact h
      · exact kept_setPav (keptPav_foldl (fun _ _ hv => keptPav_loadRow hv) (keptPav_pavAt h)) h

theorem keptNext_execTld {u : EngRef} {x : Upset} {k : CmdHdr} {o : TileMem} (h : kept s) : keptNext (execTld u x k o s) :=
  keptNext_issueOp (fun _ _ ht => keptEff_effTld ht) h

theorem keptEff_effTst {u : EngRef} {k : CmdHdr} {o : TileMem} {iter : Nat} (h : kept s) : keptEff (effTst u k o iter s) := by
  unfold effTst
  dsimp only
  split
  · exact h
  · split
    · exact h
    · split
      · exact h
      · exact keptEff_ofWrite (keptPav_sramWrites (keptPav_mk (keptPav_pavAt h))) h

theorem keptNext_execTst {u : EngRef} {x : Upset} {k : CmdHdr} {o : TileMem} (h : kept s) : keptNext (execTst u x k o s) :=
  keptNext_issueOp (fun _ _ ht => keptEff_effTst ht) h

theorem keptEff_effTsum {u : EngRef} {k : CmdHdr} {o : TileMem} {iter : Nat} (h : kept s) : keptEff (effTsum u k o iter s) := by
  unfold effTsum
  dsimp only
  split
  · exact h
  · exact keptEff_ofWrite (keptPav_sramWrite (keptPav_mk (keptPav_pavAt h))) h

theorem keptNext_execTsum {u : EngRef} {x : Upset} {k : CmdHdr} {o : TileMem} (h : kept s) : keptNext (execTsum u x k o s) :=
  keptNext_issueOp (fun _ _ ht => keptEff_effTsum ht) h

theorem keptEff_effExec {u : EngRef} {o : ExecOps} {x : Nat} (h : kept s) : keptEff (effExec u o x s) := by
  unfold effExec
  dsimp only
  split
  · exact h
  · exact kept_setPav (keptPav_foldl (fun _ _ hv => keptPav_foldl (fun _ _ hv => keptPav_tileSet hv) hv) (keptPav_pavAt h)) h

theorem keptNext_execExecProg {u : EngRef} {x : Upset} {k : CmdHdr} {o : ExecOps} (h : kept s) : keptNext (execExecProg u x k o s) :=
  keptNext_issueOp (fun _ _ ht => keptEff_effExec ht) h

/-! ### Accumulators -/

theorem keptEff_effAmode {u : EngRef} {o : AmodeOps} {x : Nat} (h : kept s) : keptEff (effAmode u o x s) := by
  unfold effAmode
  dsimp only
  split
  · exact h
  · split
    · exact h
    · split
      · exact h
      · exact kept_setPav (keptPav_foldl (fun _ _ hv => keptPav_setSlot hv) (keptPav_pavAt h)) h

theorem keptNext_execAmode {u : EngRef} {x : Upset} {k : CmdHdr} {o : AmodeOps} (h : kept s) : keptNext (execAmode u x k o s) :=
  keptNext_issueOp (fun _ _ ht => keptEff_effAmode ht) h

theorem keptEff_effAclr {u : EngRef} {o : AclrOps} {x : Nat} (h : kept s) : keptEff (effAclr u o x s) := by
  unfold effAclr
  split
  · exact h
  · exact kept_modPav h (fun _ hv => keptPav_foldl (fun _ _ hv => keptPav_setSlot hv) hv)

theorem keptNext_execAclr {u : EngRef} {x : Upset} {k : CmdHdr} {o : AclrOps} (h : kept s) : keptNext (execAclr u x k o s) :=
  keptNext_issueOp (fun _ _ ht => keptEff_effAclr ht) h

theorem kept_reportLimits {src : Src} {n : Option Nat} {js : List Nat} (h : kept s) : kept (reportLimits s src n js) :=
  kept_foldl (fun _ _ ht => kept_containedHold (kept_emit (kept_mk ht))) h

theorem kept_contribute {u : EngRef} {cs : List (Nat × Num)} (h : kept s) : kept (contribute u s cs) :=
  kept_reportLimits (kept_setPav (keptPav_addAll (keptPav_pavAt h)) h)

theorem keptEff_effAddd {u : EngRef} {k : CmdHdr} {o : AdddOps} {iter : Nat} (h : kept s) : keptEff (effAddd u k o iter s) := by
  unfold effAddd
  dsimp only
  split
  · exact h
  · split
    · split
      · exact h
      · split
        · exact h
        · split
          · exact h
          · exact kept_contribute h
    · split
      · exact h
      · split
        · exact h
        · split
          · exact h
          · exact kept_contribute h

theorem keptNext_execAddd {u : EngRef} {x : Upset} {k : CmdHdr} {o : AdddOps} (h : kept s) : keptNext (execAddd u x k o s) :=
  keptNext_issueOp (fun _ _ ht => keptEff_effAddd ht) h

theorem keptEff_effAddi {u : EngRef} {k : CmdHdr} {o : AddiOps} {iter : Nat} (h : kept s) : keptEff (effAddi u k o iter s) := by
  unfold effAddi
  dsimp only
  split
  · exact h
  · split
    · exact h
    · split
      · exact h
      · split
        · exact h
        · split
          · exact h
          · exact kept_contribute h

theorem keptNext_execAddi {u : EngRef} {x : Upset} {k : CmdHdr} {o : AddiOps} (h : kept s) : keptNext (execAddi u x k o s) :=
  keptNext_issueOp (fun _ _ ht => keptEff_effAddi ht) h

theorem keptEff_effAcarry {u : EngRef} {k : CmdHdr} {o : AcarryOps} {iter : Nat} (h : kept s) : keptEff (effAcarry u k o iter s) := by
  unfold effAcarry
  dsimp only
  split
  · exact h
  · split
    · exact h
    · split
      · exact h
      · split
        · exact h
        · exact kept_reportLimits (kept_setPav (keptPav_carryAll (keptPav_pavAt h)) h)

theorem keptNext_execAcarry {u : EngRef} {x : Upset} {k : CmdHdr} {o : AcarryOps} (h : kept s) : keptNext (execAcarry u x k o s) :=
  keptNext_issueOp (fun _ _ ht => keptEff_effAcarry ht) h

theorem keptEff_effAdrain {u : EngRef} {k : CmdHdr} {o : AdrainOps} {iter : Nat} (h : kept s) : keptEff (effAdrain u k o iter s) := by
  unfold effAdrain
  dsimp only
  refine iteInduction (fun _ => h) fun _ => iteInduction (fun _ => h) fun _ => ?_
  split
  · exact h
  · generalize drainBlk _ = b
    refine iteInduction (fun _ => h) fun _ => iteInduction (fun _ => h) fun _ => ?_
    split
    · next v' heq =>
      have hv : keptPav v' := keptPav_of_sramWrites heq (keptPav_pavAt h)
      refine kept_setPav (keptPav_foldl (fun _ _ hw => keptPav_setSlot hw) hv) ?_
      split
      · exact h
      · exact kept_emit (kept_mk h)
    · refine keptEff_ofWrite (keptPav_sramWrites (keptPav_pavAt h)) ?_
      split
      · exact h
      · exact kept_emit (kept_mk h)

theorem keptNext_execAdrain {u : EngRef} {x : Upset} {k : CmdHdr} {o : AdrainOps} (h : kept s) : keptNext (execAdrain u x k o s) :=
  keptNext_issueOp (fun _ _ ht => keptEff_effAdrain ht) h

/-! ### Pools -/

theorem kept_poolErr {id : Nat} {p : Pool} {st : U16} {h : U32} (hs : kept s) : kept (poolErr s id p st h) := by
  unfold poolErr
  dsimp only
  split
  · exact kept_emit (kept_setPool hs)
  · split
    · exact kept_emit (kept_setPool hs)
    · split <;> exact kept_emit (kept_setPool hs)

theorem kept_poolAlloc {id : Nat} (h : kept s) : kept (poolAlloc s id).1 := by
  unfold poolAlloc
  dsimp only
  split
  · exact h
  · split
    · exact kept_poolErr h
    · exact kept_setPool h

theorem kept_poolAcquire {h : U32} (hs : kept s) : kept (poolAcquire s h).1 := by
  unfold poolAcquire
  dsimp only
  split
  · exact kept_emit hs
  · split
    · exact kept_poolErr hs
    · split
      · exact kept_poolErr hs
      · exact kept_setPool hs

theorem kept_poolRelease {h : U32} (hs : kept s) : kept (poolRelease s h).1 := by
  unfold poolRelease
  dsimp only
  split
  · exact kept_emit hs
  · split
    · exact kept_poolErr hs
    · split
      · exact kept_poolErr hs
      · exact kept_setPool hs

theorem kept_placeWrite {pl : Place} {bs : List Byte} (h : kept s) : kept (placeWrite s pl bs).1 := by
  cases pl with
  | sram p a => exact kept_setPav (keptPav_sramWrite (keptPav_pavAt h)) h
  | die j a =>
    exact kept_modDie h (fun d hd => (sramWrite_wf (dieMem s j) a bs (keptDie_dieAt h)).1)
  | hbm k o => exact kept_hbmWrite h

theorem kept_placePut {n : Nat} {pl : Place} {bs : List Byte} (h : kept s) : kept (placePut s n pl bs) := by
  have hw : kept (placeWrite s pl bs).1 := kept_placeWrite h
  unfold placePut
  split
  · next heq => exact kept_hbmUncorrected (kept_of_eq heq hw)
  · next heq => exact kept_pavFault (kept_of_eq heq hw)
  · next heq => exact kept_dieFault (kept_of_eq heq hw)
  · next heq => exact kept_of_eq heq hw

theorem kept_placeGet {n : Nat} {pl : Place} {len : Nat} (h : kept s) : kept (placeGet s n pl len).1 := by
  unfold placeGet
  split
  · exact h
  · exact kept_hbmUncorrected h
  · exact kept_pavFault h
  · exact kept_dieFault h
  · exact h

theorem kept_placeWrites {ws : List (Place × List Byte)} : ∀ {s : State}, kept s → kept (placeWrites s ws).1 := by
  induction ws with
  | nil => exact fun h => h
  | cons w ws ih => exact fun h => ih (kept_placeWrite h)

/-! ### Control commands -/

theorem keptNext_execNop {u : EngRef} {x : Upset} {k : CmdHdr} (h : kept s) : keptNext (execNop u x k s) :=
  keptNext_issueOp (fun _ _ ht => ht) h

theorem keptNext_execLoop {u : EngRef} {x : Upset} {k : CmdHdr} {o : LoopOps} (h : kept s) : keptNext (execLoop u x k o s) :=
  keptNext_issueOp (fun _ _ ht => ht) h

theorem keptNext_execEndloop {u : EngRef} {x : Upset} {k : CmdHdr} (h : kept s) : keptNext (execEndloop u x k s) :=
  keptNext_issueOp (fun _ _ ht => ht) h

theorem keptNext_execFrame {u : EngRef} {x : Upset} {k : CmdHdr} {nf : BitVec 16} (h : kept s) : keptNext (execFrame u x k nf s) :=
  keptNext_issueOp (fun _ _ ht => kept_modEng ht) h

theorem keptNext_execHalt {u : EngRef} {x : Upset} {k : CmdHdr} (h : kept s) : keptNext (execHalt u x k s) :=
  keptNext_issueOp (fun _ _ ht => ht) h

theorem keptNext_execMark {u : EngRef} {x : Upset} {k : CmdHdr} {v : BitVec 32} (h : kept s) : keptNext (execMark u x k v s) :=
  keptNext_issueOp (fun _ _ ht => kept_emit ht) h

end Sys2Proof.Machine
end

section
/-! PROOF. The invariant is kept by Kiosk requests, links and the sender. -/

namespace Sys2Proof.Machine
open Sys2Proof.Safety

variable {s : State}

/-! ### Kiosk requests -/

theorem kept_flushOut {k : Nat} (h : kept s) : kept (flushOut s k) :=
  kept_mk (kept_modSess h)

theorem kept_sendMsg {k : Nat} {m : KMsg} (h : kept s) : kept (sendMsg s k m) :=
  kept_flushOut (kept_modSess h)

theorem kept_countRefusal (h : kept s) : kept (countRefusal s) :=
  kept_mk h

theorem kept_respond {q : KReq} {st : U16} {param : BitVec 32} {body : List Byte} (h : kept s) : kept (respond s q st param body) := by
  unfold respond
  refine kept_sendMsg ?_
  split
  · exact h
  · exact kept_countRefusal h

theorem kept_accept {q : KReq} (h : kept s) : kept (accept s q) :=
  kept_respond h

theorem kept_refuse {q : KReq} {st : U16} (h : kept s) : kept (refuse s q st) :=
  kept_respond h

theorem kept_heardReq {q : KReq} (h : kept s) : kept (heardReq s q) := by
  unfold heardReq
  split
  · exact kept_modSess h
  · exact h

theorem kept_discardReq {q : KReq} (h : kept s) : kept (discardReq s q) := by
  unfold discardReq
  dsimp only
  split
  · exact kept_emit (kept_countRefusal h)
  · exact kept_countRefusal h

theorem kept_kioskReq {q : KReq} {index sub : Nat} {command : Bool} {act : State → Session → State}
    (hact : ∀ s x, kept s → kept (act s x)) (h : kept s) : kept (kioskReq s q index sub command act) := by
  unfold kioskReq
  split
  · exact hact _ _ (kept_heardReq h)
  · exact kept_refuse (kept_heardReq h)
  · exact kept_discardReq h

theorem kept_answer {q : KReq} {r : Except U16 State} (hr : keptOk r) (h : kept s) : kept (answer s q r) := by
  cases r with
  | ok t => exact kept_accept hr
  | error st => exact kept_refuse h

theorem kept_kioskCmd {q : KReq} {index sub : Nat} {command : Bool} {f : State → Session → Except U16 State}
    (hf : ∀ s x, kept s → keptOk (f s x)) (h : kept s) : kept (kioskCmd s q index sub command f) :=
  kept_kioskReq (fun s x hs => kept_answer (hf s x hs) hs) h

theorem kept_bumpChange {index sub : Nat} (h : kept s) : kept (bumpChange s index sub) :=
  kept_mk h

theorem kept_domSegment {q : KReq} {index sub limit : Nat} {d : DomSeg} {act : State → List Byte → State}
    (hact : ∀ s bs, kept s → kept (act s bs)) (h : kept s) : kept (domSegment s q index sub limit d act) := by
  simp only [domSegment_eq]
  split
  · exact kept_refuse (kept_modSess h)
  · split
    · exact kept_refuse h
    · split
      · exact hact _ _ (kept_modSess h)
      · exact kept_accept (kept_modSess h)

theorem kept_kioskDom {q : KReq} {index sub limit : Nat} {d : DomSeg} {f : State → Session → List Byte → Except U16 State}
    (hf : ∀ s x bs, kept s → keptOk (f s x bs)) (h : kept s) : kept (kioskDom s q index sub limit d f) := by
  refine kept_kioskReq (fun s x hs => kept_domSegment (fun t bs ht => ?_) hs) h
  split
  · next w hw => exact kept_accept (kept_bumpChange (kept_of_ok hw (hf t x bs ht)))
  · exact kept_refuse ht

theorem kept_journalWrite {q : KReq} {index sub sel : Nat} {value : List Byte} (h : kept s) : kept (journalWrite s q index sub sel value) :=
  kept_mk h

theorem kept_kioskRws {q : KReq} {index sub sel : Nat} {value : List Byte} {f : State → Session → Option U16} (h : kept s) :
    kept (kioskRws s q index sub sel value f) := by
  refine kept_kioskReq (fun s x hs => ?_) h
  split
  · exact kept_refuse hs
  · exact kept_journalWrite hs

theorem kept_closeSlot {k : Nat} (h : kept s) : kept (closeSlot s k) := by
  unfold closeSlot
  dsimp only
  split
  · exact h
  · exact kept_mk (kept_setSess h)

theorem kept_closeLinkSessions {l : Nat} (h : kept s) : kept (closeLinkSessions s l) := by
  unfold closeLinkSessions
  refine kept_foldl (fun _ _ ht => ?_) h
  dsimp only
  split
  · exact kept_closeSlot ht
  · exact ht

/-! ### Links and buffers -/

theorem kept_sayOnce {l : Nat} {k : RecKind} {src : Src} {plot : Option Nat} {args : List (Nat × Nat)} (h : kept s) :
    kept (sayOnce s l k src plot args) := by
  unfold sayOnce
  split
  · exact h
  · exact kept_emit (kept_modLink h)

theorem kept_sayOncePort {l : Nat} {k : RecKind} {src : Src} {plot : Option Nat} {args : List (Nat × Nat)} (h : kept s) :
    kept (sayOncePort s l k src plot args) := by
  unfold sayOncePort
  split
  · exact h
  · exact kept_sayOnce h

theorem kept_dropAt {l : Nat} (h : kept s) : kept (dropAt s l) :=
  kept_modLink h

theorem kept_movedBy {n : Nat} {opc : BitVec 8} {tag : BitVec 16} (h : kept s) : kept (movedBy s n opc tag) := by
  unfold movedBy
  split
  · exact kept_moved h
  · exact h

theorem kept_handOff {l source : Nat} {p : Pkt} (h : kept s) : kept (handOff s l source p) := by
  unfold handOff
  dsimp only
  split
  · exact kept_dropAt h
  · split
    · exact kept_containedHold (kept_emit (kept_mk h))
    · exact kept_modLink h

theorem kept_sendOut {src : Option Nat} {p : Pkt} (h : kept s) : kept (sendOut s src p) := by
  unfold sendOut
  dsimp only
  split
  · exact kept_handOff h
  · split
    · exact kept_sayOnce (kept_mk h)
    · exact kept_emit (kept_mk h)
  · split
    · exact kept_sayOnce (kept_mk h)
    · exact kept_mk h
  · exact h

theorem kept_sendPull {l n : Nat} (h : kept s) : kept (sendPull s l n) := by
  unfold sendPull
  dsimp only
  split
  · exact h
  · exact kept_handOff h

theorem kept_freeRx {l : Nat} {p : Pkt} (h : kept s) : kept (freeRx s l p) := by
  unfold freeRx
  dsimp only
  split
  · exact h
  · exact kept_modLink h

theorem kept_ingress {l : Nat} {p : Pkt} (h : kept s) : kept (ingress s l p).1 := by
  unfold ingress
  dsimp only
  split
  · exact kept_freeRx (kept_dropAt h)
  · split
    · exact kept_freeRx (kept_emit (kept_dropAt h))
    · split
      · exact kept_freeRx (kept_containedHold (kept_emit (kept_modLink h)))
      · split
        · split
          · exact kept_freeRx (kept_ite (kept_sendPull (kept_sayOncePort (kept_modDom (kept_modLink h)))) (kept_sayOncePort (kept_modDom
              (kept_modLink h))))
          · split
            · exact kept_freeRx (kept_sayOncePort (kept_mk (kept_dropAt (kept_modLink h))))
            · exact kept_modLink h
        · split
          · exact kept_freeRx (kept_ite (kept_sendPull (kept_sayOncePort (kept_modDom h))) (kept_sayOncePort (kept_modDom h)))
          · split
            · exact kept_freeRx (kept_sayOncePort (kept_mk (kept_dropAt h)))
            · exact h

theorem keptOk_Except_map {α : Type} {r : Except U16 α} {f : α → State} (hf : ∀ a, kept (f a)) : keptOk (r.map f) := by
  cases r with
  | ok a => exact hf a
  | error st => trivial

theorem kept_onPacket {l : Nat} {p : Pkt} {opcs : List (BitVec 8)} {act : State → State} (hact : ∀ s, kept s → kept (act s)) (h : kept s) :
    kept (onPacket s l p opcs act) := by
  unfold onPacket
  split
  · exact h
  · dsimp only
    split
    · exact hact _ (kept_ingress h)
    · exact kept_ingress h

theorem kept_switchPkt {l : Nat} {p : Pkt} (h : kept s) : kept (switchPkt s l p) :=
  kept_freeRx (kept_sendOut h)

theorem kept_countPair {l : Nat} {p : Pkt} (h : kept s) : kept (countPair s l p) := by
  unfold countPair
  dsimp only
  split
  · exact h
  · split <;> exact kept_setLink h

theorem kept_windowDrop {l : Nat} {p : Pkt} (h : kept s) : kept (windowDrop s l p) :=
  kept_freeRx (kept_ite (kept_mk (kept_setLink h)) (kept_emit (kept_mk (kept_setLink h))))

theorem kept_pairStall {l : Nat} {p : Pkt} (h : kept s) : kept (pairStall s l p) :=
  kept_modLink (kept_mk h)

theorem kept_ackPair {l : Nat} {p : Pkt} (h : kept s) : kept (ackPair s l p) :=
  kept_modLink h

theorem kept_oweAck {l : Nat} {p : Pkt} (h : kept s) : kept (oweAck s l p) :=
  kept_modLink h

theorem kept_sendAcks {l : Nat} (h : kept s) : kept (sendAcks s l) := by
  unfold sendAcks
  refine kept_foldl (fun _ _ ht => ?_) (kept_modLink h)
  dsimp only
  split
  · exact kept_ackPair (kept_handOff ht)
  · exact kept_sendOut ht

theorem kept_completeCut {l : Nat} {fs : List (List Byte)} (h : kept s) : kept (completeCut s l fs) := by
  unfold completeCut
  dsimp only
  split
  · exact h
  · split
    · split
      · split
        · exact h
        · exact kept_handOff h
      · exact h
    · exact h

theorem kept_completeCuts {l : Nat} (h : kept s) : kept (completeCuts s l) :=
  kept_foldl (fun _ _ ht => kept_completeCut ht) h

theorem kept_linkDown {l : Nat} {cause : U16} {tell commanded : Bool} (h : kept s) : kept (linkDown s l cause tell commanded) := by
  unfold linkDown
  refine kept_closeLinkSessions (kept_containedHold (kept_emit (kept_setLink ?_)))
  split
  · exact kept_mk (kept_completeCuts h)
  · exact kept_completeCuts h

/-! ### Key exchange -/

theorem kept_sendKeyx {l msg : Nat} (h : kept s) : kept (sendKeyx s l msg) :=
  kept_foldl (fun _ _ ht => kept_handOff ht) (kept_mk h)

theorem kept_keyxFail {l : Nat} (h : kept s) : kept (keyxFail s l) := by
  unfold keyxFail
  dsimp only
  split
  · exact kept_linkDown (kept_emit h)
  · exact kept_modLink (kept_emit h)

theorem kept_drawKeyx {l msg : Nat} {k : KeyxState} (h : kept s) : kept (drawKeyx s l msg k) := by
  unfold drawKeyx
  split
  · exact kept_keyxFail h
  · exact kept_sendKeyx (kept_modLink h)

theorem kept_startKeyx {l : Nat} (h : kept s) : kept (startKeyx s l) := by
  unfold startKeyx
  split
  · exact kept_drawKeyx h
  · exact kept_modLink h

theorem kept_renewKeyx {l : Nat} (h : kept s) : kept (renewKeyx s l) := by
  unfold renewKeyx
  split
  · exact kept_drawKeyx h
  · exact h

theorem kept_keyxDone {l : Nat} (h : kept s) : kept (keyxDone s l) :=
  kept_modLink h

theorem kept_keyxMsg {l : Nat} {expect : KeyxState} {m : KeyxMsg} {types : List Nat} {act : State → State}
    (hact : ∀ s, kept s → kept (act s)) (h : kept s) : kept (keyxMsg s l expect m types act) := by
  unfold keyxMsg
  dsimp only
  split
  · exact h
  · split
    · split
      · exact hact s h
      · exact h
    · split
      · exact hact s h
      · exact kept_keyxFail h

theorem keptNext_execHello {link : Nat} {m : KeyxMsg} (h : kept s) : keptNext (execHello link m s) :=
  keptNext_done (kept_keyxMsg (fun _ ht => kept_drawKeyx ht) h)

theorem keptNext_execResponse {link : Nat} {m : KeyxMsg} (h : kept s) : keptNext (execResponse link m s) :=
  keptNext_done (kept_keyxMsg (fun _ ht => kept_keyxDone (kept_sendKeyx ht)) h)

theorem keptNext_execFinish {link : Nat} {m : KeyxMsg} (h : kept s) : keptNext (execFinish link m s) :=
  keptNext_done (kept_keyxMsg (fun _ ht => kept_keyxDone ht) h)

theorem keptNext_execKeyAgreeTimeout {link : Nat} (h : kept s) : keptNext (execKeyAgreeTimeout link s) := by
  unfold execKeyAgreeTimeout
  dsimp only
  split
  · exact keptNext_done (kept_keyxFail h)
  · exact keptNext_done h

theorem keptNext_execKeyInstalled {link plot : Nat} (h : kept s) : keptNext (execKeyInstalled link plot s) := by
  unfold execKeyInstalled
  split
  · exact keptNext_done (kept_modLink h)
  · exact keptNext_done h

/-! ### Link events -/

theorem kept_sendNak {l cycle : Nat} (h : kept s) : kept (sendNak s l cycle) := by
  unfold sendNak
  dsimp only
  split
  · split
    · exact h
    · exact kept_setLink h
  · split
    · exact h
    · exact kept_setLink h

theorem kept_takeFlit {l : Nat} {bs : List Byte} (h : kept s) : kept (takeFlit s l bs) := by
  unfold takeFlit
  dsimp only
  split
  · exact kept_setLink h
  · split
    · split
      · split
        · split
          · exact kept_movedBy (kept_setLink h)
          · exact kept_setLink h
        · exact kept_linkDown (kept_setLink h)
      · split
        · split
          · exact kept_movedBy (kept_setLink h)
          · exact kept_setLink h
        · exact kept_linkDown (kept_setLink h)
    · dsimp only
      split
      · split
        · exact kept_movedBy (kept_setLink h)
        · exact kept_setLink h
      · exact kept_linkDown (kept_setLink h)

theorem keptNext_execFlitReceive {link : Nat} {f : FlitIn} (h : kept s) : keptNext (execFlitReceive link f s) := by
  unfold execFlitReceive
  dsimp only
  split
  · exact keptNext_done h
  · split
    · split
      · exact keptNext_done (kept_emit h)
      · exact keptNext_done h
    · split
      · exact keptNext_done (kept_sendNak h)
      · exact keptNext_done (kept_takeFlit h)

theorem keptNext_execLinkSet {link : Nat} {ackseq : BitVec 14} {ackv : Bool} {ret : List (BitVec 16)} (h : kept s) :
    keptNext (execLinkSet link ackseq ackv ret s) := by
  unfold execLinkSet
  dsimp only
  split
  · exact keptNext_done h
  · exact keptNext_done (kept_modLink h)

theorem keptNext_execLinkSetDue {link : Nat} (h : kept s) : keptNext (execLinkSetDue link s) := by
  unfold execLinkSetDue
  dsimp only
  split
  · exact keptNext_done (kept_setLink h)
  · exact keptNext_done h

theorem kept_startReplay {l n : Nat} (h : kept s) : kept (startReplay s l n) := by
  unfold startReplay
  dsimp only
  split
  · exact kept_linkDown h
  · exact kept_setLink h

theorem keptNext_execNak {link : Nat} {seq : BitVec 14} (h : kept s) : keptNext (execNak link seq s) := by
  unfold execNak
  dsimp only
  split
  · exact keptNext_done (kept_startReplay h)
  · exact keptNext_done h

theorem keptNext_execReplayTimeout {link : Nat} (h : kept s) : keptNext (execReplayTimeout link s) := by
  unfold execReplayTimeout
  dsimp only
  split
  · exact keptNext_done (kept_startReplay h)
  · exact keptNext_done h

theorem keptNext_execHeartbeat {link : Nat} {b : HeartbeatBody} (h : kept s) : keptNext (execHeartbeat link b s) := by
  unfold execHeartbeat
  dsimp only
  split
  · exact keptNext_done h
  · split
    · exact keptNext_done (kept_mk (kept_modLink h))
    · split
      · exact keptNext_done (kept_sendPull (kept_mk (kept_modLink h)))
      · exact keptNext_done (kept_mk (kept_modLink h))

theorem kept_trainFail {l : Nat} {cause : U16} (h : kept s) : kept (trainFail s l cause) :=
  kept_emit (kept_modLink h)

theorem kept_bringOn {l old new : Nat} (h : kept s) : kept (bringOn s l old new) := by
  unfold bringOn
  split
  · exact kept_modLink h
  · exact h

theorem keptNext_execLinkSignalDetect {link : Nat} (h : kept s) : keptNext (execLinkSignalDetect link s) := by
  unfold execLinkSignalDetect
  dsimp only
  split
  · exact keptNext_done h
  · exact keptNext_done (kept_bringOn h)

theorem keptNext_execTrainDone {link : Nat} (h : kept s) : keptNext (execTrainDone link s) :=
  keptNext_done (kept_bringOn h)

theorem keptNext_execAlignDone {link : Nat} (h : kept s) : keptNext (execAlignDone link s) :=
  keptNext_done (kept_bringOn h)

theorem keptSome_spareLane {l lane : Nat} (h : kept s) : keptSome (spareLane s l lane) := by
  unfold spareLane
  dsimp only
  split
  · exact trivial
  · exact kept_emit (kept_modLink (kept_mk h))

theorem kept_spareLanes {l : Nat} {as : List Nat} : ∀ {s : State}, kept s → kept (spareLanes s l as).1 := by
  induction as with
  | nil => exact fun h => h
  | cons a as ih =>
    intro s h
    simp only [spareLanes]
    split
    · exact h
    · next t ht => exact ih (kept_of_some ht (keptSome_spareLane h))

theorem kept_laneCheck {l : Nat} {c : LaneCheck} (h : kept s) : kept (laneCheck s l c).1 :=
  kept_spareLanes h

theorem keptNext_execLanecheckDone {link : Nat} {c : LaneCheck} (h : kept s) : keptNext (execLanecheckDone link c s) := by
  unfold execLanecheckDone
  split
  · exact keptNext_done h
  · split
    · rename_i heq
      exact keptNext_done (kept_trainFail (kept_of_eq heq (kept_laneCheck h)))
    · rename_i heq
      exact keptNext_done (kept_modLink (kept_mk (kept_of_eq heq (kept_laneCheck h))))

theorem kept_linkActive {l : Nat} {b : ParamBody} (h : kept s) : kept (linkActive s l b) := by
  unfold linkActive
  dsimp only
  split
  · split
    · split
      · exact kept_emit (kept_emit (kept_emit (kept_setLink h)))
      · exact kept_startKeyx (kept_emit (kept_emit (kept_emit (kept_setLink h))))
    · split
      · exact kept_emit (kept_emit (kept_setLink h))
      · exact kept_startKeyx (kept_emit (kept_emit (kept_setLink h)))
  · split
    · split
      · exact kept_emit (kept_emit (kept_setLink h))
      · exact kept_startKeyx (kept_emit (kept_emit (kept_setLink h)))
    · split
      · exact kept_emit (kept_setLink h)
      · exact kept_startKeyx (kept_emit (kept_setLink h))

theorem keptNext_execParam {link : Nat} {b : ParamBody} (h : kept s) : keptNext (execParam link b s) := by
  unfold execParam
  split
  · exact keptNext_done h
  · split
    · exact keptNext_done (kept_linkActive h)
    · exact keptNext_done (kept_trainFail h)

theorem keptNext_execLinkStateTimeout {link : Nat} (h : kept s) : keptNext (execLinkStateTimeout link s) := by
  unfold execLinkStateTimeout
  dsimp only
  split
  · exact keptNext_done (kept_trainFail h)
  · exact keptNext_done h

theorem keptNext_execLinkReattempt {link : Nat} (h : kept s) : keptNext (execLinkReattempt link s) := by
  unfold execLinkReattempt
  dsimp only
  split
  · exact keptNext_done h
  · split
    · exact keptNext_done (kept_setLink h)
    · exact keptNext_done h
  · split
    · exact keptNext_done (kept_setLink h)
    · exact keptNext_done h

theorem keptNext_execLaneFail {link lane : Nat} {loopbackPasses : Bool} (h : kept s) :
    keptNext (execLaneFail link lane loopbackPasses s) := by
  unfold execLaneFail
  split
  · exact keptNext_done h
  · split
    · exact keptNext_done (kept_linkDown h)
    · split
      · exact keptNext_done (kept_linkDown h)
      · rename_i heq
        exact keptNext_done (kept_modLink (kept_of_some heq (keptSome_spareLane h)))

theorem keptNext_execLaneRetrainDone {link : Nat} (h : kept s) : keptNext (execLaneRetrainDone link s) := by
  unfold execLaneRetrainDone
  dsimp only
  split
  · exact keptNext_done h
  · split
    · exact keptNext_done (kept_setLink h)
    · exact keptNext_done h

theorem keptNext_execSpare {link : Nat} {lane : BitVec 16} {phase : BitVec 8} (h : kept s) : keptNext (execSpare link lane phase s) := by
  unfold execSpare
  split
  · exact keptNext_done h
  · split
    · exact keptNext_done (kept_modLink h)
    · split
      · exact keptNext_done (kept_modLink h)
      · exact keptNext_done h

theorem keptNext_execSignalLost {link : Nat} (h : kept s) : keptNext (execSignalLost link s) := by
  unfold execSignalLost
  split
  · exact keptNext_done (kept_linkDown h)
  · exact keptNext_done h

theorem keptNext_execDown {link : Nat} {cause : BitVec 16} (h : kept s) : keptNext (execDown link cause s) := by
  unfold execDown
  split
  · exact keptNext_done (kept_linkDown h)
  · exact keptNext_done h

theorem keptNext_execLinkBringUp {q : KReq} {n : Nat} {half : Bool} (h : kept s) : keptNext (execLinkBringUp q n half s) := by
  unfold execLinkBringUp
  refine keptNext_done (kept_kioskCmd ?_ h)
  intro _ _ ht
  dsimp only
  split
  · exact trivial
  · split
    · exact trivial
    · split
      · exact kept_modLink ht
      · exact ht

theorem keptNext_execLinkTakeDown {q : KReq} {n : Nat} {half : Bool} (h : kept s) : keptNext (execLinkTakeDown q n half s) := by
  unfold execLinkTakeDown
  refine keptNext_done (kept_kioskCmd ?_ h)
  intro _ _ ht
  dsimp only
  split
  · exact trivial
  · split
    · exact kept_linkDown ht
    · exact kept_modLink ht

theorem keptNext_execPortModeWrite {q : KReq} {n : Nat} {v : BitVec 8} (h : kept s) : keptNext (execPortModeWrite q n v s) :=
  keptNext_done (kept_kioskRws h)

/-! ### The sender -/

theorem kept_exhaustKeys {l : Nat} (h : kept s) : kept (exhaustKeys s l) := by
  unfold exhaustKeys
  dsimp only
  split
  · exact h
  · exact kept_foldl (fun _ _ ht => kept_containedHold (kept_emit ht)) (kept_setLink h)

theorem kept_putFlit {l : Nat} {x : Link} {t : TxPkt} {bytes : List Byte} (h : kept s) : kept (putFlit s l x t bytes) :=
  kept_movedBy (kept_mk (kept_setLink h))

theorem kept_sendFlit {l : Nat} {x : Link} {t : TxPkt} (h : kept s) : kept (sendFlit s l x t) := by
  unfold sendFlit
  dsimp only
  split
  · split
    · exact kept_putFlit h
    · split
      · exact kept_renewKeyx (kept_putFlit h)
      · exact kept_putFlit h
  · exact kept_putFlit h

theorem keptNext_execLinkSendSlot {link : Nat} (h : kept s) : keptNext (execLinkSendSlot link s) := by
  unfold execLinkSendSlot
  dsimp only
  split
  · exact keptNext_done h
  · split
    · exact keptNext_done (kept_setLink (kept_mk h))
    · split
      · exact keptNext_done h
      · split
        · split
          · exact keptNext_done (kept_setLink h)
          · exact keptNext_done (kept_mk (kept_movedBy (kept_setLink h)))
        · split
          · exact keptNext_done h
          · split
            · exact keptNext_done (kept_setLink (kept_exhaustKeys h))
            · exact keptNext_done (kept_sendFlit (kept_exhaustKeys h))

theorem keptNext_execRouteStall {link vc : Nat} (h : kept s) : keptNext (execRouteStall link vc s) := by
  unfold execRouteStall
  dsimp only
  split
  · exact keptNext_done (kept_emit (kept_setLink h))
  · exact keptNext_done h

theorem keptNext_execSprayPressure {entry : Nat} (h : kept s) : keptNext (execSprayPressure entry s) := by
  unfold execSprayPressure
  dsimp only
  split
  · exact keptNext_done (kept_emit (kept_mk h))
  · exact keptNext_done h

theorem keptNext_execSchedStarved {link sub cls : Nat} (h : kept s) : keptNext (execSchedStarved link sub cls s) := by
  unfold execSchedStarved
  dsimp only
  split
  · exact keptNext_done h
  · split
    · exact keptNext_done (kept_emit (kept_mk (kept_setLink h)))
    · exact keptNext_done h

theorem keptNext_execRouteTableWrite {q : KReq} {d : DomSeg} (h : kept s) : keptNext (execRouteTableWrite q d s) :=
  keptNext_done (kept_kioskDom (fun _ _ _ ht => keptOk_Except_map (fun _ => kept_mk ht)) h)

theorem keptNext_execDirectionMapWrite {q : KReq} {v : BitVec 256} (h : kept s) : keptNext (execDirectionMapWrite q v s) := by
  unfold execDirectionMapWrite
  refine keptNext_done (kept_kioskCmd ?_ h)
  intro _ _ ht
  dsimp only
  split
  · exact kept_mk ht
  · exact trivial

end Sys2Proof.Machine
end

section
/-! PROOF. The invariant is kept by collectives and B2 launches. -/

namespace Sys2Proof.Machine
open Sys2Proof.Safety

variable {s : State}

/-! ### Collectives: shared operations -/

theorem kept_regWrite {n off : Nat} {bs : List Byte} (h : kept s) : kept (regWrite s n off bs) := by
  unfold regWrite
  dsimp only
  split
  · exact kept_hbmWrite h
  · exact kept_hbmUncorrected (kept_hbmWrite h)

theorem kept_setDesc {j i : Nat} {d : Desc} (h : kept s) : kept (setDesc s j i d) :=
  kept_modDie h

theorem kept_modRun {j i : Nat} {f : Run → Run} (h : kept s) : kept (modRun s j i f) := by
  unfold modRun
  split
  · exact kept_setDesc h
  · exact h

theorem kept_sendOn {d : Desc} {recv : Nat → Bool} {but : Option Nat} {op : BitVec 256} {body : List Byte} (h : kept s) :
    kept (sendOn s d recv but op body) :=
  kept_foldl (fun _ _ ht => kept_handOff ht) h

theorem kept_sendDown {j i : Nat} {d : Desc} {recv : Nat → Bool} {but : Option Nat} {op : BitVec 256} {body : List Byte} {key : Nat × Nat}
    (h : kept s) : kept (sendDown s j i d recv but op body key) :=
  kept_modRun (kept_sendOn h)

theorem kept_sendRowSeg {j i : Nat} {d : Desc} {recv : Nat → Bool} {but : Option Nat} {op : BitVec 256} {body : List Byte}
    {key : Nat × Nat} {rowb : Nat} (h : kept s) : kept (sendRowSeg s j i d recv but op body key rowb) :=
  kept_modRun (kept_sendOn h)

theorem kept_forwardTo {link : Nat} {d : Desc} {home : BitVec 24} {p : Pkt} (h : kept s) : kept (forwardTo s link d home p) :=
  kept_sendOut h

theorem kept_stageBuf {d : Desc} (h : kept s) : kept (stageBuf s d).1 := by
  unfold stageBuf
  dsimp only
  split
  · exact h
  · exact kept_poolAlloc h

theorem kept_freeBufs {hs : List U32} (h : kept s) : kept (freeBufs s hs) := by
  unfold freeBufs
  refine kept_foldl (fun _ _ ht => ?_) h
  split
  · exact ht
  · exact kept_poolRelease ht

theorem kept_fillBuf {h : U32} {bs : List Byte} (hs : kept s) : kept (fillBuf s h bs) := by
  unfold fillBuf
  split
  · exact hs
  · exact kept_placePut hs

theorem kept_retractAll {j : Nat} {d : Desc} {vs : List ProvSeg} (h : kept s) : kept (retractAll s j d vs) := by
  unfold retractAll
  refine kept_foldl (fun _ _ ht => ?_) h
  refine kept_emit (kept_mk (kept_foldl (fun _ _ ht => ?_) ht))
  exact kept_handOff ht

theorem kept_dropDesc {j i : Nat} {d : Desc} (h : kept s) : kept (dropDesc s j i d) :=
  kept_modDie (kept_retractAll (kept_freeBufs h))

theorem kept_b2Leave {d : Desc} {b : B2Info} {st : U16} (h : kept s) : kept (b2Leave s d b st) := by
  unfold b2Leave
  dsimp only
  split
  · exact kept_foldl (fun _ _ ht => kept_sendOut ht) (kept_foldl (fun _ _ ht => kept_dropDesc ht) h)
  · exact kept_foldl (fun _ _ ht => kept_dropDesc ht) h

theorem kept_dropSeg {j : Nat} {k : RecKind} {st : U16} {p : Pkt} (h : kept s) : kept (dropSeg s j k st p) :=
  kept_emit (kept_mk h)

theorem kept_writeRecord {d : Desc} {st : U16} (h : kept s) : kept (writeRecord s d st) := by
  unfold writeRecord
  split
  · exact h
  · exact kept_regWrite h

theorem kept_runFault {j i : Nat} {st : U16} (h : kept s) : kept (runFault s j i st) := by
  unfold runFault
  dsimp only
  split
  · exact h
  · split
    · exact kept_b2Leave (kept_containedHold (kept_emit (kept_setDesc (kept_writeRecord h))))
    · exact kept_containedHold (kept_emit (kept_setDesc (kept_writeRecord h)))

theorem kept_signalHome {j n hpav hctr : Nat} (h : kept s) : kept (signalHome s j n hpav hctr) := by
  unfold signalHome
  split
  · exact kept_signalPav h
  · exact h

/-! ### Dense collectives -/

theorem kept_chunkSignal {j i c : Nat} (h : kept s) : kept (chunkSignal s j i c) := by
  unfold chunkSignal
  dsimp only
  split
  · exact h
  · split
    · exact h
    · exact kept_signalHome (kept_modRun h)

theorem kept_chunkDone {j i c rank : Nat} (h : kept s) : kept (chunkDone s j i c rank) :=
  kept_chunkSignal (kept_modRun h)

theorem kept_writeHome {n hpav : Nat} {ws : List (Nat × List Byte)} (h : kept s) : kept (writeHome s n hpav ws) := by
  unfold writeHome
  dsimp only
  split
  · exact h
  · split
    · exact kept_pavFault (kept_setPav (keptPav_sramWrites (keptPav_pavAt h)) h)
    · exact kept_setPav (keptPav_sramWrites (keptPav_pavAt h)) h

theorem kept_sendChunk {j i c : Nat} {elems scales : List Byte} (h : kept s) : kept (sendChunk s j i c elems scales) := by
  unfold sendChunk
  dsimp only
  split
  · exact h
  · exact kept_foldl (fun _ _ ht => kept_sendDown ht) (kept_modRun h)

theorem kept_combineChunk {j i c : Nat} (h : kept s) : kept (combineChunk s j i c) := by
  unfold combineChunk
  dsimp only
  split
  · exact h
  · exact kept_sendChunk (kept_modRun h)

theorem kept_combinePiece {n : Nat} {tag : BitVec 16} {rank : Nat} {q : Piece} (h : kept s) : kept (combinePiece s n tag rank q) := by
  unfold combinePiece
  dsimp only
  split
  · exact h
  · split
    · exact kept_combineChunk (kept_modRun h)
    · exact kept_modRun h

theorem kept_stagePieces {j i rank : Nat} {d : Desc} {qs : List Piece} :
    ∀ {s : State} {acc : List (Piece × U32)}, kept s → kept (stagePieces s j i rank d qs acc).1 := by
  induction qs with
  | nil => exact fun h => h
  | cons q qs ih =>
    intro s acc h
    have hbuf : kept (stageBuf s d).1 := kept_stageBuf h
    simp only [stagePieces]
    split
    · next heq => exact kept_freeBufs (kept_of_eq heq hbuf)
    · next heq => exact ih (kept_fillBuf (kept_of_eq heq hbuf))

theorem kept_stagedBytes {n : Nat} {g : StagedChunk} (h : kept s) : kept (stagedBytes s n g).1 := by
  unfold stagedBytes
  split
  · exact kept_placeGet h
  · exact h

theorem kept_feedChunk {j i : Nat} {d : Desc} {g : StagedChunk} (h : kept s) : kept (feedChunk s j i d g) := by
  unfold feedChunk
  dsimp only
  split
  · rename_i heq
    exact kept_modRun (kept_of_eq heq (kept_stagedBytes h))
  · rename_i heq
    split
    · exact kept_freeBufs (kept_modRun (kept_of_eq heq (kept_stagedBytes h)))
    · split
      · exact kept_runFault (kept_freeBufs (kept_modRun (kept_of_eq heq (kept_stagedBytes h))))
      · exact kept_chunkDone (kept_contribute (kept_freeBufs (kept_modRun (kept_of_eq heq (kept_stagedBytes h)))))

theorem keptSeg_deliverPieces {j i : Nat} {d : Desc} {x rank : Nat} {qs : List Piece} (h : kept s) :
    keptSeg (deliverPieces s j i d x rank qs) := by
  unfold deliverPieces
  dsimp only
  split
  · exact kept_foldl (fun _ _ ht => kept_chunkDone (kept_writeHome ht)) h
  · split
    · rename_i heq
      exact kept_of_eq heq (kept_stagePieces h)
    · rename_i heq
      exact kept_modRun (kept_of_eq heq (kept_stagePieces h))
  · exact kept_foldl (fun _ _ ht => kept_combinePiece ht) h

theorem keptSeg_denseContribution {j i link : Nat} {d : Desc} {x : Nat} {p : Pkt} (h : kept s) :
    keptSeg (denseContribution s j i link d x p) := by
  unfold denseContribution
  dsimp only
  split
  · rename_i heq
    exact kept_of_segStall heq (keptSeg_deliverPieces h)
  · rename_i heq
    split
    · exact kept_foldl (fun _ _ ht => kept_forwardTo ht) (kept_of_segOk heq (keptSeg_deliverPieces h))
    · exact kept_of_segOk heq (keptSeg_deliverPieces h)

theorem kept_passThrough {j i : Nat} {d : Desc} {p : Pkt} {but : Option Nat} (h : kept s) : kept (passThrough s j i d p but) :=
  kept_sendDown h

theorem kept_relayResult {j i link : Nat} {d : Desc} {x : Nat} {p : Pkt} (h : kept s) : kept (relayResult s j i link d x p) := by
  unfold relayResult
  dsimp only
  split
  · exact kept_sendDown h
  · exact kept_passThrough h

theorem keptSeg_denseSeg {j i link : Nat} {d : Desc} {p : Pkt} (h : kept s) : keptSeg (denseSeg s j i link d p) := by
  unfold denseSeg
  dsimp only
  split
  · exact kept_relayResult h
  · split
    · exact keptSeg_denseContribution h
    · exact kept_passThrough h

theorem kept_homeRead {pav a n : Nat} (h : kept s) : kept (homeRead s pav a n).1 := by
  unfold homeRead
  split
  · exact kept_pavFault h
  · exact h

theorem kept_releaseDense {j i : Nat} {d : Desc} {c pav : Nat} (h : kept s) : kept (releaseDense s j i d c pav) := by
  unfold releaseDense
  dsimp only
  split
  · rename_i heq
    exact kept_of_eq heq (kept_homeRead h)
  · rename_i heq
    exact kept_sendChunk (kept_of_eq heq (kept_homeRead h))

/-! ### Sparse collectives -/

theorem kept_dropLater {j i : Nat} {p : Pkt} {segel : Nat} {ends breaks : Bool} (h : kept s) :
    kept (dropLater s j i p segel ends breaks) := by
  unfold dropLater
  dsimp only
  split
  · exact h
  · exact kept_foldl (fun _ _ ht => kept_dropSeg (kept_modRun (kept_freeBufs ht))) h

theorem kept_sendStream {j i : Nat} {d : Desc} {x kind base bytes : Nat} {recs : List Byte} {key : Nat × Nat} (h : kept s) :
    kept (sendStream s j i d x kind base bytes recs key) :=
  kept_foldl (fun _ _ ht => kept_sendDown ht) h

theorem kept_relayStream {j i link : Nat} {d : Desc} {p : Pkt} {segel : Nat} {key : Nat × Nat} (h : kept s) :
    kept (relayStream s j i link d p segel key) := by
  unfold relayStream
  exact kept_modRun (kept_dropLater (kept_modRun (kept_sendOn h)))

theorem kept_releaseChunkBufs {d : Desc} {c : Nat} (h : kept s) : kept (releaseChunkBufs s d c) :=
  kept_foldl (fun _ _ ht => kept_modRun (kept_freeBufs ht)) h

theorem kept_sparseCombine {j i c : Nat} {d : Desc} {x : Nat} (h : kept s) : kept (sparseCombine s j i c d x) :=
  kept_sendStream (kept_releaseChunkBufs (kept_modRun (kept_reportLimits h)))

theorem kept_chunkEnded {j i c : Nat} (h : kept s) : kept (chunkEnded s j i c) := by
  unfold chunkEnded
  dsimp only
  split
  · exact h
  · split
    · exact h
    · split
      · exact kept_sparseCombine h
      · exact kept_modRun h

theorem kept_toLead {n : Nat} {tag : BitVec 16} {c : Nat} {ranks : List Nat} {rs : List (Nat × Nat × BitVec 32 × BitVec 64)}
    {cs : List (Nat × Carry)} (h : kept s) : kept (toLead s n tag c ranks rs cs) := by
  unfold toLead
  dsimp only
  split
  · exact h
  · exact kept_chunkEnded (kept_modRun h)

theorem kept_forwardSub {link : Nat} {d : Desc} {x c rank : Nat} {home : BitVec 24} {rs : List MRec} (h : kept s) :
    kept (forwardSub s link d x c rank home rs) :=
  kept_foldl (fun _ _ ht => kept_forwardTo ht) h

theorem kept_combineDie {j i : Nat} {d : Desc} {x : Nat} (h : kept s) : kept (combineDie s j i d x) := by
  unfold combineDie
  dsimp only
  split
  · exact h
  · split
    · exact h
    · exact kept_foldl (fun _ _ ht => kept_foldl (fun _ _ ht => kept_toLead ht) ht) (kept_modRun h)

theorem kept_splitStream {j i link : Nat} {d : Desc} {x rank : Nat} (h : kept s) : kept (splitStream s j i link d x rank) := by
  unfold splitStream
  dsimp only
  split
  · exact h
  · split
    · exact kept_combineDie (kept_modRun (kept_foldl (fun _ _ ht => kept_forwardSub ht) h))
    · exact kept_foldl (fun _ _ ht => kept_toLead ht) (kept_modRun (kept_modRun (kept_foldl (fun _ _ ht => kept_forwardSub ht) h)))

theorem kept_stageRecs {d : Desc} {p : Pkt} {x : Nat} {cs : List Nat} :
    ∀ {s : State} {acc : List (SegKey × Nat × U32)}, kept s → kept (stageRecs s d p x cs acc).1 := by
  induction cs with
  | nil => exact fun h => h
  | cons c cs ih =>
    intro s acc h
    have hbuf : kept (stageBuf s d).1 := kept_stageBuf h
    simp only [stageRecs]
    split
    · next heq => exact kept_freeBufs (kept_of_eq heq hbuf)
    · next heq => exact ih (kept_fillBuf (kept_of_eq heq hbuf))

theorem keptSeg_sparseSeg {j i link : Nat} {d : Desc} {p : Pkt} (h : kept s) : keptSeg (sparseSeg s j i link d p) := by
  unfold sparseSeg
  dsimp only
  split
  · exact kept_relayStream h
  · split
    · rename_i heq
      exact kept_of_eq heq (kept_stageRecs h)
    · rename_i heq
      split
      · exact kept_dropLater (kept_modRun (kept_of_eq heq (kept_stageRecs h)))
      · split
        · exact kept_dropLater (kept_modRun (kept_of_eq heq (kept_stageRecs h)))
        · split
          · exact kept_splitStream (kept_dropLater (kept_modRun (kept_of_eq heq (kept_stageRecs h))))
          · exact kept_toLead (kept_modRun (kept_dropLater (kept_modRun (kept_of_eq heq (kept_stageRecs h)))))

theorem kept_feedSparse {j i : Nat} {d : Desc} {g : StagedChunk} (h : kept s) : kept (feedSparse s j i d g) := by
  unfold feedSparse
  dsimp only
  split
  · exact kept_releaseChunkBufs (kept_modRun h)
  · split
    · exact kept_runFault (kept_releaseChunkBufs (kept_modRun h))
    · exact kept_signalHome (kept_modRun (kept_reportLimits (kept_setPav (keptPav_carryAll (keptPav_pavAt (kept_contribute
        (kept_releaseChunkBufs (kept_modRun h))))) (kept_contribute (kept_releaseChunkBufs (kept_modRun h))))))

theorem kept_releaseSparse {j i : Nat} {d : Desc} {c pav : Nat} (h : kept s) : kept (releaseSparse s j i d c pav) := by
  unfold releaseSparse
  dsimp only
  split
  · rename_i heq
    exact kept_of_eq heq (kept_homeRead h)
  · rename_i heq
    exact kept_sendStream (kept_modRun (kept_of_eq heq (kept_homeRead h)))

theorem keptSeg_selectSeg {j i link : Nat} {d : Desc} {p : Pkt} (h : kept s) : keptSeg (selectSeg s j i link d p) := by
  unfold selectSeg
  dsimp only
  split
  · exact kept_relayStream h
  · split
    · exact kept_dropLater (kept_modRun (kept_ite (kept_writeHome h) (kept_ite (kept_forwardTo h) h)))
    · split
      · split
        · split
          · split
            · exact kept_chunkDone (kept_writeHome (kept_dropLater (kept_modRun (kept_writeHome h))))
            · exact kept_modRun (kept_writeHome (kept_dropLater (kept_modRun (kept_writeHome h))))
          · exact kept_modRun (kept_dropLater (kept_modRun (kept_writeHome h)))
        · split
          · split
            · split
              · exact kept_chunkDone (kept_writeHome (kept_dropLater (kept_modRun (kept_forwardTo h))))
              · exact kept_modRun (kept_writeHome (kept_dropLater (kept_modRun (kept_forwardTo h))))
            · exact kept_modRun (kept_dropLater (kept_modRun (kept_forwardTo h)))
          · split
            · split
              · exact kept_chunkDone (kept_writeHome (kept_dropLater (kept_modRun h)))
              · exact kept_modRun (kept_writeHome (kept_dropLater (kept_modRun h)))
            · exact kept_modRun (kept_dropLater (kept_modRun h))
      · exact kept_dropLater (kept_modRun (kept_ite (kept_writeHome h) (kept_ite (kept_forwardTo h) h)))

theorem kept_releaseSelect {j i : Nat} {d : Desc} {pav : Nat} (h : kept s) : kept (releaseSelect s j i d pav) := by
  unfold releaseSelect
  dsimp only
  split
  · rename_i heq1
    exact kept_of_eq heq1 (kept_homeRead h)
  · rename_i heq1
    split
    · exact kept_runFault (kept_of_eq heq1 (kept_homeRead h))
    · split
      · rename_i heq2
        exact kept_of_eq heq2 (kept_homeRead (kept_of_eq heq1 (kept_homeRead h)))
      · rename_i heq2
        exact kept_sendStream (kept_modRun (kept_of_eq heq2 (kept_homeRead (kept_of_eq heq1 (kept_homeRead h)))))

/-! ### Gathers -/

theorem kept_toHomes {link : Nat} {d : Desc} {p : Pkt} (h : kept s) : kept (toHomes s link d p) := by
  unfold toHomes
  split
  · exact kept_foldl (fun _ _ ht => kept_forwardTo ht) h
  · exact h

theorem kept_sketchSeg {j i link : Nat} {d : Desc} {x : Nat} {p : Pkt} (h : kept s) : kept (sketchSeg s j i link d x p) := by
  unfold sketchSeg
  refine kept_toHomes ?_
  dsimp only
  split
  · refine kept_modRun ?_
    split
    · exact kept_writeHome h
    · exact h
  · split
    · split
      · refine kept_modRun (kept_modRun ?_)
        split
        · exact kept_writeHome h
        · exact h
      · split
        · refine kept_modRun (kept_modRun ?_)
          split
          · exact kept_writeHome h
          · exact h
        · split
          · split
            · exact kept_signalHome (kept_modRun (kept_modRun (kept_modRun (kept_writeHome h))))
            · exact kept_modRun (kept_modRun (kept_writeHome h))
          · split
            · exact kept_signalHome (kept_modRun (kept_modRun (kept_modRun h)))
            · exact kept_modRun (kept_modRun h)
    · refine kept_modRun ?_
      split
      · exact kept_writeHome h
      · exact h

theorem kept_keepRows {j i : Nat} {p : Pkt} {x stream rank : Nat} (h : kept s) : kept (keepRows s j i p x stream rank) :=
  kept_dropLater (kept_modRun h)

theorem kept_reportSeg {j i link : Nat} {d : Desc} {x : Nat} {p : Pkt} (h : kept s) : kept (reportSeg s j i link d x p) := by
  unfold reportSeg
  refine kept_toHomes ?_
  split
  · split
    · exact kept_modRun (kept_keepRows h)
    · exact kept_keepRows h
  · exact kept_keepRows h

theorem kept_listSeg {j i link : Nat} {d : Desc} {x : Nat} {p : Pkt} (h : kept s) : kept (listSeg s j i link d x p) := by
  unfold listSeg
  refine kept_modRun ?_
  split
  · exact kept_keepRows (kept_sendOn h)
  · exact kept_sendOn h

theorem keptSeg_gatherSeg {j i link : Nat} {d : Desc} {p : Pkt} (h : kept s) : keptSeg (gatherSeg s j i link d p) := by
  unfold gatherSeg
  dsimp only
  split
  · exact kept_sketchSeg h
  · exact kept_reportSeg h
  · exact kept_listSeg h
  · exact kept_sendRowSeg h

theorem kept_sendRow {j i : Nat} {d : Desc} {x row : Nat} (h : kept s) : kept (sendRow s j i d x row) := by
  unfold sendRow
  dsimp only
  split
  · exact kept_modRun (kept_hbmUncorrected h)
  · exact kept_foldl (fun _ _ ht => kept_sendDown ht) h

theorem kept_modStats {n layer : Nat} {f : RowStats → RowStats} (h : kept s) : kept (modStats s n layer f) :=
  kept_mk h

theorem kept_releaseGather {j i : Nat} {d : Desc} {pav : Nat} {h : Home} (hs : kept s) : kept (releaseGather s j i d pav h) := by
  unfold releaseGather
  dsimp only
  split
  · rename_i heq1
    exact kept_of_eq heq1 (kept_homeRead hs)
  · rename_i heq1
    split
    · exact kept_runFault (kept_of_eq heq1 (kept_homeRead hs))
    · split
      · rename_i heq2
        exact kept_of_eq heq2 (kept_homeRead (kept_of_eq heq1 (kept_homeRead hs)))
      · rename_i heq2
        split
        · exact kept_runFault (kept_of_eq heq2 (kept_homeRead (kept_of_eq heq1 (kept_homeRead hs))))
        · exact kept_foldl (fun _ _ ht => kept_sendRow ht) (kept_sendStream (kept_modRun (kept_of_eq heq2 (kept_homeRead (kept_of_eq heq1
            (kept_homeRead hs))))))

theorem kept_gatherStats {j : Nat} {d : Desc} (h : kept s) : kept (gatherStats s j d) := by
  unfold gatherStats
  dsimp only
  split
  · exact kept_modStats h
  · exact kept_emit (kept_modStats h)

theorem kept_sendMask {j i : Nat} {d : Desc} {x rank : Nat} {dropped : List Nat} (h : kept s) : kept (sendMask s j i d x rank dropped) :=
  kept_foldl (fun _ _ ht => kept_sendDown ht) h

theorem kept_dispatchRows {j i : Nat} {d : Desc} {x rank : Nat} (h : kept s) : kept (dispatchRows s j i d x rank) := by
  unfold dispatchRows
  dsimp only
  split
  · exact h
  · exact kept_foldl (fun _ _ ht => kept_foldl (fun _ _ ht => kept_foldl (fun _ _ ht => kept_sendDown ht) ht) ht) h

theorem kept_assignRank {j i : Nat} {d : Desc} {x rank : Nat} (h : kept s) : kept (assignRank s j i d x rank) := by
  unfold assignRank
  dsimp only
  split
  · exact h
  · split
    · exact kept_foldl (fun _ _ ht => kept_foldl (fun _ _ ht => kept_sendDown ht) ht) (kept_modRun h)
    · exact kept_sendMask (kept_modRun h)

theorem kept_tryDispatch {j i : Nat} {d : Desc} {x rank : Nat} (h : kept s) : kept (tryDispatch s j i d x rank) := by
  unfold tryDispatch
  split
  · exact h
  · split
    · exact kept_modRun (kept_dispatchRows h)
    · exact h

theorem kept_routeSeg {j i : Nat} {d : Desc} {x : Nat} {p : Pkt} (h : kept s) : kept (routeSeg s j i d x p) := by
  unfold routeSeg
  dsimp only
  split
  · exact kept_modRun h
  · split
    · exact kept_tryDispatch (kept_assignRank (kept_modRun h))
    · exact kept_modRun h

theorem kept_tokenSeg {j i : Nat} {d : Desc} {x : Nat} {p : Pkt} (h : kept s) : kept (tokenSeg s j i d x p) :=
  kept_tryDispatch (kept_modRun h)

theorem kept_combineRow {j i link : Nat} {d : Desc} {x : Nat} {p : Pkt} (h : kept s) : kept (combineRow s j i link d x p) := by
  unfold combineRow
  dsimp only
  split
  · exact kept_sendOn (kept_modRun h)
  · split
    · exact kept_modRun h
    · split
      · exact kept_modRun h
      · exact kept_sendRowSeg (kept_modRun h)

theorem keptSeg_a2aSeg {j i link : Nat} {d : Desc} {p : Pkt} (h : kept s) : keptSeg (a2aSeg s j i link d p) := by
  unfold a2aSeg
  dsimp only
  split
  · exact kept_routeSeg h
  · split
    · exact kept_combineRow h
    · split
      · exact kept_sendRowSeg h
      · exact kept_tokenSeg h
  · exact kept_sendDown h
  · exact kept_sendRowSeg h

/-! ### Packets -/

theorem kept_policed {l : Nat} {p : Pkt} {act : State → State} (hact : ∀ s, kept s → kept (act s)) (h : kept s) :
    kept (policed s l p act) := by
  unfold policed
  split
  · exact kept_windowDrop h
  · exact kept_pairStall h
  · exact hact _ (kept_countPair h)

theorem kept_p2pPass {l : Nat} {p : Pkt} (h : kept s) : kept (p2pPass s l p) := by
  unfold p2pPass
  split
  · exact kept_freeRx (kept_oweAck h)
  · exact kept_switchPkt h

theorem keptNext_execP2p {link : Nat} {p : Pkt} (h : kept s) : keptNext (execP2p link p s) :=
  keptNext_done (kept_onPacket (fun _ ht => kept_policed (fun _ ht => kept_p2pPass ht) ht) h)

theorem keptNext_execE2eAck {link : Nat} {p : Pkt} (h : kept s) : keptNext (execE2eAck link p s) := by
  unfold execE2eAck
  refine keptNext_done (kept_onPacket ?_ h)
  intro _ ht
  split
  · exact kept_freeRx (kept_ackPair (kept_handOff ht))
  · exact kept_switchPkt ht

theorem keptNext_execStream {link : Nat} {p : Pkt} (h : kept s) : keptNext (execStream link p s) :=
  keptNext_done (kept_onPacket (fun _ ht => kept_switchPkt ht) h)

theorem keptNext_execTelemetry {link : Nat} {p : Pkt} (h : kept s) : keptNext (execTelemetry link p s) :=
  keptNext_done (kept_onPacket (fun _ ht => kept_switchPkt ht) h)

theorem keptNext_execKiosk {link : Nat} {p : Pkt} (h : kept s) : keptNext (execKiosk link p s) := by
  unfold execKiosk
  refine keptNext_done (kept_onPacket ?_ h)
  intro _ ht
  split
  · exact kept_freeRx ht
  · exact kept_switchPkt ht

/-! ### Runs of descriptors -/

theorem kept_noteSeg {j i : Nat} {d : Desc} {p : Pkt} {a : Arrival} (h : kept s) : kept (noteSeg s j i d p a) :=
  kept_modRun h

theorem keptSeg_runSeg {j i link : Nat} {d : Desc} {p : Pkt} {a : Arrival} (h : kept s) : keptSeg (runSeg s j i link d p a) := by
  unfold runSeg
  dsimp only
  split
  · rename_i heq
    refine kept_noteSeg (kept_of_segOk heq ?_)
    split
    · exact keptSeg_a2aSeg h
    · exact keptSeg_sparseSeg h
    · exact keptSeg_selectSeg h
    · exact keptSeg_selectSeg h
    · exact keptSeg_selectSeg h
    · exact keptSeg_gatherSeg h
    · exact keptSeg_denseSeg h
  · rename_i heq
    refine kept_of_segStall heq ?_
    split
    · exact keptSeg_a2aSeg h
    · exact keptSeg_sparseSeg h
    · exact keptSeg_selectSeg h
    · exact keptSeg_selectSeg h
    · exact keptSeg_selectSeg h
    · exact keptSeg_gatherSeg h
    · exact keptSeg_denseSeg h

theorem keptSeg_stageEarly {j i : Nat} {e : EarlySeg} (h : kept s) : keptSeg (stageEarly s j i e) := by
  unfold stageEarly
  split
  · exact h
  · split
    · rename_i heq
      exact kept_setDesc (kept_fillBuf (kept_of_eq heq (kept_stageBuf h)))
    · rename_i heq
      exact kept_of_eq heq (kept_stageBuf h)

theorem keptSeg_acceptSeg {j i link : Nat} {p : Pkt} {a : Arrival} (h : kept s) : keptSeg (acceptSeg s j i link p a) := by
  unfold acceptSeg
  split
  · exact h
  · split
    · exact kept_dropSeg h
    · split
      · exact keptSeg_runSeg h
      · exact keptSeg_stageEarly h

theorem kept_holdSeg {j i link : Nat} {p : Pkt} {a : Arrival} (h : kept s) : kept (holdSeg s j i link p a) :=
  kept_coll rfl (kept_modDie h)

theorem kept_atIngress {j i link : Nat} {p : Pkt} {a : Arrival} (h : kept s) : kept (atIngress s j i link p a) := by
  unfold atIngress
  split
  · rename_i heq
    exact kept_freeRx (kept_of_segOk heq (keptSeg_acceptSeg h))
  · rename_i heq
    exact kept_holdSeg (kept_of_segStall heq (keptSeg_acceptSeg h))

theorem kept_restage {j i : Nat} {e : EarlySeg} (h : kept s) : kept (restage s j i e) := by
  unfold restage
  split
  · rename_i heq
    exact kept_of_segOk heq (keptSeg_stageEarly h)
  · rename_i heq
    split
    · exact kept_setDesc (kept_of_segStall heq (keptSeg_stageEarly h))
    · exact kept_of_segStall heq (keptSeg_stageEarly h)

/-- The links keep what they held before the segment ran. -/
theorem kept_unsent {links : List Nat} {t : State} (h : kept t) : kept (unsent links s t) :=
  kept_foldl (fun _ _ ht => kept_setLink ht) h

theorem kept_runEarly {j i : Nat} {d : Desc} {e : EarlySeg} (h : kept s) : kept (runEarly s j i d e) := by
  unfold runEarly
  dsimp only
  split
  · exact kept_freeBufs (kept_setDesc h)
  · split
    · exact kept_dropSeg (kept_freeBufs (kept_setDesc h))
    · split
      · rename_i heq
        exact kept_unsent (kept_of_segOk heq (keptSeg_runSeg (kept_freeBufs (kept_setDesc h))))
      · rename_i heq
        exact kept_restage (kept_of_segStall heq (keptSeg_runSeg (kept_freeBufs (kept_setDesc h))))

theorem kept_drainEarly {j i : Nat} (h : kept s) : kept (drainEarly s j i) := by
  unfold drainEarly
  split
  · exact h
  · refine kept_foldl (fun _ _ ht => ?_) h
    split
    · exact ht
    · split
      · exact kept_runEarly ht
      · exact ht

theorem kept_relayProv {d : Desc} {link : Nat} {p : Pkt} (h : kept s) : kept (relayProv s d link p).1 :=
  kept_foldl (fun _ _ ht => kept_handOff ht) h

theorem keptSeg_provArrive {j i link : Nat} {d : Desc} {p : Pkt} (h : kept s) : keptSeg (provArrive s j i link d p) := by
  unfold provArrive
  dsimp only
  split
  · rename_i heq
    exact kept_of_eq heq (kept_stageBuf h)
  · rename_i heq
    split
    · exact kept_relayProv (kept_fillBuf (kept_of_eq heq (kept_stageBuf h)))
    · exact kept_setDesc (kept_relayProv (kept_fillBuf (kept_of_eq heq (kept_stageBuf h))))

theorem kept_provIngress {j i link : Nat} {p : Pkt} {a : Arrival} (h : kept s) : kept (provIngress s j i link p a) := by
  unfold provIngress
  split
  · exact kept_freeRx h
  · split
    · exact kept_freeRx (kept_dropSeg h)
    · split
      · rename_i heq
        exact kept_freeRx (kept_of_segOk heq (keptSeg_provArrive h))
      · rename_i heq
        exact kept_holdSeg (kept_of_segStall heq (keptSeg_provArrive h))

theorem kept_voidProv {j i : Nat} {p : Pkt} (h : kept s) : kept (voidProv s j i p) := by
  unfold voidProv
  dsimp only
  split
  · exact h
  · split
    · exact h
    · exact kept_freeBufs (kept_setDesc h)

theorem kept_confirmOut {j i : Nat} {v : ProvSeg} (h : kept s) : kept (confirmOut s j i v) := by
  unfold confirmOut
  dsimp only
  split
  · exact h
  · exact kept_setDesc (kept_foldl (fun _ _ ht => kept_handOff ht) h)

theorem keptSeg_afterRelay {j i : Nat} {v : ProvSeg} {a : Arrival} (h : kept s) : keptSeg (afterRelay s j i v a) := by
  unfold afterRelay
  dsimp only
  split
  · exact h
  · split
    · exact kept_dropSeg h
    · split
      · split
        · rename_i heq
          exact kept_unsent (kept_of_segOk heq (keptSeg_runSeg h))
        · rename_i heq
          exact kept_of_segStall heq (keptSeg_runSeg h)
      · exact keptSeg_stageEarly h

theorem kept_takeProv {j i : Nat} {d : Desc} {v : ProvSeg} {cycle : BitVec 16} (h : kept s) : kept (takeProv s j i d v cycle) := by
  unfold takeProv
  dsimp only
  split
  · split
    · rename_i heq
      exact kept_of_segOk heq (keptSeg_afterRelay (kept_confirmOut (kept_freeBufs (kept_setDesc h))))
    · rename_i heq
      exact kept_restage (kept_of_segStall heq (keptSeg_afterRelay (kept_confirmOut (kept_freeBufs (kept_setDesc h)))))
  · split
    · rename_i heq
      exact kept_of_segOk heq (keptSeg_acceptSeg (kept_freeBufs (kept_setDesc h)))
    · rename_i heq
      exact kept_restage (kept_of_segStall heq (keptSeg_acceptSeg (kept_freeBufs (kept_setDesc h))))

theorem kept_settleHeld {j i : Nat} {d : Desc} {p : Pkt} {confirmed : Bool} {cycle : BitVec 16} (h : kept s) :
    kept (settleHeld s j i d p confirmed cycle) := by
  unfold settleHeld
  dsimp only
  split
  · exact h
  · split
    · exact kept_atIngress (kept_modDie h)
    · exact kept_freeRx (kept_modDie h)

theorem kept_settleProv {j i : Nat} {d : Desc} {p : Pkt} {confirmed : Bool} {cycle : BitVec 16} (h : kept s) :
    kept (settleProv s j i d p confirmed cycle) := by
  unfold settleProv
  split
  · exact kept_settleHeld h
  · split
    · exact kept_takeProv h
    · exact kept_freeBufs (kept_setDesc h)

theorem keptNext_execProvDeadline {die idx : Nat} (h : kept s) : keptNext (execProvDeadline die idx s) := by
  unfold execProvDeadline
  dsimp only
  split
  · exact keptNext_done h
  · split
    · exact keptNext_done h
    · exact keptNext_done (kept_retractAll (kept_setDesc h))

theorem kept_segUpset {j : Nat} {x : Upset} (h : kept s) : kept (segUpset s j x) := by
  unfold segUpset
  dsimp only
  split
  · exact kept_emit (kept_dieUpset (kept_hbmUpset h))
  · exact kept_dieUpset (kept_hbmUpset h)

theorem kept_combinerFault {j : Nat} (h : kept s) : kept (combinerFault s j) :=
  kept_dieFault (kept_modDie h)

theorem keptNext_execStagingRetry {die : Nat} {x : Upset} (h : kept s) : keptNext (execStagingRetry die x s) := by
  unfold execStagingRetry
  refine keptNext_done (kept_foldl ?_ ?_)
  · intro _ _ ht
    exact kept_drainEarly ht
  · refine kept_foldl (fun _ _ ht => ?_) (kept_ite (kept_ite (kept_combinerFault (kept_segUpset h)) (kept_segUpset h)) (kept_modDie
      (kept_ite (kept_combinerFault (kept_segUpset h)) (kept_segUpset h))))
    exact kept_mk (kept_ite (kept_provIngress ht) (kept_atIngress ht))

theorem kept_segHere {link : Nat} {p : Pkt} {cycle : BitVec 16} (h : kept s) : kept (segHere s link p cycle) := by
  unfold segHere
  dsimp only
  split
  · exact kept_freeRx (kept_dropSeg h)
  · split
    · exact kept_provIngress h
    · split
      · split
        · rename_i heq
          exact kept_freeRx (kept_of_segOk heq (keptSeg_afterRelay (kept_confirmOut (kept_voidProv h))))
        · rename_i heq
          exact kept_restage (kept_freeRx (kept_of_segStall heq (keptSeg_afterRelay (kept_confirmOut (kept_voidProv h)))))
      · exact kept_atIngress (kept_voidProv h)

theorem kept_relayOwn {link : Nat} {p : Pkt} (h : kept s) : kept (relayOwn s link p) := by
  unfold relayOwn
  dsimp only
  split
  · exact h
  · split
    · exact h
    · split
      · split
        · exact kept_relayProv h
        · exact kept_setDesc (kept_relayProv h)
      · exact kept_relayProv h

theorem keptNext_execSeg {link : Nat} {p : Pkt} {env : SegIn} (h : kept s) : keptNext (execSeg link p env s) := by
  unfold execSeg
  dsimp only
  split
  · exact keptNext_done (kept_ite (kept_relayOwn h) h)
  · refine keptNext_done (kept_onPacket ?_ h)
    intro _ ht
    split
    · exact kept_switchPkt ht
    · split
      · split
        · exact kept_segHere (kept_combinerFault (kept_segUpset ht))
        · exact kept_segHere (kept_segUpset ht)
      · exact kept_segHere (kept_segUpset ht)

theorem kept_startWork {j i : Nat} {d : Desc} (h : kept s) : kept (startWork s j i d) := by
  unfold startWork
  dsimp only
  split
  · exact h
  · split
    · split
      · exact kept_signalHome (kept_modRun h)
      · exact h
    · split
      · refine kept_foldl (fun _ _ ht => ?_) h
        split
        · exact kept_tryDispatch (kept_assignRank ht)
        · exact ht
      · exact h

theorem kept_triggerDesc {j i : Nat} {d : Desc} (h : kept s) : kept (triggerDesc s j i d) := by
  unfold triggerDesc
  dsimp only
  split
  · exact kept_modRun (kept_hbmUncorrected (kept_setDesc h))
  · split
    · exact kept_drainEarly (kept_startWork (kept_setDesc h))
    · exact kept_runFault (kept_setDesc h)

theorem keptNext_execDescriptorTrigger {die idx : Nat} (h : kept s) : keptNext (execDescriptorTrigger die idx s) := by
  unfold execDescriptorTrigger
  dsimp only
  split
  · exact keptNext_done h
  · split
    · split
      · exact keptNext_done (kept_triggerDesc h)
      · exact keptNext_done h
    · split
      · exact keptNext_done h
      · split
        · exact keptNext_done h
        · exact keptNext_done (kept_triggerDesc (kept_ite (kept_setTrig h) h))

theorem keptNext_execChunkFeed {die idx : Nat} {x : Upset} (h : kept s) : keptNext (execChunkFeed die idx x s) := by
  unfold execChunkFeed
  dsimp only
  split
  · exact keptNext_done h
  · split
    · exact keptNext_done h
    · split
      · exact keptNext_done h
      · split
        · exact keptNext_done h
        · split
          · exact keptNext_done (kept_pavFault (kept_ite (kept_pavCorrected h) h))
          · exact keptNext_done (kept_ite (kept_feedSparse (kept_ite (kept_pavCorrected h) h)) (kept_feedChunk (kept_ite
              (kept_pavCorrected h) h)))

theorem keptNext_execResultRelease {die idx : Nat} {x : Upset} (h : kept s) : keptNext (execResultRelease die idx x s) := by
  unfold execResultRelease
  dsimp only
  split
  · exact keptNext_done h
  · split
    · exact keptNext_done h
    · split
      · exact keptNext_done h
      · split
        · refine keptNext_done ?_
          split
          · exact kept_releaseSparse (kept_setTrig (kept_ite (kept_ite (kept_pavCorrected h) h) (kept_modPav (kept_ite
              (kept_pavCorrected h) h) (fun _ hv => keptPav_mk hv))))
          · exact kept_releaseSelect (kept_setTrig (kept_ite (kept_ite (kept_pavCorrected h) h) (kept_modPav (kept_ite
              (kept_pavCorrected h) h) (fun _ hv => keptPav_mk hv))))
          · exact kept_releaseSelect (kept_setTrig (kept_ite (kept_ite (kept_pavCorrected h) h) (kept_modPav (kept_ite
              (kept_pavCorrected h) h) (fun _ hv => keptPav_mk hv))))
          · exact kept_releaseSelect (kept_setTrig (kept_ite (kept_ite (kept_pavCorrected h) h) (kept_modPav (kept_ite
              (kept_pavCorrected h) h) (fun _ hv => keptPav_mk hv))))
          · exact kept_releaseGather (kept_setTrig (kept_ite (kept_ite (kept_pavCorrected h) h) (kept_modPav (kept_ite
              (kept_pavCorrected h) h) (fun _ hv => keptPav_mk hv))))
          · exact kept_releaseDense (kept_setTrig (kept_ite (kept_ite (kept_pavCorrected h) h) (kept_modPav (kept_ite
              (kept_pavCorrected h) h) (fun _ hv => keptPav_mk hv))))
        · exact keptNext_done h

theorem kept_endSignals {j : Nat} {d : Desc} (h : kept s) : kept (endSignals s j d).1 := by
  unfold endSignals
  dsimp only
  split
  · split
    · refine kept_signalPav ?_
      split
      · exact kept_signalTrig h
      · exact h
    · dsimp only
      split
      · exact kept_signalTrig h
      · exact h
  · dsimp only
    split
    · exact kept_signalTrig h
    · exact h

theorem kept_b2Done {j i : Nat} {d : Desc} {b : B2Info} {st : U16} (h : kept s) : kept (b2Done s j i d b st) := by
  unfold b2Done
  dsimp only
  split
  · split
    · exact kept_b2Leave (kept_setDesc h)
    · exact kept_setDesc h
  · split
    · exact kept_b2Leave h
    · exact h

theorem kept_completeRun {j i : Nat} {d : Desc} (h : kept s) : kept (completeRun s j i d) := by
  unfold completeRun
  extract_lets x st stats suma sums y record _ summed
  have hstats : kept stats := by
    unfold stats
    split
    · exact kept_gatherStats h
    · exact h
  have hrecord : kept record := by
    unfold record
    split
    · exact hstats
    · exact kept_regWrite hstats
  have hsummed : kept summed := by
    unfold summed
    split
    · split
      · exact hrecord
      · exact kept_emit (kept_mk hrecord)
    · exact hstats
  split
  next t sat heq =>
  have ht : kept t := kept_of_eq heq (kept_endSignals hsummed)
  extract_lets st' written ended told
  have hended : kept ended := by
    unfold ended
    split
    · exact kept_setDesc (kept_writeRecord ht)
    · exact kept_writeRecord ht
  have htold : kept told := by
    unfold told
    split
    · exact kept_emit hended
    · exact hended
  split
  · exact kept_b2Done htold
  · exact htold

theorem keptNext_execRunComplete {die idx : Nat} (h : kept s) : keptNext (execRunComplete die idx s) := by
  unfold execRunComplete
  split
  · exact keptNext_done h
  · split
    · exact keptNext_done h
    · split
      · split
        · exact keptNext_done (kept_completeRun h)
        · exact keptNext_done h
      · split
        · exact keptNext_done (kept_completeRun h)
        · exact keptNext_done h

/-! ### B2 launches -/

theorem kept_refuseLaunch {n : Nat} {tag : BitVec 16} {src : BitVec 24} {st : U16} (h : kept s) : kept (refuseLaunch s n tag src st) :=
  kept_emit (kept_mk (kept_sendOut h))

theorem kept_buildOn {n : Nat} {g : Launch} {home : BitVec 24} {entries : List Nat} {who : List (BitVec 24)} {j : Nat} (h : kept s) :
    kept (buildOn s n g home entries who j) :=
  kept_setDesc h

theorem keptSome_buildDesc {n j : Nat} {g : Launch} {home : BitVec 24} {entries : List Nat} {ds : List (Nat × Nat × Desc)} (h : kept s) :
    keptSome (buildDesc s n j g home entries ds) := by
  unfold buildDesc
  dsimp only
  split
  · exact trivial
  · exact kept_foldl (fun _ _ ht => kept_buildOn ht) h

theorem kept_mapB2 {ds : List (Nat × Nat × Desc)} {f : B2Info → B2Info} (h : kept s) : kept (mapB2 s ds f) :=
  kept_foldl (fun _ _ ht => kept_setDesc ht) h

theorem kept_dropDescs {ds : List (Nat × Nat × Desc)} (h : kept s) : kept (dropDescs s ds) :=
  kept_foldl (fun _ _ ht => kept_dropDesc ht) h

theorem kept_mismatchAll {n : Nat} {g : Launch} {src : BitVec 24} {entries : List Nat} {ds : List (Nat × Nat × Desc)} {b : B2Info}
    (h : kept s) : kept (mismatchAll s n g src entries ds b) := by
  unfold mismatchAll
  dsimp only
  split
  · exact kept_dropDescs (kept_foldl (fun _ _ ht => kept_refuseLaunch ht) h)
  · exact kept_mapB2 (kept_foldl (fun _ _ ht => kept_refuseLaunch ht) h)

theorem kept_acceptLaunch {link n : Nat} {p : Pkt} {g : Launch} {home : BitVec 24} {ds : List (Nat × Nat × Desc)} {src : BitVec 24}
    (h : kept s) : kept (acceptLaunch s link n p g home ds src) := by
  unfold acceptLaunch
  dsimp only
  split
  · split
    · refine kept_foldl (fun _ _ ht => ?_) (kept_mapB2 (kept_mk h))
      split
      · exact kept_triggerDesc ht
      · exact ht
    · exact kept_mapB2 (kept_mk h)
  · split
    · refine kept_foldl (fun _ _ ht => ?_) (kept_sendOut (kept_mapB2 (kept_mk h)))
      split
      · exact kept_triggerDesc ht
      · exact ht
    · exact kept_sendOut (kept_mapB2 (kept_mk h))

theorem kept_launchHere {link : Nat} {p : Pkt} (h : kept s) : kept (launchHere s link p) := by
  unfold launchHere
  dsimp only
  split
  · exact h
  · split
    · exact kept_refuseLaunch h
    · split
      · exact kept_refuseLaunch h
      · split
        · exact kept_refuseLaunch h
        · split
          · exact kept_mismatchAll h
          · split
            · exact kept_acceptLaunch h
            · split
              · exact kept_refuseLaunch h
              · rename_i heq
                exact kept_acceptLaunch (kept_of_some heq (keptSome_buildDesc h))

theorem kept_launchPass {link : Nat} {p : Pkt} (h : kept s) : kept (launchPass s link p) := by
  unfold launchPass
  split
  · exact kept_freeRx (kept_launchHere (kept_oweAck h))
  · exact kept_switchPkt h

theorem keptNext_execB2Launch {link : Nat} {p : Pkt} (h : kept s) : keptNext (execB2Launch link p s) :=
  keptNext_done (kept_onPacket (fun _ ht => kept_policed (fun _ ht => kept_launchPass ht) ht) h)

theorem keptNext_execB2Status {link : Nat} {p : Pkt} (h : kept s) : keptNext (execB2Status link p s) :=
  keptNext_done (kept_onPacket (fun _ ht => kept_switchPkt (kept_ite (kept_dropDescs ht) ht)) h)

theorem keptNext_execPairEntryAdmit {link : Nat} (h : kept s) : keptNext (execPairEntryAdmit link s) := by
  unfold execPairEntryAdmit
  dsimp only
  split
  · exact keptNext_done h
  · split
    · exact keptNext_done h
    · refine keptNext_done (kept_policed ?_ (kept_setLink h))
      intro _ ht
      split
      · exact kept_launchPass ht
      · exact kept_p2pPass ht

end Sys2Proof.Machine
end

section
/-! PROOF. The invariant is kept by the MERGE and LATTICE engines, by images, shards, plots and the Lodge. -/

namespace Sys2Proof.Machine
open Sys2Proof.Safety

variable {s : State}

/-! ### The merge engine -/

theorem keptEff_mergeOut {u : EngRef} {load : Pavilion → Pavilion} {f pb dst : Nat} {count : Bool} {rs : List MRec} {outn : Nat}
    (h : kept s) (hload : ∀ v, keptPav v → keptPav (load v) := by exact fun _ hv => hv) :
    keptEff (mergeOut u s load f pb dst count rs outn) := by
  unfold mergeOut
  split
  · exact h
  · exact keptEff_ofWrite (keptPav_sramWrites (hload _ (keptPav_pavAt h))) h

theorem keptEff_effMmerge {u : EngRef} {k : CmdHdr} {o : MergeOps} {iter : Nat} (h : kept s) : keptEff (effMmerge u k o iter s) := by
  unfold effMmerge
  split
  · exact h
  · dsimp only
    split
    · exact h
    · split
      · exact h
      · split
        · next heq => exact kept_of_effFail heq (keptEff_mergeOut h)
        · next heq =>
          have hout := kept_of_effOk heq (keptEff_mergeOut h)
          split
          · exact hout
          · exact kept_emit hout

theorem keptNext_execMmerge {u : EngRef} {x : Upset} {k : CmdHdr} {o : MergeOps} (h : kept s) : keptNext (execMmerge u x k o s) :=
  keptNext_issueOp (fun _ _ ht => keptEff_effMmerge ht) h

theorem keptEff_effSort {u : EngRef} {k : CmdHdr} {o : MergeOps} {iter : Nat} {limit : MergeBlk → Bool} {outn : MergeBlk → Nat → Nat}
    (h : kept s) : keptEff (effSort u k o iter s limit outn) := by
  unfold effSort
  dsimp only
  split
  · exact h
  · split
    · exact h
    · split
      · exact h
      · exact keptEff_mergeOut h (fun _ hv => keptPav_mk hv)

theorem keptNext_execMsort {u : EngRef} {x : Upset} {k : CmdHdr} {o : MergeOps} (h : kept s) : keptNext (execMsort u x k o s) :=
  keptNext_issueOp (fun _ _ ht => keptEff_effSort ht) h

theorem keptNext_execMtopk {u : EngRef} {x : Upset} {k : CmdHdr} {o : MergeOps} (h : kept s) : keptNext (execMtopk u x k o s) :=
  keptNext_issueOp (fun _ _ ht => keptEff_effSort ht) h

theorem keptEff_effMfilt {u : EngRef} {k : CmdHdr} {o : MergeOps} {iter : Nat} (h : kept s) : keptEff (effMfilt u k o iter s) := by
  unfold effMfilt
  split
  · exact h
  · dsimp only
    split
    · exact h
    · split
      · exact h
      · exact keptEff_mergeOut h

theorem keptNext_execMfilt {u : EngRef} {x : Upset} {k : CmdHdr} {o : MergeOps} (h : kept s) : keptNext (execMfilt u x k o s) :=
  keptNext_issueOp (fun _ _ ht => keptEff_effMfilt ht) h

/-! ### The lattice engine -/

theorem statLoads_wf {kb pitch : Nat} {rows : List (List Byte)} {m : List Host.Cell} (h : Memory.wf m = true) :
    Memory.wf (statLoads kb pitch rows m) = true :=
  List.foldlRecOn (motive := fun m : List Host.Cell => Memory.wf m = true) _ _ h (fun _ hm _ _ => memWrites_wf _ _ hm)

theorem keptEff_effLmm {u : EngRef} {k : CmdHdr} {o : LmmOps} {iter : Nat} (h : kept s) : keptEff (effLmm u k o iter s) := by
  obtain ⟨hsram, hstat, hvl⟩ := keptPav_pavAt h (i := u.pav)
  unfold effLmm
  dsimp only
  refine iteInduction (fun _ => h) fun _ => iteInduction (fun _ => h) fun _ => ?_
  split
  · exact h
  · generalize latBlk _ = b
    refine iteInduction (fun _ => h) fun _ => iteInduction (fun _ => h) fun _ => ?_
    split
    · exact h
    · refine keptEff_ofWrite (keptPav_sramWrites (iteInduction (fun _ => ⟨hsram, hstat, hvl⟩) fun _ => ⟨hsram, statLoads_wf hstat, hvl⟩)) ?_
      split
      · exact h
      · exact kept_emit h

theorem keptNext_execLmm {u : EngRef} {x : Upset} {k : CmdHdr} {o : LmmOps} (h : kept s) : keptNext (execLmm u x k o s) :=
  keptNext_issueOp (fun _ _ ht => keptEff_effLmm ht) h

/-! ### Shards: shared operations -/

theorem kept_toTwin {n kind : Nat} {step : BitVec 64} {pos nel : Nat} {status : BitVec 16} {body : List Byte} (h : kept s) :
    kept (toTwin s n kind step pos nel status body) := by
  unfold toTwin
  dsimp only
  split
  · exact h
  · exact kept_sendOut h

theorem kept_sendHeader {n : Nat} {step : BitVec 64} {status : BitVec 16} (h : kept s) : kept (sendHeader s n step status) :=
  kept_toTwin h

theorem kept_sendList {n : Nat} {step : BitVec 64} {l : List (BitVec 64)} (h : kept s) : kept (sendList s n step l) :=
  kept_foldl (fun _ _ ht => kept_toTwin ht) h

theorem kept_sendRead {n kind : Nat} {step : BitVec 64} {pos nel : Nat} {as : List Nat} (h : kept s) :
    kept (sendRead s n kind step pos nel as) := by
  unfold sendRead
  split
  · exact kept_hbmUncorrected h
  · exact kept_toTwin h

theorem kept_sendHeldList {n : Nat} {step : BitVec 64} {e : BitVec 512} {g : Nat} (h : kept s) : kept (sendHeldList s n step e g) :=
  kept_foldl (fun _ _ ht => kept_sendRead ht) h

theorem kept_diverged {n : Nat} {k : RecKind} {st : U16} {first ndiff : Nat} (h : kept s) : kept (diverged s n k st first ndiff) :=
  kept_containedHold (kept_emit (kept_setShard h))

theorem kept_twinSkew {n : Nat} (h : kept s) : kept (twinSkew s n) :=
  kept_diverged (kept_modShard h)

theorem kept_commitDue {n : Nat} {st : U16} {flags : BitVec 8} (h : kept s) : kept (commitDue s n st flags) :=
  kept_modShard h

theorem kept_compareShard {n : Nat} (h : kept s) : kept (compareShard s n) := by
  unfold compareShard
  dsimp only
  split
  · exact h
  · split
    · exact kept_commitDue h
    · split
      · exact h
      · split
        · exact h
        · split
          · exact kept_diverged h
          · split
            · exact kept_commitDue h
            · exact kept_diverged h

theorem kept_twinTake {n : Nat} {step : BitVec 64} {keep : Shard → Bool → Shard} (h : kept s) : kept (twinTake s n step keep) := by
  unfold twinTake
  dsimp only
  split
  · exact kept_compareShard (kept_modShard h)
  · exact kept_modShard h
  · exact kept_twinSkew h
  · exact kept_emit (kept_modShard h)
  · exact h

theorem kept_advanceStep {n : Nat} (h : kept s) : kept (advanceStep s n) := by
  unfold advanceStep
  dsimp only
  split
  · exact h
  · exact kept_setPlot h

theorem kept_signalRel {n rel ctr inc : Nat} {o : CtrSrc} (h : kept s) : kept (signalRel s n rel ctr inc o) := by
  unfold signalRel
  split
  · exact kept_signalPav h
  · exact h

theorem kept_commitShard {n : Nat} {st : U16} {flags : BitVec 8} (h : kept s) : kept (commitShard s n st flags) :=
  kept_advanceStep (kept_emit (kept_signalRel (kept_setShard h)))

theorem kept_sendRequest {n : Nat} {new : Bool} {pos nel : Nat} (h : kept s) : kept (sendRequest s n new pos nel) :=
  kept_toTwin h

theorem kept_startRestore {n : Nat} {new : Bool} (h : kept s) : kept (startRestore s n new) := by
  unfold startRestore
  dsimp only
  split
  · exact kept_modShard h
  · exact kept_sendRequest (kept_modShard h)

theorem kept_endRestore {n : Nat} {st : U16} (h : kept s) : kept (endRestore s n st) :=
  kept_modShard h

theorem kept_restoreDone {n : Nat} {st : BitVec 64} (h : kept s) : kept (restoreDone s n st) := by
  unfold restoreDone
  refine kept_emit ?_
  split
  · exact kept_modShard (kept_commitDue h)
  · exact kept_setShard h

theorem kept_checkBlock {n : Nat} {st : BitVec 64} {b : Nat} (h : kept s) : kept (checkBlock s n st b) := by
  unfold checkBlock
  dsimp only
  split
  · exact h
  · split
    · split
      · split
        · exact kept_restoreDone (kept_modShard (kept_regWrite (kept_hbmUncorrected h)))
        · exact kept_modShard (kept_regWrite (kept_hbmUncorrected h))
      · split
        · exact kept_emit (kept_endRestore (kept_hbmUncorrected h))
        · exact kept_sendRequest (kept_modShard (kept_hbmUncorrected h))
    · split
      · split
        · exact kept_restoreDone (kept_modShard (kept_regWrite h))
        · exact kept_modShard (kept_regWrite h)
      · split
        · exact kept_emit (kept_endRestore h)
        · exact kept_sendRequest (kept_modShard h)

theorem kept_checkBlocks {n : Nat} (h : kept s) : kept (checkBlocks s n) := by
  unfold checkBlocks
  split
  · exact h
  · exact kept_foldl (fun _ _ ht => kept_checkBlock ht) h

theorem kept_takeRestore {n : Nat} {step : BitVec 64} {pos : Nat} {bs : List Byte} (h : kept s) : kept (takeRestore s n step pos bs) := by
  unfold takeRestore
  refine kept_checkBlocks ?_
  split
  · refine kept_modShard (kept_modShard ?_)
    split
    · exact kept_hbmUncorrected (kept_hbmWrite h)
    · exact kept_hbmWrite h
  · refine kept_modShard ?_
    split
    · exact kept_hbmUncorrected (kept_hbmWrite h)
    · exact kept_hbmWrite h

theorem kept_serve {n : Nat} {st : BitVec 64} {block : Option Nat} (h : kept s) : kept (serve s n st block) := by
  unfold serve
  dsimp only
  split
  · exact kept_foldl (fun _ _ ht => kept_sendRead ht) (kept_setShard h)
  · exact kept_foldl (fun _ _ ht => kept_sendRead ht) (kept_sendHeldList (kept_sendHeader (kept_setShard h)))

theorem kept_shardCmdRun {n k : Nat} (h : kept s) : kept (shardCmdRun s n k) := by
  unfold shardCmdRun
  dsimp only
  split
  · exact kept_modShard h
  · split
    · exact kept_commitDue (kept_modShard h)
    · exact kept_startRestore (kept_modShard h)
    · exact kept_modShard (kept_modShard h)
    · exact kept_startRestore (kept_modShard h)
    · exact kept_modShard (kept_modShard h)
    · exact kept_commitDue (kept_modShard h)
    · exact kept_modShard h

theorem kept_stepCounters (h : kept s) : kept (stepCounters s) :=
  kept_foldl (fun _ _ ht => kept_advanceStep ht) h

theorem kept_shardTick {n : Nat} (h : kept s) : kept (shardTick s n) := by
  unfold shardTick
  dsimp only
  split
  · split
    · exact kept_setShard (kept_foldl (fun _ _ ht => kept_shardCmdRun ht) h)
    · split
      · exact kept_setShard (kept_foldl (fun _ _ ht => kept_shardCmdRun ht) h)
      · exact kept_foldl (fun _ _ ht => kept_shardCmdRun ht) h
  · split
    · exact kept_setShard (kept_foldl (fun _ _ ht => kept_shardCmdRun ht) (kept_modShard h))
    · split
      · exact kept_setShard (kept_foldl (fun _ _ ht => kept_shardCmdRun ht) (kept_modShard h))
      · exact kept_foldl (fun _ _ ht => kept_shardCmdRun ht) (kept_modShard h)

theorem kept_resetShard {n : Nat} (h : kept s) : kept (resetShard s n) := by
  unfold resetShard
  dsimp only
  split
  · exact h
  · exact kept_toTwin (kept_setShard h)

theorem kept_resetShards {n : Nat} (h : kept s) : kept (resetShards s n) := by
  unfold resetShards
  dsimp only
  split
  · refine kept_modNorm (kept_foldl (fun _ _ ht => ?_) h)
    split
    · exact kept_resetShard ht
    · exact ht
  · refine kept_foldl (fun _ _ ht => ?_) h
    split
    · exact kept_resetShard ht
    · exact ht

/-! ### Plots: shared operations -/

theorem keptPav_engineState {v : Pavilion} {eng : Nat} (hv : keptPav v) : keptPav (engineState v eng) := by
  obtain ⟨hsram, hstat, hvl⟩ := hv
  unfold engineState
  split
  · exact ⟨hsram, hstat, Nat.le_refl _⟩
  · exact ⟨hsram, hstat, hvl⟩
  · exact ⟨hsram, hstat, hvl⟩
  · exact ⟨hsram, rfl, hvl⟩
  · exact ⟨hsram, hstat, hvl⟩

theorem keptPav_enginesState {v : Pavilion} (hv : keptPav v) : keptPav (enginesState v) :=
  keptPav_foldl (fun _ _ hw => keptPav_engineState hw) hv

theorem kept_poisonEngine {f : Engine → Engine} {u : EngRef} (h : kept s) : kept (poisonEngine f s u) := by
  unfold poisonEngine
  split
  · exact kept_traceCmd (kept_modEng h)
  · exact kept_modEng h

theorem kept_resetPav {i : Nat} (h : kept s) : kept (resetPav s i) := by
  have hended : ∀ {f : Engine → Engine}, kept (modPav ((engsOfPav i).foldl (poisonEngine f) s) i
      (fun v => { enginesState v with sram := [], badWords := [], ctrs := [] })) := fun {f} =>
    kept_modPav (kept_foldl (fun _ _ ht => kept_poisonEngine ht) h) fun v hv => ⟨rfl, (keptPav_enginesState hv).2⟩
  unfold resetPav
  dsimp only
  split
  · exact kept_containedHold hended
  · exact hended

theorem kept_resetEngine {u : EngRef} (h : kept s) : kept (resetEngine s u) :=
  kept_modPav (kept_modEng h) fun _ hv => keptPav_engineState hv

theorem kept_destroyPools {n : Nat} (h : kept s) : kept (destroyPools s n) := by
  unfold destroyPools
  refine kept_mk (kept_foldl (fun t e ht => ?_) h)
  dsimp only
  split
  · exact kept_modDie ht fun d hd => memZero_wf _ _ hd
  · exact ht

/-- Cells of one span moved to a span that ends below the tail stay in canonical form. -/
theorem memWfFrom_move {base len at_ : Nat} {m tail : List Host.Cell} (htail : memWfFrom (at_ + len) tail = true) :
    ∀ {lo : Nat}, memWfFrom lo m = true → memWfFrom (min (lo - base) len + at_)
      ((m.filter (fun c => decide (base ≤ c.1) && decide (c.1 < base + len))).map (fun c => (c.1 - base + at_, c.2)) ++ tail) = true := by
  induction m with
  | nil => exact fun _ => memWfFrom_mono (by omega) htail
  | cons c m ih =>
    obtain ⟨k, b⟩ := c
    intro lo w
    simp only [memWfFrom, Bool.and_eq_true, decide_eq_true_eq] at w
    obtain ⟨⟨hlo, hb⟩, hm⟩ := w
    have hrest := ih hm
    by_cases hk : base ≤ k ∧ k < base + len
    · have hmine : (decide (base ≤ k) && decide (k < base + len)) = true := by simpa using hk
      rw [List.filter_cons_of_pos (by exact hmine), List.map_cons, List.cons_append]
      simp only [memWfFrom, Bool.and_eq_true, decide_eq_true_eq]
      exact ⟨⟨by omega, hb⟩, memWfFrom_mono (by omega) hrest⟩
    · have hother : ¬(decide (base ≤ k) && decide (k < base + len)) = true := by simpa using hk
      rw [List.filter_cons_of_neg (by exact hother)]
      exact memWfFrom_mono (by omega) hrest

theorem compactGo_wfFrom {d : Dovecote} {ps : List (Nat × Pool)} (hd : keptDie d) :
    ∀ {at_ : Nat}, memWfFrom at_ (compactGo d at_ ps).1.mem = true := by
  induction ps with
  | nil => exact rfl
  | cons e ps ih =>
    obtain ⟨id, p⟩ := e
    intro at_
    have hmove := memWfFrom_move (base := p.base) (at_ := at_) (ih (at_ := at_ + p.count * 2 ^ p.size)) hd
    exact memWfFrom_mono (by omega) hmove

theorem kept_compactDie {j : Nat} (h : kept s) : kept (compactDie s j) := by
  unfold compactDie
  refine kept_foldl (fun t m ht => ?_) (kept_modDie h fun _ _ => compactGo_wfFrom (keptDie_dieAt h))
  split
  · exact kept_setPool ht
  · exact ht

theorem kept_dieRoom {j len : Nat} (h : kept s) : kept (dieRoom s j len).1 := by
  unfold dieRoom
  split
  · exact h
  · exact kept_compactDie h

theorem kept_poolPlace {n prev : Nat} {p : PoolDecl} (h : kept s) : kept (poolPlace s n p prev).1 := by
  unfold poolPlace
  split
  · exact h
  · exact kept_dieRoom h
  · exact h

theorem kept_createPoolsGo {n : Nat} {img : Image} {ps : List PoolDecl} :
    ∀ {rel : Nat} {ends : Tbl Nat} {s : State}, kept s → kept (createPoolsGo n img rel ends ps s) := by
  induction ps with
  | nil => exact fun h => h
  | cons p ps ih => exact fun h => ih (kept_setPool (kept_poolPlace h))

theorem kept_createPools {n : Nat} {img : Image} (h : kept s) : kept (createPools s n img) :=
  kept_createPoolsGo (kept_destroyPools h)

theorem kept_dropHeld {n j : Nat} {k : RecKind} {st : U16} {b2 : Bool} (h : kept s) : kept (dropHeld s n j k st b2) :=
  kept_foldl (fun _ _ ht => kept_freeRx (kept_dropSeg ht)) (kept_modDie h)

theorem kept_abortDescs {n : Nat} (h : kept s) : kept (abortDescs s n) :=
  kept_foldl (fun _ _ ht => kept_foldl (fun _ _ ht => kept_dropDesc (kept_ite (kept_writeRecord ht) ht)) (kept_dropHeld ht)) h

theorem kept_retireDescs {n : Nat} (h : kept s) : kept (retireDescs s n) :=
  kept_foldl (fun _ _ ht => kept_foldl (fun _ _ ht => kept_foldl (fun _ _ ht => kept_dropSeg ht) (kept_dropDesc ht)) (kept_dropHeld ht)) h

theorem kept_placeDescs {n : Nat} {img : Image} (h : kept s) : kept (placeDescs s n img) := by
  unfold placeDescs
  refine kept_foldl (fun _ _ ht => ?_) (kept_foldl (fun _ _ ht => kept_modDie ht) h)
  dsimp only
  split
  · exact ht
  · exact kept_foldl (fun _ _ ht => kept_setDesc ht) (kept_modDie ht)

theorem kept_loadShadow {n : Nat} {img : Image} (h : kept s) : kept (loadShadow s n img) :=
  kept_foldl (fun _ _ ht => kept_modEng ht) h

theorem kept_clearShadow {n : Nat} (h : kept s) : kept (clearShadow s n) :=
  kept_foldl (fun _ _ ht => kept_modEng ht) h

theorem kept_drawSpray {n : Nat} (h : kept s) : kept (drawSpray s n) := by
  unfold drawSpray
  dsimp only
  split
  · exact kept_modPlot (kept_mk h)
  · exact h

theorem keptPav_initCtrs {v : Pavilion} {ds : List CtrDecl} (hv : keptPav v) : keptPav (initCtrs v ds) :=
  ⟨hv.1, hv.2.1, Nat.le_refl _⟩

theorem kept_writeStatics {n : Nat} {img : Image} (h : kept s) : kept (writeStatics s n img) := by
  unfold writeStatics
  refine kept_foldl (fun _ _ ht => ?_) h
  refine kept_foldl (fun _ _ ht => ?_) ht
  split
  · exact kept_placePut ht
  · split
    · exact kept_placePut ht
    · exact ht

theorem kept_activate {n : Nat} {img : Image} (h : kept s) : kept (activate s n img) :=
  kept_emit (kept_modPlot (kept_mk (kept_writeStatics (kept_placeDescs (kept_createPools (kept_retireDescs (kept_foldl
  (fun _ _ ht => kept_modPav ht (fun _ hv => keptPav_initCtrs hv)) (kept_foldl (fun _ _ ht => kept_modEng ht) (kept_drawSpray h)))))))))

theorem kept_resetPlotT {n : Nat} (h : kept s) : kept (resetPlotT s n) := by
  have hpoison : ∀ {f : Engine → Engine}, kept ((engsOfPlot s n).foldl (poisonEngine f) s) :=
    kept_foldl (fun _ _ ht => kept_poisonEngine ht) h
  exact kept_mk (kept_resetShards (kept_destroyPools (kept_abortDescs (kept_foldl (fun _ _ ht => kept_modDie ht)
    (kept_foldl (fun _ _ ht => kept_modPav ht) hpoison)))))

theorem kept_resetPlotDone {n : Nat} (h : kept s) : kept (resetPlotDone s n) :=
  kept_mk (kept_foldl (fun _ _ ht => kept_modPav ht fun _ hv => keptPav_enginesState hv)
    (kept_foldl (fun _ _ ht => kept_modEng ht) h))

/-! ### The Lodge -/

theorem kept_flood {n : Nat} {but : Option Nat} {p : Pkt} (h : kept s) : kept (flood s n but p) :=
  kept_foldl (fun _ _ ht => kept_handOff ht) h

theorem kept_originate {n : Nat} {p : Pkt} (h : kept s) : kept (originate s n p) :=
  kept_modDom (kept_flood h)

theorem kept_forward {n l : Nat} {p : Pkt} {ok : Bool} (h : kept s) : kept (forward s n l p ok) := by
  unfold forward
  split
  · exact h
  · exact kept_modDom (kept_flood h)

theorem kept_onLodge {l type : Nat} {p : Pkt} {act : State → Nat → State} (hact : ∀ s n, kept s → kept (act s n)) (h : kept s) :
    kept (onLodge s l p type act) := by
  unfold onLodge
  split
  · exact h
  · refine kept_onPacket (fun t ht => ?_) h
    split
    · exact kept_switchPkt ht
    · split
      · exact kept_freeRx ht
      · exact kept_freeRx (hact _ _ ht)

theorem kept_noQuorum {n : Nat} {st : U16} (h : kept s) : kept (noQuorum s n st) :=
  kept_emit (kept_modDom (kept_plainHold h))

theorem kept_addAccusal {n subj by_ : Nat} (h : kept s) : kept (addAccusal s n subj by_) := by
  unfold addAccusal
  dsimp only
  split
  · exact kept_noQuorum (kept_modDom h)
  · exact kept_modDom h

theorem kept_accuseIn {n : Nat} {epid : BitVec 24} (h : kept s) : kept (accuseIn s n epid) := by
  unfold accuseIn
  dsimp only
  split
  · exact h
  · split
    · exact h
    · exact kept_addAccusal (kept_originate h)

theorem keptNext_execNeighbourSuspect {epid : BitVec 24} (h : kept s) : keptNext (execNeighbourSuspect epid s) := by
  unfold execNeighbourSuspect
  dsimp only
  split
  · exact keptNext_done h
  · exact keptNext_done (kept_foldl (fun _ _ ht => kept_accuseIn ht) (kept_emit (kept_mk h)))

theorem keptNext_execMembershipTableWrite {q : KReq} {d : DomSeg} (h : kept s) : keptNext (execMembershipTableWrite q d s) := by
  unfold execMembershipTableWrite
  refine keptNext_done (kept_kioskDom ?_ h)
  intro _ _ _ ht
  dsimp only
  split
  · exact trivial
  · split
    · exact trivial
    · exact kept_modPlot (kept_setDom ht)

theorem keptNext_execAccuse {link : Nat} {p : Pkt} (h : kept s) : keptNext (execAccuse link p s) := by
  unfold execAccuse
  refine keptNext_done (kept_onLodge ?_ h)
  intro _ _ ht
  dsimp only
  split
  · exact kept_addAccusal (kept_forward ht)
  · exact kept_forward ht

theorem kept_floodMap {n type epoch : Nat} {set : List Nat} (h : kept s) : kept (floodMap s n type epoch set) :=
  kept_foldl (fun _ _ ht => kept_originate ht) h

theorem kept_startRound {n : Nat} (h : kept s) : kept (startRound s n) :=
  kept_floodMap (kept_setDom h)

theorem keptNext_execRoundStart {n : Nat} (h : kept s) : keptNext (execRoundStart n s) := by
  unfold execRoundStart
  dsimp only
  split
  · exact keptNext_done (kept_startRound h)
  · exact keptNext_done h

theorem keptNext_execRoundTakeover {n : Nat} (h : kept s) : keptNext (execRoundTakeover n s) := by
  unfold execRoundTakeover
  dsimp only
  split
  · exact keptNext_done (kept_emit (kept_startRound h))
  · exact keptNext_done h

theorem keptNext_execPropose {link : Nat} {p : Pkt} (h : kept s) : keptNext (execPropose link p s) := by
  unfold execPropose
  refine keptNext_done (kept_onLodge ?_ h)
  intro _ _ ht
  dsimp only
  split
  · exact ht
  · split
    · exact kept_forward ht
    · exact kept_sendOut (kept_modDom (kept_forward ht))

theorem keptNext_execAck {link : Nat} {p : Pkt} (h : kept s) : keptNext (execAck link p s) := by
  unfold execAck
  refine keptNext_done (kept_onLodge ?_ h)
  intro _ _ ht
  split
  · split
    · exact kept_modDom ht
    · exact ht
  · exact ht

theorem keptNext_execRoundClose {n : Nat} {windowOver : Bool} (h : kept s) : keptNext (execRoundClose n windowOver s) := by
  unfold execRoundClose
  dsimp only
  split
  · exact keptNext_done h
  · split
    · exact keptNext_done h
    · split
      · exact keptNext_done (kept_modDom (kept_floodMap (kept_modDom h)))
      · exact keptNext_done (kept_noQuorum (kept_originate (kept_modDom h)))

theorem keptNext_execCommit {link : Nat} {p : Pkt} (h : kept s) : keptNext (execCommit link p s) := by
  unfold execCommit
  refine keptNext_done (kept_onLodge ?_ h)
  intro _ _ ht
  dsimp only
  split
  · exact kept_forward ht
  · exact kept_modDom (kept_forward ht)

theorem kept_voidProvisional {n : Nat} (h : kept s) : kept (voidProvisional s n) :=
  kept_foldl (fun _ _ ht => kept_foldl (fun _ _ ht => kept_freeRx ht) (kept_modDie (kept_freeBufs ht))) (kept_mk h)

theorem kept_adoptEpoch {n : Nat} {c : CommitMsg} (h : kept s) : kept (adoptEpoch s n c) := by
  unfold adoptEpoch
  refine kept_foldl (fun _ _ ht => ?_) (kept_emit (kept_voidProvisional (kept_modDom (kept_plainHold (kept_modPlot h)))))
  split
  · exact kept_compareShard ht
  · exact ht

theorem kept_adoptNow {n : Nat} (h : kept s) : kept (adoptNow s n) := by
  unfold adoptNow
  dsimp only
  split
  · exact h
  · split
    · exact h
    · split
      · exact kept_emit (kept_modDom (kept_plainHold h))
      · exact kept_adoptEpoch h

theorem keptNext_execEpochAdopt {n : Nat} (h : kept s) : keptNext (execEpochAdopt n s) :=
  keptNext_done (kept_adoptNow h)

theorem keptNext_execNoquorum {link : Nat} {p : Pkt} (h : kept s) : keptNext (execNoquorum link p s) := by
  unfold execNoquorum
  refine keptNext_done (kept_onLodge ?_ h)
  intro _ _ ht
  dsimp only
  split
  · exact kept_noQuorum (kept_forward ht)
  · exact kept_forward ht

theorem kept_resend {n l : Nat} {c : CommitMsg} (h : kept s) : kept (resend s n l c) :=
  kept_foldl (fun _ _ ht => kept_handOff ht) h

theorem keptNext_execPull {link : Nat} {p : Pkt} (h : kept s) : keptNext (execPull link p s) := by
  unfold execPull
  refine keptNext_done (kept_onLodge ?_ h)
  intro _ _ ht
  split
  · exact ht
  · exact kept_foldl (fun _ _ ht => kept_resend ht) ht

theorem keptNext_execProbe {link : Nat} {p : Pkt} (h : kept s) : keptNext (execProbe link p s) :=
  keptNext_done (kept_onLodge (fun _ _ ht => kept_sendOut ht) h)

theorem kept_probeOver {n : Nat} {r : BitVec 8} (h : kept s) : kept (probeOver s n r) :=
  kept_emit (kept_modDom h)

theorem keptNext_execProbeReply {link : Nat} {p : Pkt} (h : kept s) : keptNext (execProbeReply link p s) := by
  unfold execProbeReply
  refine keptNext_done (kept_onLodge ?_ h)
  intro _ _ ht
  split
  · split
    · exact kept_probeOver ht
    · exact ht
  · exact ht

theorem keptNext_execProbeTimeout {n : Nat} (h : kept s) : keptNext (execProbeTimeout n s) := by
  unfold execProbeTimeout
  split
  · split
    · exact keptNext_done (kept_probeOver h)
    · exact keptNext_done h
  · exact keptNext_done h

theorem kept_claimDeadOn {n m : Nat} (h : kept s) : kept (claimDeadOn s n m) := by
  unfold claimDeadOn
  dsimp only
  split
  · exact kept_probeOver (kept_modDom h)
  · split
    · exact kept_sendOut (kept_modDom h)
    · exact kept_modDom h

theorem kept_claimWrite {q : KReq} {v : BitVec 32} (h : kept s) : kept (claimWrite s q v) := by
  unfold claimWrite
  refine kept_kioskReq ?_ h
  intro _ _ ht
  dsimp only
  split
  · exact kept_refuse ht
  · split
    · exact kept_refuse ht
    · split
      · exact kept_refuse ht
      · split
        · exact kept_accept (kept_claimDeadOn ht)
        · split
          · exact kept_emit (kept_refuse ht)
          · exact kept_accept ht

theorem keptNext_execClaimDead {q : KReq} {v : BitVec 32} (h : kept s) : keptNext (execClaimDead q v s) :=
  keptNext_done (kept_claimWrite h)

theorem keptNext_execClaimAlive {q : KReq} {v : BitVec 32} (h : kept s) : keptNext (execClaimAlive q v s) :=
  keptNext_done (kept_claimWrite h)

/-! ### Persistent objects -/

theorem kept_rwsPut {index sub sel : Nat} {bs : List Byte} (h : kept s) : kept (rwsPut s index sub sel bs) := by
  unfold rwsPut
  dsimp only
  split
  · split <;> exact kept_setPort h
  · split
    · exact kept_mk h
    · exact kept_mk h
    · exact kept_mk h
    · exact kept_mk h
    · exact kept_mk h
    · exact kept_mk h
    · exact kept_mk h
    · exact kept_mk h
    · exact kept_mk h
    · exact kept_mk h
    · split
      · exact kept_modPlot h
      · refine kept_foldl (fun _ _ ht => ?_) h
        split
        · exact ht
        · exact kept_modPlot ht
    · exact kept_mk h
    · exact kept_mk h
    · exact kept_mk h
    · exact kept_mk h
    · exact kept_mk h
    · exact kept_mk h
    · exact kept_mk h
    · exact kept_mk h
    · exact kept_mk h
    · exact h

theorem kept_rwsLoad {es : List JEntry} (h : kept s) : kept (rwsLoad s es) :=
  kept_foldl (fun _ _ ht => kept_rwsPut ht) h

theorem kept_rwsInForce (h : kept s) : kept (rwsInForce s) :=
  kept_mk h

/-! ### Shards and norms -/

theorem keptNext_execShardEntryWrite {q : KReq} {d : DomSeg} (h : kept s) : keptNext (execShardEntryWrite q d s) := by
  unfold execShardEntryWrite
  refine keptNext_done (kept_kioskDom ?_ h)
  intro _ _ _ ht
  dsimp only
  split
  · exact trivial
  · split
    · exact trivial
    · split
      · exact trivial
      · split
        · exact trivial
        · split
          · exact trivial
          · split
            · exact trivial
            · split <;> exact kept_setShard ht

theorem kept_trigTake {die plot rel thr : Nat} {c : Counter} (h : kept s) : kept (trigTake s die plot rel thr c) :=
  kept_setTrig h

theorem keptNext_execDigestTrigger {n : Nat} (h : kept s) : keptNext (execDigestTrigger n s) := by
  unfold execDigestTrigger
  dsimp only
  split
  · exact keptNext_done h
  · split
    · exact keptNext_done h
    · exact keptNext_done (kept_setShard (kept_trigTake h))

theorem kept_damaged {n a : Nat} (h : kept s) : kept (damaged s n a) :=
  kept_sendHeader (kept_plainHold (kept_emit (kept_setShard (kept_hbmUncorrected h))))

theorem keptNext_execDigestBlock {n : Nat} {x : Upset} (h : kept s) : keptNext (execDigestBlock n x s) := by
  unfold execDigestBlock
  dsimp only
  split
  · exact keptNext_done h
  · split
    · exact keptNext_done (kept_damaged (kept_hbmUpset h))
    · exact keptNext_done (kept_setShard (kept_regWrite (kept_hbmUpset h)))

theorem keptNext_execDigestComplete {n : Nat} (h : kept s) : keptNext (execDigestComplete n s) := by
  unfold execDigestComplete
  dsimp only
  split
  · exact keptNext_done h
  · exact keptNext_done (kept_compareShard (kept_modShard (kept_sendList (kept_sendHeader h))))

theorem kept_takeHeader {p : Pkt} (h : kept s) : kept (takeHeader s p) := by
  unfold takeHeader
  dsimp only
  split
  · split
    · exact kept_endRestore h
    · split
      · exact kept_endRestore h
      · exact kept_checkBlocks (kept_modShard h)
  · exact kept_twinTake h

theorem kept_takeList {p : Pkt} (h : kept s) : kept (takeList s p) := by
  unfold takeList
  dsimp only
  split
  · exact kept_checkBlocks (kept_modShard h)
  · exact kept_twinTake h

theorem kept_takeAbort {p : Pkt} (h : kept s) : kept (takeAbort s p) :=
  kept_twinTake h

theorem kept_takeRequest {p : Pkt} (h : kept s) : kept (takeRequest s p) := by
  unfold takeRequest
  dsimp only
  split
  · exact kept_serve h
  · exact kept_toTwin h

theorem kept_takeData {p : Pkt} (h : kept s) : kept (takeData s p) := by
  unfold takeData
  dsimp only
  split
  · exact kept_takeRestore h
  · exact h

theorem kept_takeRefusal {p : Pkt} (h : kept s) : kept (takeRefusal s p) := by
  unfold takeRefusal
  split
  · exact kept_endRestore h
  · exact h

theorem keptNext_execShardCommit {n : Nat} (h : kept s) : keptNext (execShardCommit n s) := by
  unfold execShardCommit
  dsimp only
  split
  · split
    · exact keptNext_done (kept_commitShard h)
    · exact keptNext_done h
  · exact keptNext_done h

theorem keptNext_execPsTwinLate {n : Nat} (h : kept s) : keptNext (execPsTwinLate n s) := by
  unfold execPsTwinLate
  dsimp only
  split
  · exact keptNext_done h
  · exact keptNext_done (kept_emit (kept_setShard h))

theorem kept_shardCommand {q : KReq} {k : Nat} (h : kept s) : kept (shardCommand s q k) := by
  unfold shardCommand
  refine kept_kioskCmd ?_ h
  intro _ _ ht
  dsimp only
  split
  · exact trivial
  · split
    · exact trivial
    · exact kept_setShard ht

theorem keptNext_execAdoptLocal {q : KReq} (h : kept s) : keptNext (execAdoptLocal q s) :=
  keptNext_done (kept_shardCommand h)

theorem keptNext_execAdoptTwin {q : KReq} (h : kept s) : keptNext (execAdoptTwin q s) :=
  keptNext_done (kept_shardCommand h)

theorem keptNext_execAbandon {q : KReq} (h : kept s) : keptNext (execAbandon q s) :=
  keptNext_done (kept_shardCommand h)

theorem keptNext_execRestore {q : KReq} (h : kept s) : keptNext (execRestore q s) :=
  keptNext_done (kept_shardCommand h)

theorem keptNext_execInvalidate {q : KReq} (h : kept s) : keptNext (execInvalidate q s) :=
  keptNext_done (kept_shardCommand h)

theorem keptNext_execCommitDegraded {q : KReq} (h : kept s) : keptNext (execCommitDegraded q s) :=
  keptNext_done (kept_shardCommand h)

theorem kept_collectPartial {ks : List (Option Nat × Nat)} (h : kept s) : kept (collectPartial s ks).1 := by
  refine List.foldlRecOn (motive := fun r : State × Partial => kept r.1) ks _ h (fun r hr k _ => ?_)
  obtain ⟨_ | i, j⟩ := k
  · exact hr
  · exact kept_modPav hr

theorem kept_writeNorm {n : Nat} {c : BitVec 512} {bits : Nat} (h : kept s) : kept (writeNorm s n c bits) := by
  unfold writeNorm
  split
  · exact kept_placeWrite h
  · exact h

theorem kept_deliverNorm {n bits : Nat} (h : kept s) : kept (deliverNorm s n bits) :=
  kept_modNorm (kept_signalRel (kept_writeNorm h))

theorem kept_finishNorm {n : Nat} (h : kept s) : kept (finishNorm s n) := by
  unfold finishNorm
  dsimp only
  split
  · exact h
  · split
    · split
      · exact kept_hbmUncorrected h
      · split
        · exact h
        · exact kept_deliverNorm (kept_foldl (fun _ _ ht => kept_sendOut ht) h)
    · split
      · exact kept_hbmUncorrected h
      · split
        · exact h
        · exact kept_deliverNorm (kept_foldl (fun _ _ ht => kept_sendOut ht) h)

theorem kept_holdPartial {n : Nat} {step : BitVec 64} {src : BitVec 24} {plot : Nat} {a : Partial} (h : kept s) :
    kept (holdPartial s n step src plot a) :=
  kept_modNorm h

theorem keptNext_execNormTrigger {t : NormIn} (h : kept s) : keptNext (execNormTrigger t s) := by
  unfold execNormTrigger
  extract_lets n x y c upset
  split
  · exact keptNext_done h
  · refine iteInduction (fun _ => keptNext_done h) fun _ => ?_
    extract_lets taken step started ks pav corrected faulted
    have hstarted : kept started := kept_modNorm (kept_trigTake (kept_hbmUpset h))
    have hcorrected : kept corrected := by
      unfold corrected
      clear_value pav
      split
      · exact kept_ite (kept_pavCorrected hstarted) hstarted
      · exact hstarted
    split
    · exact keptNext_done (kept_hbmUncorrected hstarted)
    · refine iteInduction (fun _ => keptNext_done (kept_pavFault hcorrected)) fun _ => ?_
      refine iteInduction (fun _ => keptNext_done (kept_containedHold (kept_emit (kept_modNorm (kept_writeNorm hcorrected))))) fun _ => ?_
      have hpartial : kept (collectPartial corrected ks).1 := kept_collectPartial hcorrected
      dsimp only
      split
      · exact keptNext_done (kept_finishNorm (kept_holdPartial hpartial))
      · exact keptNext_done (kept_sendOut hpartial)

theorem kept_normTake {n : Nat} {step : BitVec 64} {act : State → State} (hact : ∀ s, kept s → kept (act s)) (h : kept s) :
    kept (normTake s n step act) := by
  unfold normTake
  dsimp only
  refine iteInduction (fun _ => kept_emit (kept_modNorm h)) fun _ => ?_
  refine iteInduction (fun _ => hact s h) fun _ => ?_
  exact iteInduction (fun _ => hact s h) fun _ => kept_containedHold (kept_emit h)

theorem kept_takePartial {p : Pkt} (h : kept s) : kept (takePartial s p) := by
  unfold takePartial
  dsimp only
  split
  · exact h
  · exact kept_normTake (fun _ ht => kept_finishNorm (kept_holdPartial ht)) h

theorem kept_takeResult {p : Pkt} (h : kept s) : kept (takeResult s p) := by
  unfold takeResult
  dsimp only
  split
  · exact h
  · refine kept_normTake ?_ h
    intro _ ht
    split
    · exact kept_deliverNorm ht
    · exact ht

theorem keptNext_execNormConfigWrite {q : KReq} {d : DomSeg} (h : kept s) : keptNext (execNormConfigWrite q d s) := by
  unfold execNormConfigWrite
  refine keptNext_done (kept_kioskDom ?_ h)
  intro _ _ _ ht
  dsimp only
  split
  · exact trivial
  · split
    · exact trivial
    · split
      · exact trivial
      · split
        · exact trivial
        · split
          · exact trivial
          · exact kept_modNorm ht

theorem kept_psEffect {p : Pkt} (h : kept s) : kept (psEffect s p) := by
  unfold psEffect
  dsimp only
  split
  · exact kept_takePartial h
  · exact kept_takeResult h
  · split
    · exact kept_takeHeader h
    · exact h
  · split
    · exact kept_takeList h
    · exact h
  · split
    · exact kept_takeRequest h
    · exact h
  · split
    · exact kept_takeData h
    · exact h
  · split
    · exact kept_takeAbort h
    · exact h
  · split
    · exact kept_takeRefusal h
    · exact h
  · exact h

theorem kept_psTake {p : Pkt} (h : kept s) : kept (psTake s p) := by
  unfold psTake
  dsimp only
  split
  · exact kept_mk h
  · exact kept_psEffect (kept_mk h)

theorem kept_onPs {l : Nat} {p : Pkt} {kind : Nat} (h : kept s) : kept (onPs s l p kind) := by
  unfold onPs
  split
  · exact h
  · refine kept_onPacket ?_ h
    intro _ ht
    split
    · exact kept_freeRx (kept_psTake ht)
    · exact kept_switchPkt ht

theorem keptNext_execNormPartial {link : Nat} {p : Pkt} (h : kept s) : keptNext (execNormPartial link p s) :=
  keptNext_done (kept_onPs h)

theorem keptNext_execNormResult {link : Nat} {p : Pkt} (h : kept s) : keptNext (execNormResult link p s) :=
  keptNext_done (kept_onPs h)

theorem keptNext_execDigestHeader {link : Nat} {p : Pkt} (h : kept s) : keptNext (execDigestHeader link p s) :=
  keptNext_done (kept_onPs h)

theorem keptNext_execDigestList {link : Nat} {p : Pkt} (h : kept s) : keptNext (execDigestList link p s) :=
  keptNext_done (kept_onPs h)

theorem keptNext_execRestoreRequest {link : Nat} {p : Pkt} (h : kept s) : keptNext (execRestoreRequest link p s) :=
  keptNext_done (kept_onPs h)

theorem keptNext_execRestoreData {link : Nat} {p : Pkt} (h : kept s) : keptNext (execRestoreData link p s) :=
  keptNext_done (kept_onPs h)

theorem keptNext_execAbortNotice {link : Nat} {p : Pkt} (h : kept s) : keptNext (execAbortNotice link p s) :=
  keptNext_done (kept_onPs h)

theorem keptNext_execRestoreRefusal {link : Nat} {p : Pkt} (h : kept s) : keptNext (execRestoreRefusal link p s) :=
  keptNext_done (kept_onPs h)

theorem kept_provMsg {link : Nat} {p : Pkt} {confirmed : Bool} {cycle : BitVec 16} (h : kept s) :
    kept (provMsg s link p confirmed cycle) := by
  unfold provMsg
  dsimp only
  split
  · exact kept_switchPkt h
  · split
    · exact kept_freeRx (kept_ite (kept_psEffect (kept_mk h)) (kept_mk h))
    · exact kept_freeRx (kept_dropSeg h)
    · exact kept_freeRx (kept_settleProv h)

theorem keptNext_execConfirm {link : Nat} {p : Pkt} {cycle : BitVec 16} (h : kept s) : keptNext (execConfirm link p cycle s) :=
  keptNext_done (kept_onPacket (fun _ ht => kept_provMsg ht) h)

theorem keptNext_execRetract {link : Nat} {p : Pkt} (h : kept s) : keptNext (execRetract link p s) :=
  keptNext_done (kept_onPacket (fun _ ht => kept_provMsg ht) h)

theorem keptNext_execStepCounterWrite {q : KReq} {n : Nat} {v : BitVec 64} (h : kept s) : keptNext (execStepCounterWrite q n v s) := by
  unfold execStepCounterWrite
  refine keptNext_done (kept_kioskCmd ?_ h)
  intro _ _ ht
  split
  · exact trivial
  · exact kept_modPlot ht

/-! ### The loader -/

theorem keptNext_execLoad {q : KReq} {n : Nat} (h : kept s) : keptNext (execLoad q n s) := by
  unfold execLoad
  refine keptNext_done (kept_kioskCmd ?_ h)
  intro _ _ ht
  split
  · exact trivial
  · exact kept_modPlot ht

theorem kept_refuseLoad {n : Nat} {r : VRes} {back : Nat} (h : kept s) : kept (refuseLoad s n r back) :=
  kept_emit (kept_modPlot h)

theorem keptNext_execVerificationComplete {n : Nat} (h : kept s) : keptNext (execVerificationComplete n s) := by
  unfold execVerificationComplete
  dsimp only
  split
  · exact keptNext_done h
  · split
    · exact keptNext_done (kept_refuseLoad h)
    · exact keptNext_done (kept_modPlot (kept_loadShadow h))

theorem keptNext_execActivate {q : KReq} {n : Nat} (h : kept s) : keptNext (execActivate q n s) := by
  unfold execActivate
  refine keptNext_done (kept_kioskReq ?_ h)
  intro _ _ ht
  dsimp only
  split
  · exact kept_refuse ht
  · split
    · exact kept_refuse ht
    · split
      · exact kept_refuse ht
      · split
        · exact kept_refuse ht
        · split
          · exact kept_refuse (kept_refuseLoad ht)
          · exact kept_accept (kept_modPlot ht)

theorem kept_activateNow {n : Nat} (h : kept s) : kept (activateNow s n) := by
  unfold activateNow
  dsimp only
  split
  · split
    · exact kept_activate h
    · exact h
  · exact h

theorem kept_lapseNow {n : Nat} (h : kept s) : kept (lapseNow s n) := by
  unfold lapseNow
  dsimp only
  split
  · exact kept_emit (kept_modPlot h)
  · exact h

theorem keptNext_execActivation {n : Nat} (h : kept s) : keptNext (execActivation n s) :=
  keptNext_done (kept_activateNow h)

theorem keptNext_execLoadBlocked {n : Nat} (h : kept s) : keptNext (execLoadBlocked n s) :=
  keptNext_done (kept_lapseNow h)

theorem keptNext_execCancel {q : KReq} {n : Nat} (h : kept s) : keptNext (execCancel q n s) := by
  unfold execCancel
  refine keptNext_done (kept_kioskCmd ?_ h)
  intro _ _ ht
  dsimp only
  split
  · exact trivial
  · exact kept_modPlot ht
  · exact kept_modPlot (kept_clearShadow ht)
  · exact trivial

theorem keptOk_bankWrite {x : Session} {bs : List Byte} (h : kept s) : keptOk (bankWrite s x bs) := by
  unfold bankWrite
  dsimp only
  split
  · exact trivial
  · split
    · split
      · exact trivial
      · split
        · exact kept_modEng h
        · exact kept_modPlot (kept_modEng h)
    · split
      · exact trivial
      · split
        · exact kept_modEng h
        · exact kept_modPlot (kept_modEng h)

theorem kept_execBankWrite_bankSeg {q : KReq} {d : DomSeg} {u : EngRef} (h : kept s) : kept (execBankWrite.bankSeg s q d u) := by
  refine kept_domSegment (fun t bs ht => ?_) h
  dsimp only
  split
  · exact kept_refuse ht
  · split
    · next hw => exact kept_accept (kept_bumpChange (kept_of_ok hw (keptOk_bankWrite ht)))
    · exact kept_refuse ht

theorem keptNext_execBankWrite {q : KReq} {d : DomSeg} (h : kept s) : keptNext (execBankWrite q d s) := by
  unfold execBankWrite
  refine keptNext_done (kept_kioskReq ?_ h)
  intro _ _ ht
  dsimp only
  split
  · split
    · exact kept_refuse (kept_emit ht)
    · exact kept_execBankWrite_bankSeg ht
  · exact kept_execBankWrite_bankSeg ht

theorem kept_selftestMapped {q : KReq} (h : kept s) : kept (selftestMapped s q) :=
  kept_refuse (kept_mk h)

theorem keptNext_execSelftestPavilion {q : KReq} (h : kept s) : keptNext (execSelftestPavilion q s) := by
  unfold execSelftestPavilion
  refine keptNext_done (kept_kioskReq ?_ h)
  intro _ _ ht
  dsimp only
  split
  · exact kept_refuse ht
  · split
    · exact kept_refuse ht
    · split
      · exact kept_selftestMapped ht
      · exact kept_accept (kept_modPav ht (fun _ hv => keptPav_mk hv))

theorem keptNext_execSelftestPortDie {q : KReq} (h : kept s) : keptNext (execSelftestPortDie q s) := by
  unfold execSelftestPortDie
  refine keptNext_done (kept_kioskReq ?_ h)
  intro _ _ ht
  dsimp only
  split
  · exact kept_refuse ht
  · split
    · exact kept_selftestMapped ht
    · exact kept_accept (kept_modDie ht)

theorem kept_testDone {src : Src} {pass : Bool} (h : kept s) : kept (testDone s src pass) :=
  kept_emit (kept_mk h)

theorem keptNext_execSelftestDone {t : TestUnit} {pass : Bool} (h : kept s) : keptNext (execSelftestDone t pass s) := by
  unfold execSelftestDone
  dsimp only
  split
  · split
    · exact keptNext_done h
    · exact keptNext_done (kept_testDone (kept_ite (kept_modPav h (fun _ hv => keptPav_mk hv)) (kept_mk (kept_modPav h
        (fun _ hv => keptPav_mk hv)))))
  · split
    · exact keptNext_done h
    · exact keptNext_done (kept_testDone (kept_modDie h))

theorem keptNext_execEngineResume {q : KReq} {k : BitVec 16} (h : kept s) : keptNext (execEngineResume q k s) := by
  unfold execEngineResume
  refine keptNext_done (kept_kioskCmd ?_ h)
  intro _ _ ht
  dsimp only
  split
  · exact trivial
  · split
    · exact trivial
    · split
      · exact kept_moved (kept_modEng ht)
      · exact kept_modEng ht

/-! ### Counters and engines -/

theorem keptNext_execCounterAdjust {q : KReq} {v : BitVec 32} (h : kept s) : keptNext (execCounterAdjust q v s) := by
  unfold execCounterAdjust
  refine keptNext_done (kept_kioskCmd ?_ h)
  intro _ _ ht
  dsimp only
  split
  · exact trivial
  · split
    · exact trivial
    · split
      · exact trivial
      · split
        · exact kept_setCtr ht
        · split
          · exact kept_setCtr ht
          · exact kept_ctrClamped (kept_modPav (kept_setCtr ht) (fun _ hv => keptPav_mk hv))

theorem keptNext_execCounterFlagClear {q : KReq} {v : BitVec 8} (h : kept s) : keptNext (execCounterFlagClear q v s) := by
  unfold execCounterFlagClear
  refine keptNext_done (kept_kioskCmd ?_ h)
  intro _ _ ht
  dsimp only
  split
  · exact trivial
  · split
    · exact trivial
    · exact kept_setCtr ht

theorem keptNext_execWaitCycle {n : Nat} (h : kept s) : keptNext (execWaitCycle n s) := by
  unfold execWaitCycle
  dsimp only
  split
  · exact keptNext_done h
  · exact keptNext_done (kept_plainHold (kept_modPlot (kept_emit h)))

theorem keptNext_execPlotResetComplete {n : Nat} (h : kept s) : keptNext (execPlotResetComplete n s) := by
  unfold execPlotResetComplete
  dsimp only
  split
  · exact keptNext_done (kept_emit (kept_resetPlotDone h))
  · exact keptNext_done h

theorem keptNext_execQuarterPowerUp {core quarter : Nat} (h : kept s) : keptNext (execQuarterPowerUp core quarter s) := by
  unfold execQuarterPowerUp
  dsimp only
  split
  · exact keptNext_done (kept_mk h)
  · exact keptNext_done h

theorem kept_poolForeign {n : Nat} (h : kept s) : kept (poolForeign s n) :=
  kept_containedHold (kept_emit (kept_mk h))

theorem kept_answerPool {r : PoolReq} {st : U16} {h : U32} (hs : kept s) : kept (answerPool s r st h) :=
  kept_mk hs

theorem kept_hubFault {id : Nat} (h : kept s) : kept (hubFault s id) :=
  kept_uncontained (kept_emit h)

theorem keptNext_execPoolAlloc {r : PoolReq} {pool : Nat} (h : kept s) : keptNext (execPoolAlloc r pool s) := by
  unfold execPoolAlloc
  dsimp only
  split
  · exact keptNext_done (kept_hubFault h)
  · split
    · exact keptNext_done (kept_answerPool (kept_poolForeign h))
    · exact keptNext_done (kept_answerPool (kept_poolAlloc h))

theorem keptNext_execPoolAcquire {r : PoolReq} {h : BitVec 32} (hs : kept s) : keptNext (execPoolAcquire r h s) := by
  unfold execPoolAcquire
  dsimp only
  split
  · exact keptNext_done (kept_hubFault hs)
  · split
    · exact keptNext_done (kept_answerPool (kept_poolForeign hs))
    · exact keptNext_done (kept_answerPool (kept_poolAcquire hs))

theorem keptNext_execPoolRelease {r : PoolReq} {h : BitVec 32} (hs : kept s) : keptNext (execPoolRelease r h s) := by
  unfold execPoolRelease
  dsimp only
  split
  · exact keptNext_done (kept_hubFault hs)
  · split
    · exact keptNext_done (kept_answerPool (kept_poolForeign hs))
    · exact keptNext_done (kept_answerPool (kept_poolRelease hs))

theorem kept_bufferCmd {q : KReq} {b : BitVec 32} {f : State → State × U16} (hf : ∀ s, kept s → kept (f s).1) (h : kept s) :
    kept (bufferCmd s q b f) := by
  refine kept_kioskReq (fun t x ht => ?_) h
  exact iteInduction (fun _ => kept_refuse ht) fun _ => kept_respond (hf t ht)

theorem keptNext_execBufferAcquire {q : KReq} {h : BitVec 32} (hs : kept s) : keptNext (execBufferAcquire q h s) :=
  keptNext_done (kept_bufferCmd (fun _ ht => kept_poolAcquire ht) hs)

theorem keptNext_execBufferRelease {q : KReq} {h : BitVec 32} (hs : kept s) : keptNext (execBufferRelease q h s) :=
  keptNext_done (kept_bufferCmd (fun _ ht => kept_poolRelease ht) hs)

end Sys2Proof.Machine
end

section
/-! PROOF. The invariant is kept by plot commands, sessions, writes, start-up, HBM upkeep, moves and the tick, and so by every command. -/

namespace Sys2Proof.Machine
open Sys2Proof.Safety

variable {s : State}

/-! ### Plots -/

theorem kept_powerQuarters (h : kept s) : kept (powerQuarters s) := by
  unfold powerQuarters
  refine kept_foldl (fun _ _ ht => ?_) h
  split
  · split
    · exact ht
    · exact kept_mk ht
  · exact kept_mk ht

theorem kept_setPavMask {n : Nat} {v : BitVec 256} (h : kept s) : kept (setPavMask s n v) :=
  kept_powerQuarters (kept_modPlot (kept_foldl (fun _ _ ht => kept_resetPav ht) h))

theorem keptNext_execPavilionMaskWrite {q : KReq} {n : Nat} {v : BitVec 256} (h : kept s) : keptNext (execPavilionMaskWrite q n v s) := by
  unfold execPavilionMaskWrite
  refine keptNext_done (kept_kioskCmd ?_ h)
  intro _ _ ht
  split
  · exact trivial
  · exact kept_setPavMask ht

theorem keptNext_execPortMaskWrite {q : KReq} {n : Nat} {v : BitVec 64} (h : kept s) : keptNext (execPortMaskWrite q n v s) := by
  unfold execPortMaskWrite
  refine keptNext_done (kept_kioskCmd ?_ h)
  intro _ _ ht
  dsimp only
  split
  · exact trivial
  · split
    · exact trivial
    · split
      · exact trivial
      · exact kept_modPlot ht

theorem kept_plotCommand {q : KReq} {n : Nat} {c : PlotCmd} {allowed : State → Bool} (h : kept s) : kept (plotCommand s q n c allowed) := by
  refine kept_kioskCmd (fun t _ ht => ?_) h
  dsimp only
  split
  · trivial
  · split
    · trivial
    · exact kept_modPlot ht

theorem keptNext_execPlotStart {q : KReq} {n : Nat} (h : kept s) : keptNext (execPlotStart q n s) :=
  keptNext_done (kept_plotCommand h)

theorem keptNext_execSuspend {q : KReq} {n : Nat} (h : kept s) : keptNext (execSuspend q n s) :=
  keptNext_done (kept_plotCommand h)

theorem keptNext_execPlotResume {q : KReq} {n : Nat} (h : kept s) : keptNext (execPlotResume q n s) :=
  keptNext_done (kept_plotCommand h)

theorem keptNext_execPlotReset {q : KReq} {n : Nat} (h : kept s) : keptNext (execPlotReset q n s) :=
  keptNext_done (kept_plotCommand h)

theorem keptNext_execReleaseHold {q : KReq} {n : Nat} (h : kept s) : keptNext (execReleaseHold q n s) :=
  keptNext_done (kept_plotCommand h)

theorem keptNext_execJobSeedWrite {q : KReq} {n : Nat} {d : DomSeg} (h : kept s) : keptNext (execJobSeedWrite q n d s) := by
  unfold execJobSeedWrite
  refine keptNext_done (kept_kioskDom ?_ h)
  intro _ _ _ ht
  split
  · exact trivial
  · split
    · exact trivial
    · exact kept_modPlot ht

theorem keptNext_execEnergyBudgetWrite {q : KReq} {n : Nat} {v : BitVec 32} (h : kept s) : keptNext (execEnergyBudgetWrite q n v s) := by
  unfold execEnergyBudgetWrite
  refine keptNext_done (kept_kioskCmd ?_ h)
  intro _ _ ht
  split
  · exact trivial
  · split
    · exact trivial
    · exact kept_modPlot ht

theorem keptNext_execZeroise {q : KReq} {v : BitVec 8} (h : kept s) : keptNext (execZeroise q v s) := by
  unfold execZeroise
  refine keptNext_done (kept_kioskReq ?_ h)
  intro _ _ ht
  dsimp only
  split
  · exact kept_refuse ht
  · exact kept_mk ht

theorem zeroPlotSpace_wf {m : Hbm} (hm : Memory.wf m.mem = true) : Memory.wf (zeroPlotSpace m).mem = true :=
  memFilter_wf _ hm

/-- Every byte store but the reserved region of HBM loses its contents. -/
theorem kept_zeroed {gate kiosk} (h : kept s) : kept { s with
    pavs := s.pavs.map (fun e => (e.1, { e.2 with sram := [], badWords := [] }))
    coll := { s.coll with dies := s.coll.dies.map (fun e => (e.1, { e.2 with mem := [], badWords := [] })) }
    hbm := zeroPlotSpace s.hbm
    gate := gate
    kiosk := kiosk } := by
  obtain ⟨hhbm, hpavs, _⟩ := kept_iff.1 h
  refine kept_iff.2 ⟨zeroPlotSpace_wf hhbm, fun e he => ?_, fun e he => ?_⟩
  · obtain ⟨e', he', rfl⟩ := List.mem_map.1 he
    exact ⟨rfl, (hpavs e' he').2⟩
  · obtain ⟨e', _, rfl⟩ := List.mem_map.1 he
    exact rfl

theorem kept_zeroiseAll (h : kept s) : kept (zeroiseAll s) := by
  have hreset : kept (allPlots.foldl resetPlotT s) := kept_foldl (fun _ _ ht => kept_resetPlotT ht) h
  exact kept_mk (kept_emit (kept_zeroed (kept_foldl (fun _ _ ht => kept_linkDown ht) (kept_mk hreset))))

theorem keptNext_execAttestationRequest {q : KReq} {d : DomSeg} (h : kept s) : keptNext (execAttestationRequest q d s) := by
  unfold execAttestationRequest
  refine keptNext_done (kept_kioskDom ?_ h)
  intro _ _ _ ht
  dsimp only
  split
  · exact trivial
  · exact kept_mk ht

theorem keptNext_execAttestationReportReady (h : kept s) : keptNext (execAttestationReportReady s) := by
  unfold execAttestationReportReady
  dsimp only
  split
  · split
    · exact keptNext_done (kept_bumpChange (kept_mk h))
    · exact keptNext_done h
  · exact keptNext_done h

theorem keptNext_execEntropyFail (h : kept s) : keptNext (execEntropyFail s) := by
  unfold execEntropyFail
  dsimp only
  split
  · exact keptNext_done h
  · exact keptNext_done (kept_emit (kept_mk h))

theorem keptNext_execLockstepFail (h : kept s) : keptNext (execLockstepFail s) :=
  keptNext_done (kept_uncontained (kept_emit h))

/-! ### Sessions -/

theorem kept_refuseOpen {q : KReq} {st : U16} (h : kept s) : kept (refuseOpen s q st) :=
  kept_mk (kept_countRefusal h)

theorem kept_openSlot {k : Nat} {x : Session} (h : kept s) : kept (openSlot s k x) :=
  kept_setSess (kept_mk h)

theorem keptNext_execOpenSession {q : KReq} {t : Transport} {link : Nat} {c : ChainVerdict} (h : kept s) :
    keptNext (execOpenSession q t link c s) := by
  unfold execOpenSession
  dsimp only
  split
  · exact keptNext_done h
  · split
    · exact keptNext_done (kept_refuseOpen h)
    · split
      · exact keptNext_done (kept_refuseOpen h)
      · split
        · exact keptNext_done (kept_refuseOpen h)
        · split
          · exact keptNext_done (kept_refuseOpen (kept_emit h))
          · split
            · split
              · exact keptNext_done (kept_refuseOpen h)
              · split
                · exact keptNext_done (kept_refuseOpen h)
                · exact keptNext_done (kept_respond (kept_openSlot (kept_mk h)))
            · split
              · exact keptNext_done (kept_refuseOpen h)
              · exact keptNext_done (kept_respond (kept_openSlot h))

theorem keptNext_execAuth {q : KReq} {c : ChainVerdict} (h : kept s) : keptNext (execAuth q c s) := by
  unfold execAuth
  dsimp only
  split
  · exact keptNext_done (kept_refuse h)
  · split
    · exact keptNext_done (kept_discardReq h)
    · split
      · exact keptNext_done (kept_refuse h)
      · split
        · exact keptNext_done (kept_refuse h)
        · split
          · exact keptNext_done (kept_refuse h)
          · split
            · exact keptNext_done (kept_refuse h)
            · exact keptNext_done (kept_accept (kept_modSess h))

theorem keptNext_execAuthTimeout {slot : Nat} (h : kept s) : keptNext (execAuthTimeout slot s) := by
  unfold execAuthTimeout
  dsimp only
  split
  · exact keptNext_done (kept_closeSlot h)
  · exact keptNext_done h

theorem kept_sessionReq {q : KReq} {act : State → Session → State} (hact : ∀ s x, kept s → kept (act s x)) (h : kept s) :
    kept (sessionReq s q act) := by
  unfold sessionReq
  split
  · refine iteInduction (fun _ => kept_refuse (kept_heardReq h)) fun _ => ?_
    exact iteInduction (fun _ => kept_refuse (kept_heardReq h)) fun _ => hact _ _ (kept_heardReq h)
  · exact kept_refuse h
  · exact kept_discardReq h

theorem keptNext_execClose {q : KReq} (h : kept s) : keptNext (execClose q s) :=
  keptNext_done (kept_sessionReq (fun _ _ ht => kept_closeSlot (kept_accept ht)) h)

theorem keptNext_execSessionTimeout {slot : Nat} (h : kept s) : keptNext (execSessionTimeout slot s) := by
  unfold execSessionTimeout
  split
  · exact keptNext_done (kept_closeSlot h)
  · exact keptNext_done h

theorem keptNext_execCloseSession {q : KReq} {v : BitVec 8} (h : kept s) : keptNext (execCloseSession q v s) := by
  unfold execCloseSession
  refine keptNext_done (kept_kioskReq ?_ h)
  intro _ _ ht
  split
  · exact kept_refuse ht
  · split
    · exact kept_refuse ht
    · exact kept_closeSlot (kept_accept ht)

theorem keptNext_execTlsConnectionEnd {slot : Nat} (h : kept s) : keptNext (execTlsConnectionEnd slot s) := by
  unfold execTlsConnectionEnd
  dsimp only
  split
  · exact keptNext_done (kept_closeSlot h)
  · exact keptNext_done h

theorem keptNext_execSubscribe {q : KReq} {index : BitVec 16} {sub : BitVec 8} {period : BitVec 32} (h : kept s) :
    keptNext (execSubscribe q index sub period s) := by
  unfold execSubscribe
  refine keptNext_done (kept_sessionReq ?_ h)
  intro _ _ ht
  dsimp only
  split
  · exact kept_refuse ht
  · split
    · exact kept_refuse ht
    · split
      · exact kept_refuse ht
      · exact kept_accept (kept_modSess ht)

theorem keptNext_execUnsubscribe {q : KReq} {index : BitVec 16} {sub : BitVec 8} (h : kept s) :
    keptNext (execUnsubscribe q index sub s) := by
  unfold execUnsubscribe
  refine keptNext_done (kept_sessionReq ?_ h)
  intro _ _ ht
  split
  · exact kept_accept (kept_modSess ht)
  · exact kept_refuse ht

theorem keptNext_execNotify {slot : Nat} {index : BitVec 16} {sub : BitVec 8} (h : kept s) : keptNext (execNotify slot index sub s) := by
  unfold execNotify
  dsimp only
  split
  · exact keptNext_done h
  · split
    · exact keptNext_done (kept_setSess h)
    · exact keptNext_done h

theorem keptNext_execRingRead {q : KReq} {cls offset len : Nat} (h : kept s) : keptNext (execRingRead q cls offset len s) := by
  unfold execRingRead
  dsimp only
  split
  · exact keptNext_done (kept_refuse h)
  · exact keptNext_done (kept_discardReq h)
  · split
    · exact keptNext_done (kept_refuse (kept_heardReq h))
    · exact keptNext_done (kept_sendMsg (kept_mk (kept_heardReq h)))

theorem keptNext_execTelemetryExport {link : Option Nat} (h : kept s) : keptNext (execTelemetryExport link s) := by
  unfold execTelemetryExport
  dsimp only
  split
  · exact keptNext_done h
  · split
    · exact keptNext_done h
    · exact keptNext_done (kept_sendOut (kept_mk h))

theorem keptNext_execIncidentEnd {plot : Option Nat} (h : kept s) : keptNext (execIncidentEnd plot s) := by
  unfold execIncidentEnd
  dsimp only
  split
  · exact keptNext_done h
  · split
    · exact keptNext_done (kept_mk h)
    · exact keptNext_done h

theorem kept_answerPend {p : JPend} {st : U16} (h : kept s) : kept (answerPend s p st) := by
  unfold answerPend
  split
  · split
    · exact kept_respond h
    · exact h
  · exact h

theorem kept_failPend {p : JPend} {set : List JEntry} (h : kept s) : kept (failPend s p set) :=
  kept_answerPend (kept_emit (kept_mk h))

theorem kept_commitPend {p : JPend} (h : kept s) : kept (commitPend s p) := by
  unfold commitPend
  dsimp only
  split
  · exact kept_answerPend (kept_zeroiseAll (kept_mk h))
  · exact kept_answerPend (kept_mk h)
  · exact kept_answerPend (kept_ite (kept_bumpChange (kept_mk (kept_rwsPut h))) (kept_mk (kept_rwsPut h)))
  · exact h

theorem keptNext_execSnapshot {o : FlashObs} (h : kept s) : keptNext (execSnapshot o s) := by
  unfold execSnapshot
  dsimp only
  split
  · exact keptNext_done h
  · split
    · exact keptNext_done (kept_commitPend (kept_mk h))
    · exact keptNext_done (kept_failPend (kept_mk h))

/-! ### Writes of objects -/

theorem kept_selWrite {q : KReq} {index sub : Nat} {check : State → Session → Option U16} {f : Session → Session} (h : kept s) :
    kept (selWrite s q index sub check f) := by
  refine kept_kioskCmd (fun t x ht => ?_) h
  split
  · trivial
  · exact kept_modSess ht

theorem kept_rwWrite {q : KReq} {index sub : Nat} {check : State → Session → Option U16} {f : State → Session → State}
    (hf : ∀ s x, kept s → kept (f s x)) (h : kept s) : kept (rwWrite s q index sub check f) := by
  refine kept_kioskCmd (fun t x ht => ?_) h
  split
  · trivial
  · exact hf t x ht

theorem kept_domRws {q : KReq} {index sub limit : Nat} {d : DomSeg} (h : kept s) : kept (domRws s q index sub limit d) :=
  kept_kioskReq (fun _ _ ht => kept_domSegment (fun _ _ ht => kept_journalWrite ht) ht) h

theorem kept_write11 {q : KReq} {sub : Nat} {d : DomSeg} {v : Nat} (h : kept s) : kept (write11 s q sub d v) := by
  unfold write11
  split
  · exact kept_selWrite h
  · exact kept_kioskRws h
  · exact kept_domRws h
  · exact kept_domRws h

theorem kept_endExcursion (h : kept s) : kept (endExcursion s) := by
  unfold endExcursion
  dsimp only
  split
  · exact kept_emit (kept_mk h)
  · exact h

theorem kept_sundialRole (h : kept s) : kept (sundialRole s) := by
  unfold sundialRole
  dsimp only
  split
  · exact kept_mk (kept_endExcursion h)
  · split
    · split
      · exact kept_mk h
      · exact h
    · exact kept_mk (kept_endExcursion h)

theorem kept_write12 {q : KReq} {sub v : Nat} (h : kept s) : kept (write12 s q sub v) := by
  unfold write12
  dsimp only
  split <;> exact kept_rwWrite (fun _ _ ht => kept_sundialRole (kept_mk ht)) h

theorem kept_write20 {q : KReq} {sub v : Nat} (h : kept s) : kept (write20 s q sub v) := by
  unfold write20
  split <;> exact kept_kioskRws h

theorem kept_write30 {q : KReq} {index sub v : Nat} (h : kept s) : kept (write30 s q index sub v) := by
  unfold write30
  split
  · exact kept_kioskRws h
  · exact kept_kioskRws h
  · exact kept_kioskRws h
  · exact kept_kioskReq (fun _ _ ht => kept_refuse ht) h

theorem kept_write31 {q : KReq} {sub v : Nat} (h : kept s) : kept (write31 s q sub v) :=
  kept_kioskRws h

theorem kept_write3x {q : KReq} {index sub v : Nat} (h : kept s) : kept (write3x s q index sub v) := by
  unfold write3x
  dsimp only
  split
  · exact kept_selWrite h
  · exact kept_kioskRws h
  · exact kept_kioskRws h
  · exact kept_rwWrite (fun _ _ ht => kept_mk ht) h
  · exact kept_selWrite h
  · exact kept_rwWrite (fun _ _ ht => kept_mk ht) h
  · exact kept_rwWrite (fun _ _ ht => kept_mk ht) h
  · exact kept_rwWrite (fun _ _ ht => kept_mk ht) h
  · exact kept_selWrite h
  · exact kept_selWrite h

theorem kept_write40 {q : KReq} {n sub : Nat} {d : DomSeg} (h : kept s) : kept (write40 s q n sub d) := by
  unfold write40
  split
  · exact kept_kioskDom (fun _ _ _ ht => kept_modPlot ht) h
  · exact kept_kioskReq (fun _ _ ht => kept_refuse ht) h
  · exact kept_kioskReq (fun _ _ ht => kept_refuse ht) h

theorem kept_write50 {q : KReq} {sub v : Nat} (h : kept s) : kept (write50 s q sub v) := by
  unfold write50
  split
  · exact kept_selWrite h
  · exact kept_rwWrite (fun _ _ ht => kept_modEng ht) h
  · exact kept_rwWrite (fun _ _ ht => kept_modEng ht) h
  · exact kept_rwWrite (fun _ _ ht => kept_modEng ht) h
  · exact kept_selWrite h
  · exact kept_kioskReq (fun _ _ ht => kept_refuse ht) h

theorem kept_write58 {q : KReq} {sub v : Nat} (h : kept s) : kept (write58 s q sub v) := by
  unfold write58
  dsimp only
  split
  · exact kept_selWrite h
  · exact kept_rwWrite (fun _ _ ht => kept_mk ht) h
  · exact kept_selWrite h
  · exact kept_selWrite h

theorem kept_write59 {q : KReq} {sub : Nat} {d : DomSeg} {v : Nat} (h : kept s) : kept (write59 s q sub d v) := by
  unfold write59
  dsimp only
  split
  · exact kept_kioskRws h
  · refine kept_kioskDom ?_ h
    intro _ _ _ ht
    split
    · exact kept_mk ht
    · exact trivial
  · exact kept_kioskRws h

theorem kept_write60 {q : KReq} {index sub v : Nat} (h : kept s) : kept (write60 s q index sub v) := by
  unfold write60
  split
  · exact kept_selWrite h
  · exact kept_selWrite h
  · exact kept_selWrite h
  · exact kept_selWrite h
  · exact kept_kioskReq (fun _ _ ht => kept_refuse ht) h

theorem kept_write70 {q : KReq} {sub : Nat} {d : DomSeg} {v : Nat} (h : kept s) : kept (write70 s q sub d v) := by
  unfold write70
  dsimp only
  split
  · exact kept_domRws h
  · exact kept_rwWrite (fun _ _ ht => kept_mk ht) h

theorem kept_write80 {q : KReq} {index sub v : Nat} (h : kept s) : kept (write80 s q index sub v) := by
  unfold write80
  split
  · exact kept_kioskRws h
  · exact kept_kioskRws h
  · exact kept_selWrite h
  · exact kept_selWrite h
  · exact kept_kioskRws h
  · exact kept_kioskRws h
  · exact kept_selWrite h
  · exact kept_kioskReq (fun _ _ ht => kept_refuse ht) h

theorem kept_writeNamed {q : KReq} {index sub : Nat} {d : DomSeg} (h : kept s) : kept (writeNamed s q index sub d) :=
  iteInduction (fun _ => kept_write11 h) fun _ => iteInduction (fun _ => kept_write12 h) fun _ =>
  iteInduction (fun _ => kept_write20 h) fun _ => iteInduction (fun _ => kept_write30 h) fun _ =>
  iteInduction (fun _ => kept_write31 h) fun _ => iteInduction (fun _ => kept_write3x h) fun _ =>
  iteInduction (fun _ => kept_write40 h) fun _ => iteInduction (fun _ => kept_write50 h) fun _ =>
  iteInduction (fun _ => kept_write58 h) fun _ => iteInduction (fun _ => kept_write59 h) fun _ =>
  iteInduction (fun _ => kept_write60 h) fun _ => iteInduction (fun _ => kept_write70 h) fun _ => kept_write80 h

theorem keptNext_execObjectWrite {q : KReq} {index : BitVec 16} {sub : BitVec 8} {command : Bool} {d : DomSeg} (h : kept s) :
    keptNext (execObjectWrite q index sub command d s) := by
  unfold execObjectWrite
  dsimp only
  split
  · split
    · exact keptNext_done h
    · split
      · exact keptNext_done (kept_writeNamed h)
      · exact keptNext_done (kept_kioskReq (fun _ _ ht => ht) h)
  · split
    · exact keptNext_done h
    · split
      · exact keptNext_done (kept_writeNamed h)
      · exact keptNext_done (kept_kioskReq (fun _ _ ht => ht) h)

/-! ### Power, start-up and resets -/

theorem kept_unpowered : kept (unpowered s) := kept_mk (s := State.reset) kept_reset

theorem kept_stopStart {st : U16} (h : kept s) : kept (stopStart s st) :=
  kept_mk (kept_emit (kept_mk h))

theorem kept_step3 {env : StartEnv} (h : kept s) : kept (step3 s env) := by
  unfold step3
  dsimp only
  split
  · exact kept_stopStart (kept_emit (kept_mk h))
  · exact kept_foldl (fun _ _ ht => kept_modDie ht) h

theorem kept_step4 {env : StartEnv} (h : kept s) : kept (step4 s env) := by
  unfold step4
  dsimp only
  split
  · exact kept_mk h
  · split
    · exact kept_mk (kept_emit (kept_mk h))
    · exact kept_stopStart (kept_emit (kept_emit (kept_mk h)))

theorem kept_loadJournal (h : kept s) : kept (loadJournal s) := by
  unfold loadJournal
  dsimp only
  split
  · exact kept_emit (kept_mk h)
  · split
    · exact kept_mk (kept_rwsLoad h)
    · exact kept_emit (kept_mk (kept_rwsLoad h))

theorem kept_completeZeroise {env : StartEnv} (h : kept s) : kept (completeZeroise s env) := by
  unfold completeZeroise
  dsimp only
  split
  · split
    · exact kept_mk (kept_emit (kept_mk h))
    · exact h
  · exact h

theorem kept_step5 {env : StartEnv} {cold : Bool} (h : kept s) : kept (step5 s env cold) := by
  unfold step5
  split
  · exact kept_stopStart h
  · split
    · exact kept_rwsInForce (kept_completeZeroise (kept_loadJournal h))
    · exact h

theorem kept_step6 {env : StartEnv} (h : kept s) : kept (step6 s env) := by
  unfold step6
  dsimp only
  split
  · exact kept_stopStart (kept_foldl (fun _ _ ht => kept_spareLanes ht) (kept_foldl (fun _ _ ht => kept_modDie ht) (kept_mk h)))
  · exact kept_foldl (fun _ _ ht => kept_spareLanes ht) (kept_foldl (fun _ _ ht => kept_modDie ht) (kept_mk h))

theorem kept_step7 {env : StartEnv} (h : kept s) : kept (step7 s env) := by
  have htrained : kept ((List.range 8).foldl (fun s k => modStack s k (fun t =>
      { t with state := if env.badStacks.contains k then 2 else 1 })) s) := kept_foldl (fun _ _ ht => kept_modStack ht) h
  exact kept_hbm (zeroPlotSpace_wf (kept_iff.1 htrained).1) htrained

theorem kept_startFail {l : Nat} {cause : U16} (h : kept s) : kept (startFail s l cause) :=
  kept_modLink (kept_trainFail h)

theorem kept_startLink {g : StartLink} (h : kept s) : kept (startLink s g) := by
  unfold startLink
  dsimp only
  split
  · exact h
  · split
    · rename_i heq
      exact kept_startFail (kept_of_eq heq (kept_laneCheck h))
    · rename_i heq
      split
      · exact kept_linkActive (kept_modLink (kept_mk (kept_of_eq heq (kept_laneCheck h))))
      · exact kept_startFail (kept_mk (kept_of_eq heq (kept_laneCheck h)))

theorem kept_step8 {env : StartEnv} (h : kept s) : kept (step8 s env) := by
  unfold step8
  refine kept_foldl (fun _ _ ht => kept_startLink ht) (kept_foldl (fun _ _ ht => ?_) h)
  split
  · exact ht
  · exact kept_modLink ht

theorem kept_step9 {env : StartEnv} (h : kept s) : kept (step9 s env) := by
  unfold step9
  dsimp only
  split <;> exact kept_mk h

theorem kept_bootSnapshot {ok : Bool} (h : kept s) : kept (bootSnapshot s ok) := by
  unfold bootSnapshot
  dsimp only
  split
  · exact kept_mk h
  · exact kept_emit (kept_mk h)

theorem kept_bootRecord {ok : Bool} (h : kept s) : kept (bootRecord s ok) :=
  kept_mk h

theorem kept_commitBoot {env : StartEnv} (h : kept s) : kept (commitBoot s env).1 := by
  unfold commitBoot
  dsimp only
  split
  · exact kept_bootSnapshot (kept_bootRecord (kept_mk h))
  · split
    · exact kept_bootRecord (kept_mk (kept_bootSnapshot (kept_mk h)))
    · exact kept_bootSnapshot (kept_mk h)

theorem kept_kioskUp {env : StartEnv} {kind : Option Nat} (h : kept s) : kept (kioskUp s env kind) := by
  unfold kioskUp
  dsimp only
  split
  · exact kept_emit (kept_ite (kept_mk (kept_ite (kept_emit (kept_mk (kept_emit (kept_mk h)))) (kept_emit (kept_mk h)))) (kept_ite
      (kept_emit (kept_mk (kept_emit (kept_mk h)))) (kept_emit (kept_mk h))))
  · split
    · split
      · exact kept_mk (kept_emit (kept_mk (kept_emit (kept_mk h))))
      · exact kept_emit (kept_mk (kept_emit (kept_mk h)))
    · split
      · exact kept_mk (kept_emit (kept_mk h))
      · exact kept_emit (kept_mk h)

theorem kept_step10 {env : StartEnv} {cold : Bool} (h : kept s) : kept (step10 s env cold) := by
  unfold step10
  dsimp only
  split
  · split
    · exact kept_kioskUp (kept_mk (kept_commitBoot h))
    · exact kept_stopStart (kept_commitBoot h)
  · exact kept_kioskUp h

theorem kept_startStep {env : StartEnv} {cold : Bool} {k : Nat} (h : kept s) : kept (startStep env cold s k) := by
  unfold startStep
  dsimp only
  split
  · exact h
  · split
    · split
      · exact kept_stopStart (kept_mk h)
      · exact kept_mk h
    · split
      · split
        · exact kept_step3 (kept_mk h)
        · exact kept_mk (kept_step3 (kept_mk h))
      · split
        · exact kept_step4 (kept_mk h)
        · exact kept_mk (kept_step4 (kept_mk h))
      · split
        · exact kept_step5 (kept_mk h)
        · exact kept_mk (kept_step5 (kept_mk h))
      · split
        · exact kept_step6 (kept_mk h)
        · exact kept_mk (kept_step6 (kept_mk h))
      · split
        · exact kept_step7 (kept_mk h)
        · exact kept_mk (kept_step7 (kept_mk h))
      · split
        · exact kept_step8 (kept_mk h)
        · exact kept_mk (kept_step8 (kept_mk h))
      · split
        · exact kept_step9 (kept_mk h)
        · exact kept_mk (kept_step9 (kept_mk h))
      · split
        · exact kept_step10 (kept_mk h)
        · exact kept_mk (kept_step10 (kept_mk h))

theorem kept_startFrom {env : StartEnv} {cold : Bool} {first : Nat} (h : kept s) : kept (startFrom s env cold first) :=
  kept_foldl (fun _ _ ht => kept_startStep ht) h

theorem keptNext_execPowerGood {env : StartEnv} (h : kept s) : keptNext (execPowerGood env s) := by
  unfold execPowerGood
  dsimp only
  split
  · exact keptNext_done h
  · exact keptNext_done (kept_startFrom (kept_mk h))

theorem keptNext_execStartupTimeout (h : kept s) : keptNext (execStartupTimeout s) := by
  unfold execStartupTimeout
  split
  · exact keptNext_done (kept_stopStart h)
  · exact keptNext_done h

theorem kept_warmState (h : kept s) : kept (warmState s) := by
  refine kept_iff.2 ⟨zeroPlotSpace_wf (kept_iff.1 h).1, fun e he => absurd he (List.not_mem_nil), fun e he => ?_⟩
  obtain ⟨e', _, rfl⟩ := List.mem_map.1 he
  exact rfl

theorem kept_closeSessions (h : kept s) : kept (closeSessions s) := by
  unfold closeSessions
  refine kept_foldl (fun _ _ ht => ?_) h
  split
  · exact kept_closeSlot ht
  · exact ht

theorem kept_warmReset {env : StartEnv} (h : kept s) : kept (warmReset s env) :=
  kept_startFrom (kept_warmState (kept_closeSessions (kept_foldl (fun _ _ ht => kept_linkDown ht) (kept_endExcursion h))))

theorem keptNext_execResetN (h : kept s) : keptNext (execResetN s) := by
  unfold execResetN
  dsimp only
  split
  · exact keptNext_done (kept_mk kept_unpowered)
  · exact keptNext_done h

theorem keptNext_execPowerLoss {x : PowerCause} (h : kept s) : keptNext (execPowerLoss x s) := by
  unfold execPowerLoss
  split
  · exact keptNext_done kept_unpowered
  · exact keptNext_done h

theorem keptNext_execThermtrip {r : Reading} (h : kept s) : keptNext (execThermtrip r s) := by
  unfold execThermtrip
  dsimp only
  split
  · exact keptNext_done (kept_mk kept_unpowered)
  · exact keptNext_done h

theorem keptNext_execVauxRemoved (h : kept s) : keptNext (execVauxRemoved s) :=
  keptNext_done (kept_mk h)

theorem keptNext_execColdReset {q : KReq} (h : kept s) : keptNext (execColdReset q s) := by
  unfold execColdReset
  dsimp only
  split
  · split
    · exact keptNext_done (kept_refuse (kept_heardReq h))
    · split
      · exact keptNext_done (kept_refuse (kept_heardReq h))
      · exact keptNext_done (kept_mk kept_unpowered)
  · exact keptNext_done (kept_refuse (kept_heardReq h))
  · exact keptNext_done (kept_discardReq h)

/-! ### HBM regions and upkeep -/

theorem kept_scrubUnits {us : List (Nat × Nat)} (h : kept s) : kept (scrubUnits s us) :=
  kept_foldl (fun _ _ ht => kept_modStack ht) h

theorem kept_drawIlv {n : Nat} (h : kept s) : kept (drawIlv s n) :=
  kept_modPlot (kept_mk h)

theorem keptNext_execRegionWrite {q : KReq} {n : Nat} {v : BitVec 64} (h : kept s) : keptNext (execRegionWrite q n v s) := by
  unfold execRegionWrite
  refine keptNext_done (kept_kioskCmd ?_ h)
  intro _ _ ht
  dsimp only
  split
  · exact trivial
  · split
    · exact trivial
    · exact kept_drawIlv (kept_modPlot (kept_scrubUnits ht))

theorem kept_zeroUnit {k u : Nat} (h : kept s) : kept { s with hbm := zeroUnit s.hbm k u } :=
  kept_hbm (memZero_wf _ _ (kept_iff.1 h).1) h

theorem keptNext_execScrubComplete {stack unit : Nat} (h : kept s) : keptNext (execScrubComplete stack unit s) :=
  iteInduction (fun _ => keptNext_done h) fun _ => keptNext_done (kept_modStack (kept_zeroUnit h))

theorem keptNext_execRefresh {stack channel bank : Nat} (h : kept s) : keptNext (execRefresh stack channel bank s) := by
  unfold execRefresh
  dsimp only
  split
  · exact keptNext_done h
  · exact keptNext_done (kept_mk (kept_modStack h))

theorem keptNext_execPatrolScrub {addr : Nat} {o : ScrubObs} (h : kept s) : keptNext (execPatrolScrub addr o s) := by
  unfold execPatrolScrub
  dsimp only
  split
  · exact keptNext_done h
  · split
    · exact keptNext_done (kept_hbmUncorrected h)
    · split
      · exact keptNext_done h
      · exact keptNext_done (kept_hbmCorrectedAt h)
      · exact keptNext_done (kept_hbmOnDie h)
      · exact keptNext_done (kept_hbmUncorrected (kept_mk h))

theorem keptNext_execHbmPressure {stack : Nat} (h : kept s) : keptNext (execHbmPressure stack s) := by
  unfold execHbmPressure
  dsimp only
  split
  · exact keptNext_done h
  · exact keptNext_done (kept_emit (kept_setStack h))

theorem keptNext_execHbmStackFail {stack : Nat} (h : kept s) : keptNext (execHbmStackFail stack s) := by
  unfold execHbmStackFail
  dsimp only
  split
  · exact keptNext_done h
  · exact keptNext_done (kept_containedHold (kept_emit (kept_modStack h)))

theorem keptNext_execStackTemperature {stack : Nat} {mC : ℤ} (h : kept s) : keptNext (execStackTemperature stack mC s) :=
  keptNext_done (kept_modStack h)

/-! ### Moves and signals -/

theorem keptEff_effMcopy {u : EngRef} {k : CmdHdr} {mda : BitVec 22} {iter : Nat} (h : kept s) : keptEff (effMcopy u k mda iter s) := by
  unfold effMcopy
  refine iteInduction (fun _ => h) fun _ => ?_
  split
  · exact h
  · refine iteInduction (fun _ => h) fun _ => iteInduction (fun _ => h) fun _ => ?_
    split
    · exact h
    · split
      · exact h
      · exact h
      · split
        · exact h
        · dsimp only
          split
          · exact kept_placeWrites h
          · exact kept_placeWrites h

theorem keptNext_execMcopy {u : EngRef} {x : Upset} {k : CmdHdr} {mda : BitVec 22} (h : kept s) : keptNext (execMcopy u x k mda s) :=
  keptNext_issueOp (fun _ _ ht => keptEff_effMcopy ht) h

theorem keptEff_effMsig {u : EngRef} {o : MsigOps} {x : Nat} (h : kept s) : keptEff (effMsig u o x s) := by
  unfold effMsig
  dsimp only
  split
  · exact h
  · split
    · exact h
    · split
      · exact h
      · exact kept_mk (kept_modEng h)

theorem keptNext_execMsig {u : EngRef} {x : Upset} {k : CmdHdr} {o : MsigOps} (h : kept s) : keptNext (execMsig u x k o s) :=
  keptNext_done (kept_issueCmd (fun _ _ ht => keptEff_effMsig ht) h)

theorem keptNext_execRemoteSignalArrival {t : SigTarget} {senders : List (SigSource × BitVec 4)} {x : Upset} (h : kept s) :
    keptNext (execRemoteSignalArrival t senders x s) := by
  unfold execRemoteSignalArrival
  dsimp only
  split
  · exact keptNext_done h
  · refine keptNext_done (kept_foldl ?_ ?_)
    · intro _ _ ht
      split
      · exact kept_modEng ht
      · exact ht
    · split
      · split
        · exact kept_pavFault (kept_mk h)
        · exact kept_signalPav (kept_mk h)
      · split
        · exact kept_containedHold (kept_emit (kept_mk h))
        · exact kept_signalTrig (kept_mk h)

/-! ### Sensors, firmware and the sundial -/

theorem keptNext_execVinRange {millivolts : BitVec 32} (h : kept s) : keptNext (execVinRange millivolts s) := by
  unfold execVinRange
  dsimp only
  split
  · split
    · exact keptNext_done (kept_emit (kept_mk h))
    · exact keptNext_done (kept_mk h)
  · exact keptNext_done h

theorem keptNext_execCoolantWarn {inlet : ℤ} {flow : BitVec 32} (h : kept s) : keptNext (execCoolantWarn inlet flow s) := by
  unfold execCoolantWarn
  dsimp only
  split
  · exact keptNext_done h
  · split
    · exact keptNext_done (kept_emit (kept_mk h))
    · exact keptNext_done (kept_mk h)

theorem kept_takeReadings {rs : List Reading} (h : kept s) : kept (takeReadings s rs) :=
  kept_mk h

theorem keptNext_execSensorConversion {rs : List Reading} (h : kept s) : keptNext (execSensorConversion rs s) := by
  unfold execSensorConversion
  dsimp only
  split
  · exact keptNext_done h
  · split
    · exact keptNext_done (kept_takeReadings h)
    · split
      · split
        · exact keptNext_done (kept_plainHold (kept_takeReadings h))
        · exact keptNext_done (kept_emit (kept_mk (kept_plainHold (kept_takeReadings h))))
      · split
        · exact keptNext_done (kept_stopStart (kept_takeReadings h))
        · exact keptNext_done (kept_takeReadings h)

theorem keptNext_execModuleWarmReset {q : KReq} {env : StartEnv} (h : kept s) : keptNext (execModuleWarmReset q env s) := by
  unfold execModuleWarmReset
  refine keptNext_done (kept_kioskCmd ?_ h)
  intro _ _ ht
  dsimp only
  split
  · exact trivial
  · split
    · exact trivial
    · exact kept_mk ht

theorem keptNext_execPavilionReset {q : KReq} {selftestPasses : Bool} (h : kept s) : keptNext (execPavilionReset q selftestPasses s) := by
  unfold execPavilionReset
  refine keptNext_done (kept_kioskCmd ?_ h)
  intro _ _ ht
  dsimp only
  split
  · exact trivial
  · split
    · exact trivial
    · exact kept_mk ht

theorem keptNext_execEngineReset {q : KReq} (h : kept s) : keptNext (execEngineReset q s) := by
  unfold execEngineReset
  refine keptNext_done (kept_kioskCmd ?_ h)
  intro _ _ ht
  dsimp only
  split
  · exact trivial
  · split
    · exact trivial
    · exact kept_mk ht

theorem kept_setVersion {slot : Nat} {v : BitVec 32} (h : kept s) : kept (setVersion s slot v) := by
  unfold setVersion
  dsimp only
  split <;> exact kept_mk h

theorem keptNext_execFirmwareImageWrite {q : KReq} {d : DomSeg} {v : BootVerdict} (h : kept s) :
    keptNext (execFirmwareImageWrite q d v s) := by
  unfold execFirmwareImageWrite
  refine keptNext_done (kept_kioskReq ?_ h)
  intro _ _ ht
  dsimp only
  split
  · exact kept_refuse ht
  · refine kept_domSegment ?_ ht
    intro _ _ ht
    split
    · exact kept_refuse (kept_mk ht)
    · exact kept_accept (kept_bumpChange (kept_mk (kept_setVersion ht)))

theorem keptNext_execUpdateDone (h : kept s) : keptNext (execUpdateDone s) := by
  unfold execUpdateDone
  dsimp only
  split
  · exact keptNext_done (kept_emit (kept_mk (kept_setVersion h)))
  · exact keptNext_done h

theorem keptNext_execPreferredSlotWrite {q : KReq} {v : BitVec 8} (h : kept s) : keptNext (execPreferredSlotWrite q v s) :=
  keptNext_done (kept_kioskRws h)

theorem keptNext_execManagementLinkUp {port : Nat} (h : kept s) : keptNext (execManagementLinkUp port s) :=
  keptNext_done (kept_mk h)

theorem keptNext_execPeriodWrite {q : KReq} {v : BitVec 8} (h : kept s) : keptNext (execPeriodWrite q v s) :=
  keptNext_done (kept_kioskRws h)

theorem kept_holdPortOwners (h : kept s) : kept (holdPortOwners s) :=
  kept_plainHold h

theorem kept_alignBy {err : ℤ} (h : kept s) : kept (alignBy s err) := by
  unfold alignBy
  dsimp only
  split
  · exact kept_endExcursion (kept_mk h)
  · split
    · exact kept_mk h
    · exact h

theorem kept_fromParent {b : SundialBody} {rtt : Option ℤ} {prx : Nat} (h : kept s) : kept (fromParent s b rtt prx).1 := by
  unfold fromParent
  dsimp only
  split <;> exact kept_mk h

theorem kept_periodMismatch (h : kept s) : kept (periodMismatch s) := by
  unfold periodMismatch
  dsimp only
  split
  · exact h
  · exact kept_holdPortOwners (kept_emit (kept_mk (kept_endExcursion h)))

theorem keptNext_execSundial {link : Nat} {b : SundialBody} {trx : BitVec 64} {prx : Nat} (h : kept s) :
    keptNext (execSundial link b trx prx s) := by
  unfold execSundial
  dsimp only
  split
  · exact keptNext_done h
  · split
    · split
      · split
        · split
          · exact keptNext_done (kept_periodMismatch (kept_fromParent (kept_modLink h)))
          · exact keptNext_done (kept_fromParent (kept_modLink h))
        · split
          · exact keptNext_done (kept_periodMismatch (kept_fromParent (kept_modLink h)))
          · exact keptNext_done (kept_alignBy (kept_fromParent (kept_modLink h)))
      · dsimp only
        split
        · exact keptNext_done (kept_periodMismatch (kept_modLink h))
        · exact keptNext_done (kept_modLink h)
    · split
      · split
        · split
          · exact keptNext_done (kept_periodMismatch (kept_fromParent (kept_modLink h)))
          · exact keptNext_done (kept_fromParent (kept_modLink h))
        · split
          · exact keptNext_done (kept_periodMismatch (kept_fromParent (kept_modLink h)))
          · exact keptNext_done (kept_alignBy (kept_fromParent (kept_modLink h)))
      · dsimp only
        split
        · exact keptNext_done (kept_periodMismatch (kept_modLink h))
        · exact keptNext_done (kept_modLink h)

theorem keptNext_execSundialHoldover (h : kept s) : keptNext (execSundialHoldover s) := by
  unfold execSundialHoldover
  dsimp only
  split
  · exact keptNext_done (kept_emit (kept_mk (kept_endExcursion h)))
  · exact keptNext_done h

theorem keptNext_execSundialLost (h : kept s) : keptNext (execSundialLost s) := by
  unfold execSundialLost
  dsimp only
  split
  · exact keptNext_done (kept_holdPortOwners (kept_emit (kept_mk (kept_endExcursion h))))
  · exact keptNext_done h

/-! ### The tick -/

theorem kept_framePlot {n : Nat} (h : kept s) : kept (framePlot s n) :=
  kept_setPlot h

theorem kept_overrun {obs : List OverrunObs} {w : WorkUnit × Nat} (h : kept s) : kept (overrun obs s w) :=
  kept_emit (kept_mk h)

theorem kept_frameEnergy {env : TickEnv} (h : kept s) : kept (frameEnergy s env) := by
  unfold frameEnergy
  dsimp only
  split
  · split
    · exact kept_emit (kept_mk h)
    · exact kept_mk h
  · exact kept_mk h

theorem kept_frameStack {served : List HbmServed} {k : Nat} (h : kept s) : kept (frameStack served s k) := by
  unfold frameStack
  dsimp only
  split
  · exact h
  · exact kept_modStack h

theorem kept_frameSpray {e : Nat} (h : kept s) : kept (frameSpray s e) := by
  unfold frameSpray
  dsimp only
  split
  · exact h
  · exact kept_mk h

theorem kept_frameCool (h : kept s) : kept (frameCool s) :=
  kept_mk h

theorem kept_frameLink {l : Nat} (h : kept s) : kept (frameLink s l) :=
  kept_setLink (kept_sendAcks h)

theorem kept_frameSundial (h : kept s) : kept (frameSundial s) :=
  kept_mk h

/-- The limits of a frame are forgotten at its end. -/
theorem kept_unlimited (h : kept s) : kept { s with
    pavs := s.pavs.map (fun e => (e.1, { e.2 with limited := [] }))
    coll := { s.coll with dies := s.coll.dies.map (fun e => (e.1, { e.2 with limited := [] })) } } := by
  obtain ⟨hhbm, hpavs, hdies⟩ := kept_iff.1 h
  refine kept_iff.2 ⟨hhbm, fun e he => ?_, fun e he => ?_⟩
  · obtain ⟨e', he', rfl⟩ := List.mem_map.1 he
    exact hpavs e' he'
  · obtain ⟨e', he', rfl⟩ := List.mem_map.1 he
    exact hdies e' he'

/-- HBM's frame ends only where it served anything. -/
theorem kept_servedStacks {served : List HbmServed} (h : kept s) :
    kept (if served.isEmpty then s else (List.range 8).foldl (frameStack served) s) :=
  iteInduction (fun _ => h) fun _ => kept_foldl (fun _ _ ht => kept_frameStack ht) h

theorem kept_frameEnd {env : TickEnv} (h : kept s) : kept (frameEnd s env) :=
  kept_settle (kept_frameSundial (kept_foldl (fun _ _ ht => kept_frameLink ht) (kept_frameCool
    (kept_foldl (fun _ _ ht => kept_frameSpray ht) (kept_servedStacks (kept_frameEnergy
      (kept_foldl (fun _ _ ht => kept_overrun ht) (kept_unlimited (kept_foldl (fun _ _ ht => kept_framePlot ht) h)))))))))

theorem kept_stepCount (h : kept s) : kept (stepCount s) := by
  unfold stepCount
  dsimp only
  split <;> exact kept_mk h

theorem kept_holdNow {n : Nat} (h : kept s) : kept (holdNow s n) := by
  unfold holdNow
  dsimp only
  split
  · exact h
  · exact kept_settle (kept_emit (kept_setPlot h))

theorem kept_failedHold {n : Nat} (h : kept s) : kept (failedHold s n) := by
  unfold failedHold
  dsimp only
  split
  · exact kept_raiseHold h
  · exact h

theorem kept_stepHolds (h : kept s) : kept (stepHolds s) :=
  kept_foldl (fun _ _ ht => kept_holdNow ht) (kept_foldl (fun _ _ ht => kept_adoptNow ht) (kept_foldl (fun _ _ ht => kept_failedHold ht) h))

theorem kept_commandNow {n : Nat} (h : kept s) : kept (commandNow s n) := by
  unfold commandNow
  dsimp only
  split
  · exact h
  · exact kept_setPlot h
  · exact kept_setPlot h
  · exact kept_setPlot h
  · exact kept_resetPlotT (kept_setPlot h)
  · exact kept_settle (kept_emit (kept_setPlot h))

theorem kept_pavResetNow {r : Nat × Bool} (h : kept s) : kept (pavResetNow s r) := by
  unfold pavResetNow
  refine kept_emit ?_
  split
  · exact kept_mk (kept_resetPav h)
  · exact kept_resetPav h

theorem kept_engResetNow {u : EngRef} (h : kept s) : kept (engResetNow s u) :=
  kept_emit (kept_resetEngine h)

theorem kept_stepCommands (h : kept s) : kept (stepCommands s) := by
  unfold stepCommands
  dsimp only
  split
  · exact kept_warmReset h
  · exact kept_foldl (fun _ _ ht => kept_engResetNow ht) (kept_foldl (fun _ _ ht => kept_pavResetNow ht) (kept_mk (kept_foldl
      (fun _ _ ht => kept_commandNow ht) h)))

theorem kept_activationTick {n : Nat} (h : kept s) : kept (activationTick s n) := by
  unfold activationTick
  split
  · exact kept_lapseNow (kept_activateNow (kept_modPlot h))
  · exact h

theorem kept_stepActivations (h : kept s) : kept (stepActivations s) :=
  kept_foldl (fun _ _ ht => kept_activationTick ht) h

theorem kept_boundaryPeriod (h : kept s) : kept (boundaryPeriod s) := by
  unfold boundaryPeriod
  dsimp only
  split
  · exact kept_emit (kept_mk h)
  · exact h

theorem kept_boundaryRoutes (h : kept s) : kept (boundaryRoutes s) := by
  unfold boundaryRoutes
  dsimp only
  split
  · exact kept_mk h
  · exact h

theorem kept_boundaryValues (h : kept s) : kept (boundaryValues s) :=
  kept_mk h

theorem kept_boundaryLink {l : Nat} (h : kept s) : kept (boundaryLink s l) := by
  unfold boundaryLink
  dsimp only
  split
  · exact h
  · exact kept_setLink h

theorem kept_stepBoundary (h : kept s) : kept (stepBoundary s) :=
  kept_foldl (fun _ _ ht => kept_boundaryLink ht) (kept_mk (kept_stepCounters (kept_foldl (fun _ _ ht => kept_shardTick ht) (kept_mk
  (kept_boundaryValues (kept_boundaryRoutes (kept_boundaryPeriod h)))))))

theorem kept_stepSlew (h : kept s) : kept (stepSlew s) :=
  kept_mk (kept_sundialRole h)

theorem kept_sendBeats {l : Nat} (h : kept s) : kept (sendBeats s l) := by
  unfold sendBeats
  split
  · exact kept_modLink h
  · exact h

theorem keptNext_execTick {env : TickEnv} (h : kept s) : keptNext (execTick env s) := by
  refine iteInduction (fun _ => keptNext_done h) fun _ => ?_
  have hframe : kept (if s.sd.ticking then frameEnd s env else s) := iteInduction (fun _ => kept_frameEnd h) fun _ => h
  exact keptNext_done (kept_foldl (fun _ _ ht => kept_sendBeats ht) (kept_stepSlew (kept_stepBoundary (kept_stepActivations
    (kept_stepCommands (kept_stepHolds (kept_mk (kept_stepCount hframe))))))))

/-! ### Every command -/

/-- No command breaks the invariant: each by the lemma of its own meaning. -/
theorem keptNext_exec {c : Instr} (h : kept s) : keptNext (exec c s) := by
  cases c with
  | tick _ => exact keptNext_execTick h
  | periodWrite _ _ => exact keptNext_execPeriodWrite h
  | sundial _ _ _ _ => exact keptNext_execSundial h
  | sundialHoldover => exact keptNext_execSundialHoldover h
  | sundialLost => exact keptNext_execSundialLost h
  | commandFetch _ _ => exact keptNext_execCommandFetch h
  | headClockGate _ => exact keptNext_execHeadClockGate h
  | breakHit _ => exact keptNext_execBreakHit h
  | commandComplete _ => exact keptNext_execCommandComplete h
  | remoteSignalArrival _ _ _ => exact keptNext_execRemoteSignalArrival h
  | nop _ _ _ => exact keptNext_execNop h
  | loop _ _ _ _ => exact keptNext_execLoop h
  | endloop _ _ _ => exact keptNext_execEndloop h
  | frame _ _ _ _ => exact keptNext_execFrame h
  | halt _ _ _ => exact keptNext_execHalt h
  | mark _ _ _ _ => exact keptNext_execMark h
  | setvl _ _ _ _ => exact keptNext_execSetvl h
  | setvls _ _ _ _ => exact keptNext_execSetvls h
  | sli _ _ _ _ _ => exact keptNext_execSli h
  | salu _ _ _ _ => exact keptNext_execSalu h
  | tld _ _ _ _ => exact keptNext_execTld h
  | tst _ _ _ _ => exact keptNext_execTst h
  | tsum _ _ _ _ => exact keptNext_execTsum h
  | execProg _ _ _ _ => exact keptNext_execExecProg h
  | amode _ _ _ _ => exact keptNext_execAmode h
  | aclr _ _ _ _ => exact keptNext_execAclr h
  | addd _ _ _ _ => exact keptNext_execAddd h
  | addi _ _ _ _ => exact keptNext_execAddi h
  | acarry _ _ _ _ => exact keptNext_execAcarry h
  | adrain _ _ _ _ => exact keptNext_execAdrain h
  | mmerge _ _ _ _ => exact keptNext_execMmerge h
  | msort _ _ _ _ => exact keptNext_execMsort h
  | mtopk _ _ _ _ => exact keptNext_execMtopk h
  | mfilt _ _ _ _ => exact keptNext_execMfilt h
  | lmm _ _ _ _ => exact keptNext_execLmm h
  | mcopy _ _ _ _ => exact keptNext_execMcopy h
  | msig _ _ _ _ => exact keptNext_execMsig h
  | quarterPowerUp _ _ => exact keptNext_execQuarterPowerUp h
  | load _ _ => exact keptNext_execLoad h
  | verificationComplete _ => exact keptNext_execVerificationComplete h
  | activate _ _ => exact keptNext_execActivate h
  | activation _ => exact keptNext_execActivation h
  | loadBlocked _ => exact keptNext_execLoadBlocked h
  | cancel _ _ => exact keptNext_execCancel h
  | bankWrite _ _ => exact keptNext_execBankWrite h
  | selftestPavilion _ => exact keptNext_execSelftestPavilion h
  | selftestPortDie _ => exact keptNext_execSelftestPortDie h
  | selftestDone _ _ => exact keptNext_execSelftestDone h
  | engineResume _ _ => exact keptNext_execEngineResume h
  | counterAdjust _ _ => exact keptNext_execCounterAdjust h
  | counterFlagClear _ _ => exact keptNext_execCounterFlagClear h
  | waitCycle _ => exact keptNext_execWaitCycle h
  | plotResetComplete _ => exact keptNext_execPlotResetComplete h
  | poolAlloc _ _ => exact keptNext_execPoolAlloc h
  | poolAcquire _ _ => exact keptNext_execPoolAcquire h
  | poolRelease _ _ => exact keptNext_execPoolRelease h
  | bufferAcquire _ _ => exact keptNext_execBufferAcquire h
  | bufferRelease _ _ => exact keptNext_execBufferRelease h
  | descriptorTrigger _ _ => exact keptNext_execDescriptorTrigger h
  | seg _ _ _ => exact keptNext_execSeg h
  | stagingRetry _ _ => exact keptNext_execStagingRetry h
  | chunkFeed _ _ _ => exact keptNext_execChunkFeed h
  | resultRelease _ _ _ => exact keptNext_execResultRelease h
  | runComplete _ _ => exact keptNext_execRunComplete h
  | confirm _ _ _ => exact keptNext_execConfirm h
  | retract _ _ => exact keptNext_execRetract h
  | provDeadline _ _ => exact keptNext_execProvDeadline h
  | b2Launch _ _ => exact keptNext_execB2Launch h
  | b2Status _ _ => exact keptNext_execB2Status h
  | p2p _ _ => exact keptNext_execP2p h
  | pairEntryAdmit _ => exact keptNext_execPairEntryAdmit h
  | e2eAck _ _ => exact keptNext_execE2eAck h
  | stream _ _ => exact keptNext_execStream h
  | telemetry _ _ => exact keptNext_execTelemetry h
  | shardEntryWrite _ _ => exact keptNext_execShardEntryWrite h
  | digestTrigger _ => exact keptNext_execDigestTrigger h
  | digestBlock _ _ => exact keptNext_execDigestBlock h
  | digestComplete _ => exact keptNext_execDigestComplete h
  | digestHeader _ _ => exact keptNext_execDigestHeader h
  | digestList _ _ => exact keptNext_execDigestList h
  | shardCommit _ => exact keptNext_execShardCommit h
  | psTwinLate _ => exact keptNext_execPsTwinLate h
  | adoptLocal _ => exact keptNext_execAdoptLocal h
  | adoptTwin _ => exact keptNext_execAdoptTwin h
  | abandon _ => exact keptNext_execAbandon h
  | restore _ => exact keptNext_execRestore h
  | invalidate _ => exact keptNext_execInvalidate h
  | commitDegraded _ => exact keptNext_execCommitDegraded h
  | restoreRequest _ _ => exact keptNext_execRestoreRequest h
  | restoreData _ _ => exact keptNext_execRestoreData h
  | restoreRefusal _ _ => exact keptNext_execRestoreRefusal h
  | abortNotice _ _ => exact keptNext_execAbortNotice h
  | normTrigger _ => exact keptNext_execNormTrigger h
  | normPartial _ _ => exact keptNext_execNormPartial h
  | normResult _ _ => exact keptNext_execNormResult h
  | normConfigWrite _ _ => exact keptNext_execNormConfigWrite h
  | stepCounterWrite _ _ _ => exact keptNext_execStepCounterWrite h
  | regionWrite _ _ _ => exact keptNext_execRegionWrite h
  | scrubComplete _ _ => exact keptNext_execScrubComplete h
  | refresh _ _ _ => exact keptNext_execRefresh h
  | patrolScrub _ _ => exact keptNext_execPatrolScrub h
  | hbmPressure _ => exact keptNext_execHbmPressure h
  | hbmStackFail _ => exact keptNext_execHbmStackFail h
  | flitReceive _ _ => exact keptNext_execFlitReceive h
  | linkSet _ _ _ _ => exact keptNext_execLinkSet h
  | linkSetDue _ => exact keptNext_execLinkSetDue h
  | nak _ _ => exact keptNext_execNak h
  | replayTimeout _ => exact keptNext_execReplayTimeout h
  | linkSendSlot _ => exact keptNext_execLinkSendSlot h
  | heartbeat _ _ => exact keptNext_execHeartbeat h
  | neighbourSuspect _ => exact keptNext_execNeighbourSuspect h
  | linkSignalDetect _ => exact keptNext_execLinkSignalDetect h
  | trainDone _ => exact keptNext_execTrainDone h
  | alignDone _ => exact keptNext_execAlignDone h
  | lanecheckDone _ _ => exact keptNext_execLanecheckDone h
  | param _ _ => exact keptNext_execParam h
  | linkStateTimeout _ => exact keptNext_execLinkStateTimeout h
  | linkReattempt _ => exact keptNext_execLinkReattempt h
  | laneFail _ _ _ => exact keptNext_execLaneFail h
  | laneRetrainDone _ => exact keptNext_execLaneRetrainDone h
  | spare _ _ _ => exact keptNext_execSpare h
  | signalLost _ => exact keptNext_execSignalLost h
  | down _ _ => exact keptNext_execDown h
  | linkBringUp _ _ _ => exact keptNext_execLinkBringUp h
  | linkTakeDown _ _ _ => exact keptNext_execLinkTakeDown h
  | portModeWrite _ _ _ => exact keptNext_execPortModeWrite h
  | routeTableWrite _ _ => exact keptNext_execRouteTableWrite h
  | directionMapWrite _ _ => exact keptNext_execDirectionMapWrite h
  | routeStall _ _ => exact keptNext_execRouteStall h
  | sprayPressure _ => exact keptNext_execSprayPressure h
  | schedStarved _ _ _ => exact keptNext_execSchedStarved h
  | pavilionMaskWrite _ _ _ => exact keptNext_execPavilionMaskWrite h
  | portMaskWrite _ _ _ => exact keptNext_execPortMaskWrite h
  | plotStart _ _ => exact keptNext_execPlotStart h
  | suspend _ _ => exact keptNext_execSuspend h
  | plotResume _ _ => exact keptNext_execPlotResume h
  | plotReset _ _ => exact keptNext_execPlotReset h
  | releaseHold _ _ => exact keptNext_execReleaseHold h
  | jobSeedWrite _ _ _ => exact keptNext_execJobSeedWrite h
  | energyBudgetWrite _ _ _ => exact keptNext_execEnergyBudgetWrite h
  | zeroise _ _ => exact keptNext_execZeroise h
  | attestationRequest _ _ => exact keptNext_execAttestationRequest h
  | attestationReportReady => exact keptNext_execAttestationReportReady h
  | hello _ _ => exact keptNext_execHello h
  | response _ _ => exact keptNext_execResponse h
  | finish _ _ => exact keptNext_execFinish h
  | keyAgreeTimeout _ => exact keptNext_execKeyAgreeTimeout h
  | entropyFail => exact keptNext_execEntropyFail h
  | lockstepFail => exact keptNext_execLockstepFail h
  | openSession _ _ _ _ => exact keptNext_execOpenSession h
  | auth _ _ => exact keptNext_execAuth h
  | authTimeout _ => exact keptNext_execAuthTimeout h
  | close _ => exact keptNext_execClose h
  | sessionTimeout _ => exact keptNext_execSessionTimeout h
  | closeSession _ _ => exact keptNext_execCloseSession h
  | objectWrite _ _ _ _ _ => exact keptNext_execObjectWrite h
  | subscribe _ _ _ _ => exact keptNext_execSubscribe h
  | unsubscribe _ _ _ => exact keptNext_execUnsubscribe h
  | notify _ _ _ => exact keptNext_execNotify h
  | ringRead _ _ _ _ => exact keptNext_execRingRead h
  | snapshot _ => exact keptNext_execSnapshot h
  | telemetryExport _ => exact keptNext_execTelemetryExport h
  | incidentEnd _ => exact keptNext_execIncidentEnd h
  | membershipTableWrite _ _ => exact keptNext_execMembershipTableWrite h
  | accuse _ _ => exact keptNext_execAccuse h
  | roundStart _ => exact keptNext_execRoundStart h
  | roundTakeover _ => exact keptNext_execRoundTakeover h
  | propose _ _ => exact keptNext_execPropose h
  | ack _ _ => exact keptNext_execAck h
  | roundClose _ _ => exact keptNext_execRoundClose h
  | commit _ _ => exact keptNext_execCommit h
  | epochAdopt _ => exact keptNext_execEpochAdopt h
  | noquorum _ _ => exact keptNext_execNoquorum h
  | pull _ _ => exact keptNext_execPull h
  | probe _ _ => exact keptNext_execProbe h
  | probeReply _ _ => exact keptNext_execProbeReply h
  | probeTimeout _ => exact keptNext_execProbeTimeout h
  | claimDead _ _ => exact keptNext_execClaimDead h
  | claimAlive _ _ => exact keptNext_execClaimAlive h
  | powerGood _ => exact keptNext_execPowerGood h
  | startupTimeout => exact keptNext_execStartupTimeout h
  | vinRange _ => exact keptNext_execVinRange h
  | powerLoss cause => exact keptNext_execPowerLoss (x := cause) h
  | resetN => exact keptNext_execResetN h
  | sensorConversion _ => exact keptNext_execSensorConversion h
  | thermtrip _ => exact keptNext_execThermtrip h
  | coolantWarn _ _ => exact keptNext_execCoolantWarn h
  | moduleWarmReset _ _ => exact keptNext_execModuleWarmReset h
  | pavilionReset _ _ => exact keptNext_execPavilionReset h
  | engineReset _ => exact keptNext_execEngineReset h
  | coldReset _ => exact keptNext_execColdReset h
  | firmwareImageWrite _ _ _ => exact keptNext_execFirmwareImageWrite h
  | updateDone => exact keptNext_execUpdateDone h
  | preferredSlotWrite _ _ => exact keptNext_execPreferredSlotWrite h
  | vauxRemoved => exact keptNext_execVauxRemoved h
  | tlsConnectionEnd _ => exact keptNext_execTlsConnectionEnd h
  | managementLinkUp _ => exact keptNext_execManagementLinkUp h
  | kiosk _ _ => exact keptNext_execKiosk h
  | keyInstalled _ _ => exact keptNext_execKeyInstalled h
  | stackTemperature _ _ => exact keptNext_execStackTemperature h

/-- Settles O3: `kept` is kept by every command's meaning, and taking a command off the queue touches none of what it speaks of. -/
theorem invariantKeptByEveryStep : Obligations.InvariantKeptByEveryStep := by
  intro s t hstep h
  unfold step at hstep
  split at hstep
  · cases hstep
    exact h
  · exact keptNext_exec (kept_mk h) t hstep

end Sys2Proof.Machine
end
section
/-! PROOF. Bytes written to memory and to data SRAM without uncorrectable words: what reads back, and what is left alone (R94, R96). -/

namespace Sys2Proof.Machine

/-! ### Memory -/

/-- A write of one byte leaves every other byte, in canonical form or not. -/
theorem memRead_memWrite_ne (m : List Host.Cell) {a i : Nat} (b : Byte) (h : i ≠ a) : memRead (memWrite m a b) i = memRead m i := by
  induction m with
  | nil =>
    simp only [memWrite]
    split
    · rfl
    · simp [memRead, h]
  | cons c m ih =>
    obtain ⟨k, c⟩ := c
    simp only [memWrite]
    split
    · split
      · rfl
      · simp [memRead, h]
    · split
      · next hk =>
        subst hk
        split <;> simp [memRead, h]
      · simp only [memRead, ih]

theorem memRead_memWrites_outside {i : Nat} {bs : List Byte} :
    ∀ {m : List Host.Cell} {a : Nat}, i < a ∨ a + bs.length ≤ i → memRead (memWrites m a bs) i = memRead m i := by
  induction bs with
  | nil => exact fun _ => rfl
  | cons b bs ih =>
    intro m a h
    rw [List.length_cons] at h
    rw [memWrites, ih (by omega), memRead_memWrite_ne m b (by omega)]

theorem memRead_memWrites_inside {bs : List Byte} :
    ∀ {m : List Host.Cell} {a i : Nat}, Memory.wf m = true → (hi : i < bs.length) → memRead (memWrites m a bs) (a + i) = bs[i] := by
  induction bs with
  | nil => exact fun _ hi => absurd hi (Nat.not_lt_zero _)
  | cons b bs ih =>
    intro m a i hm hi
    rw [memWrites]
    cases i with
    | zero => rw [memRead_memWrites_outside (by omega), Nat.add_zero, memRead_memWrite a a b hm, if_pos rfl, List.getElem_cons_zero]
    | succ i => rw [show a + (i + 1) = a + 1 + i by omega, ih (memWrite_wf a b hm) (by simpa using hi), List.getElem_cons_succ]

@[simp] theorem length_memReads (m : List Host.Cell) (a n : Nat) : (memReads m a n).length = n := by
  simp [memReads]

theorem memReads_congr {m m' : List Host.Cell} {a n : Nat} (h : ∀ i, a ≤ i → i < a + n → memRead m i = memRead m' i) :
    memReads m a n = memReads m' a n :=
  List.map_congr_left fun i hi => h (a + i) (Nat.le_add_right a i) (Nat.add_lt_add_left (List.mem_range.1 hi) a)

theorem memReads_memWrites {m : List Host.Cell} (a : Nat) (bs : List Byte) (hm : Memory.wf m = true) :
    memReads (memWrites m a bs) a bs.length = bs := by
  refine List.ext_getElem (length_memReads _ _ _) fun i _ hi => ?_
  simp only [memReads, List.getElem_map, List.getElem_range]
  exact memRead_memWrites_inside hm hi

/-! ### Several writes in order -/

/-- The memory after writes of bytes in order, each from its own address upwards. -/
def memPuts (m : List Host.Cell) (ws : List (Nat × List Byte)) : List Host.Cell := ws.foldl (fun m w => memWrites m w.1 w.2) m

/-- Address `i` lies outside what a write covers. -/
def outside (i : Nat) (w : Nat × List Byte) : Prop := i < w.1 ∨ w.1 + w.2.length ≤ i

/-- Two writes have no address in common. -/
def spansApart (w w' : Nat × List Byte) : Prop := w.1 + w.2.length ≤ w'.1 ∨ w'.1 + w'.2.length ≤ w.1

theorem memRead_memPuts {i : Nat} {ws : List (Nat × List Byte)} :
    ∀ {m : List Host.Cell}, (∀ w ∈ ws, outside i w) → memRead (memPuts m ws) i = memRead m i := by
  induction ws with
  | nil => exact fun _ => rfl
  | cons w ws ih =>
    intro m h
    exact (ih fun w' hw' => h w' (List.mem_cons_of_mem _ hw')).trans (memRead_memWrites_outside (h w List.mem_cons_self))

/-- The last of the writes that reach its addresses reads back. -/
theorem memReads_memPuts_cons {m : List Host.Cell} {w : Nat × List Byte} {ws : List (Nat × List Byte)} (hm : Memory.wf m = true)
    (h : ∀ w' ∈ ws, spansApart w w') : memReads (memPuts m (w :: ws)) w.1 w.2.length = w.2 := by
  have hlater : memReads (memPuts m (w :: ws)) w.1 w.2.length = memReads (memWrites m w.1 w.2) w.1 w.2.length :=
    memReads_congr fun i hlo hhi => memRead_memPuts (i := i) fun w' hw' => by
      have hapart := h w' hw'
      unfold spansApart at hapart
      unfold outside
      omega
  rw [hlater, memReads_memWrites _ _ hm]

theorem memReads_memPuts {w : Nat × List Byte} {ws : List (Nat × List Byte)} :
    ∀ {m : List Host.Cell}, Memory.wf m = true → ws.Pairwise spansApart → w ∈ ws → memReads (memPuts m ws) w.1 w.2.length = w.2 := by
  induction ws with
  | nil => exact fun _ _ hw => absurd hw List.not_mem_nil
  | cons w' ws ih =>
    intro m hm hapart hw
    obtain ⟨hhead, htail⟩ := List.pairwise_cons.1 hapart
    rcases List.mem_cons.1 hw with rfl | hw
    · exact memReads_memPuts_cons hm hhead
    · exact ih (memWrites_wf w'.1 w'.2 hm) htail hw

/-! ### Data SRAM -/

@[simp] theorem memWritesBut_nil (m : List Host.Cell) (a : Nat) (bs : List Byte) : memWritesBut [] m a bs = memWrites m a bs := by
  induction bs generalizing m a with
  | nil => rfl
  | cons b bs ih => exact ih (memWrite m a b) (a + 1)

/-- A pavilion with these bytes of data SRAM. -/
def withSram (v : Pavilion) (m : List Host.Cell) : Pavilion := { v with sram := m }

/-- Without uncorrectable words a write is a write of memory. -/
theorem sramWrite_clean {v : Pavilion} (hv : v.badWords = []) (a : Nat) (bs : List Byte) :
    sramWrite v a bs = (withSram v (memWrites v.sram a bs), none) := by
  simp [sramWrite, withSram, hv]

theorem sramWrites_clean {ws : List (Nat × List Byte)} :
    ∀ {v : Pavilion}, v.badWords = [] → sramWrites v ws = (withSram v (memPuts v.sram ws), none) := by
  induction ws with
  | nil => exact fun _ => rfl
  | cons w ws ih =>
    intro v hv
    have htail := ih (v := withSram v (memWrites v.sram w.1 w.2)) hv
    simp only [sramWrites, sramWrite_clean hv, htail]
    rfl

/-- Settles O6: with no word uncorrectable, a write of data SRAM is a write of memory. -/
theorem sramReadsBackWrites : Obligations.SramReadsBackWrites := by
  intro v a bs hwf hbad
  rw [sramWrite_clean hbad]
  refine ⟨rfl, memWrites_wf a bs hwf, memReads_memWrites a bs hwf, fun i hi => memRead_memWrites_outside hi, ?_⟩
  rw [← hbad]
  rfl

end Sys2Proof.Machine
end

section
/-! PROOF. Commands whose effect is a function of their pavilion that neither reads nor writes its counters: AMODE and ACLR on slots, EXEC
on tiles (R103, R105, R131, R146). -/

namespace Sys2Proof.Machine
open Sys2Proof.Safety

/-! ### Effects apart from the counters -/

/-- A function of a pavilion that neither reads nor writes its counters. -/
def ctrsApart (g : Pavilion → Pavilion) : Prop := ∀ v c, g (withCtrs v c) = withCtrs (g v) c

theorem ctrs_of_ctrsApart {g : Pavilion → Pavilion} (hg : ctrsApart g) (v : Pavilion) : (g v).ctrs = v.ctrs :=
  (congrArg Pavilion.ctrs (hg v v.ctrs) :)

theorem ctrsApart_foldl {α : Type} {g : Pavilion → α → Pavilion} (hg : ∀ a, ctrsApart (fun v => g v a)) (l : List α) :
    ctrsApart (fun v => l.foldl g v) :=
  fun _ c => List.foldl_hom (withCtrs · c) fun w a => hg a w c

/-- A head whose effect is such a function issues with it, its wait consumed before or after. -/
theorem issueOp_ctrsApart {s : State} {g : Pavilion → Pavilion} {u : EngRef} {q : QCmd} {k : CmdHdr} {op : EngOp} {f : Nat → State → Eff}
    (h : issues s u q) (hc : q.cmd = ⟨k, op⟩) (hg : ctrsApart g)
    (hf : f q.iter (consumeWait s u k) = .ok (setPav (consumeWait s u k) u.pav (g (pavAt (consumeWait s u k) u.pav)))) :
    issueOp u {} k op f s = .next (issued (setPav s u.pav (g (pavAt s u.pav))) u q .notSent) := by
  refine issueOp_pav h hc (ctrs_of_ctrsApart hg _) ?_
  rw [hf, pavAt_consumeWait, hg]

/-! ### Slots -/

theorem slotAt_setSlot (v : Pavilion) (i j : Nat) (t : Slot) : slotAt (setSlot v i t) j = if j = i then t else slotAt v j :=
  tblGet_tblSet _ v.slots j i t

/-- `f` applied to each slot of a list, in order. -/
def mapSlots (f : Slot → Slot) (v : Pavilion) (js : List Nat) : Pavilion := js.foldl (fun w j => setSlot w j (f (slotAt w j))) v

theorem ctrsApart_mapSlots (f : Slot → Slot) (js : List Nat) : ctrsApart (fun v => mapSlots f v js) :=
  ctrsApart_foldl (fun _ _ _ => rfl) js

theorem slotAt_mapSlots {f : Slot → Slot} {js : List Nat} :
    ∀ {v : Pavilion} (_ : js.Nodup) (j : Nat), slotAt (mapSlots f v js) j = if j ∈ js then f (slotAt v j) else slotAt v j := by
  induction js with
  | nil => exact fun _ _ => rfl
  | cons i js ih =>
    intro v hnodup j
    obtain ⟨hi, hjs⟩ := List.nodup_cons.1 hnodup
    show slotAt (mapSlots f (setSlot v i (f (slotAt v i))) js) j = _
    rw [ih hjs, slotAt_setSlot]
    by_cases hji : j = i
    · subst hji
      simp [hi]
    · simp [hji]

/-- Nothing but the slots changes. -/
theorem mapSlots_rest (f : Slot → Slot) (v : Pavilion) (js : List Nat) : mapSlots f v js = { v with slots := (mapSlots f v js).slots } := by
  have hrest : ∃ t, mapSlots f v js = { v with slots := t } :=
    List.foldlRecOn (motive := fun w : Pavilion => ∃ t, w = { v with slots := t }) js _ ⟨v.slots, rfl⟩
      (fun w ⟨t, ht⟩ j _ => ⟨tblSet t j (f (slotAt w j)), by rw [setSlot, ht]⟩)
  obtain ⟨t, ht⟩ := hrest
  rw [ht]

theorem mem_slotRange {slot n j : Nat} : j ∈ slotRange slot n ↔ slot ≤ j ∧ j < slot + n := by
  simp only [slotRange, List.mem_map, List.mem_range]
  constructor
  · rintro ⟨i, hi, rfl⟩
    omega
  · exact fun h => ⟨j - slot, by omega, by omega⟩

theorem nodup_slotRange (slot n : Nat) : (slotRange slot n).Nodup :=
  List.nodup_range.map (fun _ _ h => Nat.add_left_cancel h)

theorem slotAt_mapSlots_range {f : Slot → Slot} {v : Pavilion} {slot n j : Nat} (hlo : slot ≤ j) (hhi : j < slot + n) :
    slotAt (mapSlots f v (slotRange slot n)) j = f (slotAt v j) := by
  rw [slotAt_mapSlots (nodup_slotRange slot n), if_pos (mem_slotRange.2 ⟨hlo, hhi⟩)]

theorem slotAt_mapSlots_outside {f : Slot → Slot} {v : Pavilion} {slot n j : Nat} (h : j < slot ∨ slot + n ≤ j) :
    slotAt (mapSlots f v (slotRange slot n)) j = slotAt v j := by
  rw [slotAt_mapSlots (nodup_slotRange slot n), if_neg]
  rw [mem_slotRange]
  omega

/-- AMODE on a pavilion. -/
def amodePav (o : AmodeOps) (v : Pavilion) : Pavilion :=
  mapSlots (fun _ => slotMode o.mode o.fmt o.sq o.b.toInt) v (slotRange o.slot.toNat o.n.toNat)

/-- ACLR on a pavilion. -/
def aclrPav (o : AclrOps) (v : Pavilion) : Pavilion := mapSlots slotClear v (slotRange o.slot.toNat o.n.toNat)

theorem ctrsApart_amodePav (o : AmodeOps) : ctrsApart (amodePav o) := ctrsApart_mapSlots _ _

theorem ctrsApart_aclrPav (o : AclrOps) : ctrsApart (aclrPav o) := ctrsApart_mapSlots _ _

theorem effAmode_eq (u : EngRef) (o : AmodeOps) (iter : Nat) (s : State) : effAmode u o iter s =
    (if !modeOk o then .fail .malformed s
    else if 1024 < o.slot.toNat + o.n.toNat then .fail .bounds s
    else if 32 < ((amodePav o (pavAt s u.pav)).slots.filter (fun t => t.2.wide)).length then .fail .malformed s
    else .ok (setPav s u.pav (amodePav o (pavAt s u.pav)))) :=
  rfl

theorem exec_amode {s : State} {u : EngRef} {q : QCmd} {k : CmdHdr} {o : AmodeOps} (h : issues s u q) (hc : q.cmd = ⟨k, .amode o⟩)
    (hmode : modeOk o = true) (hrange : o.slot.toNat + o.n.toNat ≤ 1024)
    (hwide : ((amodePav o (pavAt s u.pav)).slots.filter (fun t => t.2.wide)).length ≤ 32) :
    exec (.amode u {} k o) s = .next (issued (setPav s u.pav (amodePav o (pavAt s u.pav))) u q .notSent) := by
  have hslots : (amodePav o (pavAt (consumeWait s u k) u.pav)).slots = (amodePav o (pavAt s u.pav)).slots := by
    rw [pavAt_consumeWait, ctrsApart_amodePav]
    rfl
  refine issueOp_ctrsApart h hc (ctrsApart_amodePav o) ?_
  rw [effAmode_eq, hslots, if_neg (by simp [hmode]), if_neg (Nat.not_lt.2 hrange), if_neg (Nat.not_lt.2 hwide)]

theorem exec_aclr {s : State} {u : EngRef} {q : QCmd} {k : CmdHdr} {o : AclrOps} (h : issues s u q) (hc : q.cmd = ⟨k, .aclr o⟩)
    (hrange : o.slot.toNat + o.n.toNat ≤ 1024) :
    exec (.aclr u {} k o) s = .next (issued (setPav s u.pav (aclrPav o (pavAt s u.pav))) u q .notSent) :=
  issueOp_ctrsApart h hc (ctrsApart_aclrPav o) (if_neg (Nat.not_lt.2 hrange))

/-- Settles O11: each slot of the range is written once, AMODE's from its operands and ACLR's from what the slot held. -/
theorem slotSettings : Obligations.SlotSettings := by
  intro s u q k h
  refine ⟨fun o hc hmode hrange w hw hwide => ?_, fun o hc hrange => ?_⟩
  · have hmap : w = amodePav o (pavAt s u.pav) := hw
    subst hmap
    exact ⟨exec_amode h hc hmode hrange hwide, mapSlots_rest _ _ _, fun j hlo hhi => slotAt_mapSlots_range hlo hhi,
      fun j hj => slotAt_mapSlots_outside hj⟩
  · exact ⟨_, exec_aclr h hc hrange, mapSlots_rest _ _ _, fun j hlo hhi => slotAt_mapSlots_range hlo hhi,
      fun j hj => slotAt_mapSlots_outside hj⟩

/-! ### Tables with keysRise keys -/

/-- The keys of a table rise, so that none is listed twice. -/
def keysRise {α : Type} (t : Tbl α) : Prop := t.Pairwise (fun a b => a.1 < b.1)

theorem keysRise_tblSet {α : Type} {t : Tbl α} (k : Nat) (x : α) (ht : keysRise t) : keysRise (tblSet t k x) := by
  induction t with
  | nil => exact List.pairwise_singleton _ _
  | cons e t ih =>
    obtain ⟨k', x'⟩ := e
    obtain ⟨hhead, htail⟩ := List.pairwise_cons.1 ht
    simp only [tblSet]
    split
    · next hk => exact List.pairwise_cons.2 ⟨fun e he => hk ▸ hhead e he, htail⟩
    · split
      · next hlt =>
        refine List.pairwise_cons.2 ⟨fun e he => ?_, ht⟩
        rcases List.mem_cons.1 he with rfl | he
        · exact hlt
        · exact Nat.lt_trans hlt (hhead e he)
      · next hne hle =>
        refine List.pairwise_cons.2 ⟨fun e he => ?_, ih htail⟩
        rcases mem_tblSet he with rfl | he
        · exact Nat.lt_of_le_of_ne (Nat.not_lt.1 hle) (Ne.symm hne)
        · exact hhead e he

theorem tblGet_of_not_listed {α : Type} {d : α} {t : Tbl α} {k : Nat} (h : ∀ e ∈ t, e.1 ≠ k) : tblGet d t k = d := by
  rcases tblGet_mem d t k with hd | hmem
  · exact hd
  · exact absurd rfl (h _ hmem)

theorem tblGet_filter {α : Type} {d : α} {p : Nat × α → Bool} {k : Nat} (hp : ∀ x, p (k, x) = true) (t : Tbl α) :
    tblGet d (t.filter p) k = tblGet d t k := by
  induction t with
  | nil => rfl
  | cons e t ih =>
    obtain ⟨k', x⟩ := e
    by_cases hk : k = k'
    · subst hk
      simp [hp, tblGet]
    · rw [List.filter_cons]
      split <;> simp [tblGet, hk, ih]

/-! ### Tiles -/

/-- Values for one element of several tiles, in order. -/
def setTiles (v : Pavilion) (e : Nat) (ds : Tbl TVal) : Pavilion := ds.foldl (fun w d => tileSet w d.1 e d.2) v

theorem tileGet_tileSet {v : Pavilion} {d d' e : Nat} {x : TVal} : tileGet (tileSet v d e x) d' e = if d' = d then x else tileGet v d' e := by
  simp only [tileGet, tileSet, tblGet_tblSet, Nat.add_right_cancel_iff, Nat.mul_left_cancel_iff (by decide : 0 < 512)]

theorem tileGet_setTiles {ds : Tbl TVal} {e d : Nat} :
    ∀ {v : Pavilion}, keysRise ds → tileGet (setTiles v e ds) d e = tblGet (tileGet v d e) ds d := by
  induction ds with
  | nil => exact fun _ => rfl
  | cons a ds ih =>
    intro v hds
    obtain ⟨k, x⟩ := a
    obtain ⟨hhead, htail⟩ := List.pairwise_cons.1 hds
    show tileGet (setTiles (tileSet v k e x) e ds) d e = _
    rw [ih htail, tileGet_tileSet, tblGet]
    by_cases hd : d = k
    · subst hd
      simp only [if_true]
      exact tblGet_of_not_listed fun b hb => Nat.ne_of_gt (hhead b hb)
    · simp only [hd, if_false]

theorem tileGet_setTiles_ne {ds : Tbl TVal} {e e' d : Nat} (he : e < 512) (he' : e' < 512) (hne : e' ≠ e) :
    ∀ {v : Pavilion}, tileGet (setTiles v e ds) d e' = tileGet v d e' := by
  induction ds with
  | nil => exact rfl
  | cons a ds ih =>
    intro v
    exact ih.trans (tblGet_tblSet_ne _ _ _ (by omega))

/-- The table of every element below `n`, in order. -/
def setElems (v : Pavilion) (n : Nat) (r : Nat → Tbl TVal) : Pavilion := (List.range n).foldl (fun w e => setTiles w e (r e)) v

theorem setElems_succ (v : Pavilion) (n : Nat) (r : Nat → Tbl TVal) : setElems v (n + 1) r = setTiles (setElems v n r) n (r n) := by
  simp [setElems, List.range_succ]

theorem tileGet_setElems {v : Pavilion} {r : Nat → Tbl TVal} (hr : ∀ e, keysRise (r e)) {n d e : Nat} (hn : n ≤ 512) (he : e < 512) :
    tileGet (setElems v n r) d e = if e < n then tblGet (tileGet v d e) (r e) d else tileGet v d e := by
  induction n with
  | zero => rfl
  | succ n ih =>
    have hih := ih (Nat.le_of_succ_le hn)
    rw [setElems_succ]
    by_cases hen : e = n
    · subst hen
      rw [tileGet_setTiles (hr e), hih, if_neg (Nat.lt_irrefl e), if_pos (Nat.lt_succ_self e)]
    · rw [tileGet_setTiles_ne hn he hen, hih]
      simp only [Nat.lt_succ_iff_lt_or_eq, hen, or_false]

/-- Nothing but the tiles changes. -/
theorem setElems_rest (v : Pavilion) (n : Nat) (r : Nat → Tbl TVal) : setElems v n r = { v with tiles := (setElems v n r).tiles } := by
  have hset : ∀ (w : Pavilion) (e : Nat) (ds : Tbl TVal), (∃ t, w = { v with tiles := t }) → ∃ t, setTiles w e ds = { v with tiles := t } :=
    fun w e ds hw => List.foldlRecOn (motive := fun w : Pavilion => ∃ t, w = { v with tiles := t }) ds _ hw
      (fun w ⟨t, ht⟩ a _ => ⟨tblSet t (512 * a.1 + e) a.2, by rw [tileSet, ht]⟩)
  have hrest : ∃ t, setElems v n r = { v with tiles := t } :=
    List.foldlRecOn (motive := fun w : Pavilion => ∃ t, w = { v with tiles := t }) (List.range n) _ ⟨v.tiles, rfl⟩
      (fun w hw e _ => hset w e (r e) hw)
  obtain ⟨t, ht⟩ := hrest
  rw [ht]

theorem ctrsApart_setElems (n : Nat) (r : Nat → Tbl TVal) : ctrsApart (fun v => setElems v n r) :=
  ctrsApart_foldl (fun e => ctrsApart_foldl (fun _ _ _ => rfl) (r e)) _

/-! ### Element programs (R103) -/

theorem keysRise_runElem (v : Pavilion) (o : ExecOps) (p : List Uop) (e : Nat) : keysRise (runElem v o p e) :=
  List.foldlRecOn (motive := keysRise) p _ List.Pairwise.nil fun _ henv _ _ => keysRise_tblSet _ _ henv

/-- What a program leaves in the tiles for one element. -/
def tilesOf (v : Pavilion) (o : ExecOps) (p : List Uop) (e : Nat) : Tbl TVal := (runElem v o p e).filter (fun d => decide (d.1 < 32))

theorem keysRise_tilesOf (v : Pavilion) (o : ExecOps) (p : List Uop) (e : Nat) : keysRise (tilesOf v o p e) :=
  (keysRise_runElem v o p e).filter _

theorem tblGet_tilesOf (v : Pavilion) (o : ExecOps) (p : List Uop) (e : Nat) {d : Nat} (hd : d < 32) (x : TVal) :
    tblGet x (tilesOf v o p e) d = tblGet x (runElem v o p e) d :=
  tblGet_filter (fun _ => decide_eq_true hd) _

/-- EXEC on a pavilion. -/
def runTiles (o : ExecOps) (p : List Uop) (v : Pavilion) : Pavilion := setElems v v.vl (tilesOf v o p)

theorem ctrsApart_runTiles (o : ExecOps) (p : List Uop) : ctrsApart (runTiles o p) :=
  fun v c => ctrsApart_setElems v.vl (tilesOf v o p) v c

theorem exec_execProg {s : State} {u : EngRef} {q : QCmd} {k : CmdHdr} {o : ExecOps} (h : issues s u q) (hc : q.cmd = ⟨k, .exec o⟩)
    (hp : programOk o (storeProgram (activeStore (engAt s u)) o) = true) :
    exec (.execProg u {} k o) s =
      .next (issued (setPav s u.pav (runTiles o (storeProgram (activeStore (engAt s u)) o) (pavAt s u.pav))) u q .notSent) := by
  have heng : engAt (consumeWait s u k) u = engAt s u := by
    unfold engAt
    rw [pavAt_consumeWait]
    rfl
  show issueOp u {} k (.exec o) (effExec u o) s = _
  refine issueOp_ctrsApart h hc (ctrsApart_runTiles o _) ?_
  unfold effExec
  rw [heng]
  exact if_neg (by simp [hp])

/-- Settles O10: the elements are written one by one, none of them another's, and each from the values before the command. -/
theorem elementProgram : Obligations.ElementProgram := by
  intro s u q k o h hc
  dsimp only
  intro hvl hp
  refine ⟨_, exec_execProg h hc hp, setElems_rest _ _ _, fun d e hd he => ?_⟩
  rw [runTiles, tileGet_setElems (keysRise_tilesOf _ _ _) hvl he, tblGet_tilesOf _ _ _ _ hd]

end Sys2Proof.Machine
end

section
/-! PROOF. MCOPY and MSIG (R119, R120, R152, R153): reads and writes of places with the head's wait consumed before or after, rows between
two places of one data SRAM, and the signal on its way. -/

namespace Sys2Proof.Machine
open Sys2Proof.Safety

/-! ### Places, and the wait that is consumed first (R131) -/

theorem modDie_consumeWait (s : State) (u : EngRef) (k : CmdHdr) (j : Nat) (f : Dovecote → Dovecote) :
    modDie (consumeWait s u k) j f = consumeWait (modDie s j f) u k := by
  unfold consumeWait
  split <;> rfl

theorem withHbm_consumeWait (s : State) (u : EngRef) (k : CmdHdr) (m : Hbm) :
    { consumeWait s u k with hbm := m } = consumeWait { s with hbm := m } u k := by
  unfold consumeWait
  split <;> rfl

theorem withSigs_consumeWait (s : State) (u : EngRef) (k : CmdHdr) (sigs : List RemoteSig) :
    { consumeWait s u k with sigs := sigs } = consumeWait { s with sigs := sigs } u k := by
  unfold consumeWait
  split <;> rfl

theorem coll_consumeWait (s : State) (u : EngRef) (k : CmdHdr) : (consumeWait s u k).coll = s.coll :=
  (congrArg State.coll (consumeWait_rest s u k) :)

theorem hbm_consumeWait (s : State) (u : EngRef) (k : CmdHdr) : (consumeWait s u k).hbm = s.hbm :=
  (congrArg State.hbm (consumeWait_rest s u k) :)

theorem sigs_consumeWait (s : State) (u : EngRef) (k : CmdHdr) : (consumeWait s u k).sigs = s.sigs :=
  (congrArg State.sigs (consumeWait_rest s u k) :)

theorem pools_consumeWait (s : State) (u : EngRef) (k : CmdHdr) : (consumeWait s u k).pools = s.pools :=
  (congrArg State.pools (consumeWait_rest s u k) :)

/-- A pavilion but for its counters is what it was before the wait was consumed. -/
theorem pavAt_consumeWait_withCtrs (s : State) (u : EngRef) (k : CmdHdr) (i : Nat) :
    ∃ c, pavAt (consumeWait s u k) i = withCtrs (pavAt s i) c := by
  by_cases hi : i = u.pav
  · exact ⟨_, hi ▸ pavAt_consumeWait s u k⟩
  · exact ⟨(pavAt s i).ctrs, pavAt_consumeWait_ne s u k hi⟩

theorem dieMem_consumeWait (s : State) (u : EngRef) (k : CmdHdr) (j : Nat) : dieMem (consumeWait s u k) j = dieMem s j := by
  unfold dieMem dieAt
  rw [coll_consumeWait]

theorem placeRead_consumeWait (s : State) (u : EngRef) (k : CmdHdr) (pl : Place) (n : Nat) :
    placeRead (consumeWait s u k) pl n = placeRead s pl n := by
  cases pl with
  | sram p a =>
    obtain ⟨c, hc⟩ := pavAt_consumeWait_withCtrs s u k p
    simp only [placeRead, hc]
    rfl
  | die j a => simp only [placeRead, dieMem_consumeWait]
  | hbm n' o => simp only [placeRead, hbm_consumeWait, plotAt_consumeWait]

theorem placeReads_consumeWait (s : State) (u : EngRef) (k : CmdHdr) (rs : List (Place × Nat)) :
    placeReads (consumeWait s u k) rs = placeReads s rs := by
  induction rs with
  | nil => rfl
  | cons r rs ih => simp only [placeReads, placeRead_consumeWait, ih]

/-- A write of a pavilion but for its counters. -/
theorem setPav_consumeWait_write (s : State) (u : EngRef) (k : CmdHdr) (p a : Nat) (bs : List Byte) :
    setPav (consumeWait s u k) p (sramWrite (pavAt (consumeWait s u k) p) a bs).1 =
      consumeWait (setPav s p (sramWrite (pavAt s p) a bs).1) u k := by
  by_cases hp : p = u.pav
  · subst hp
    have hwait := setPav_consumeWait s u k (sramWrite (pavAt s u.pav) a bs).1 rfl
    rw [← hwait, pavAt_consumeWait]
    rfl
  · rw [pavAt_consumeWait_ne s u k hp, setPav_consumeWait_ne s u k _ hp]

theorem placeWrite_consumeWait (s : State) (u : EngRef) (k : CmdHdr) (pl : Place) (bs : List Byte) :
    placeWrite (consumeWait s u k) pl bs = (consumeWait (placeWrite s pl bs).1 u k, (placeWrite s pl bs).2) := by
  cases pl with
  | sram p a =>
    obtain ⟨c, hc⟩ := pavAt_consumeWait_withCtrs s u k p
    refine Prod.ext (setPav_consumeWait_write s u k p a bs) ?_
    simp only [placeWrite, hc]
    rfl
  | die j a =>
    simp only [placeWrite, dieMem_consumeWait, modDie_consumeWait]
  | hbm n o =>
    simp only [placeWrite, hbm_consumeWait, plotAt_consumeWait, withHbm_consumeWait]

theorem placeWrites_consumeWait (u : EngRef) (k : CmdHdr) (ws : List (Place × List Byte)) :
    ∀ s : State, placeWrites (consumeWait s u k) ws = (consumeWait (placeWrites s ws).1 u k, (placeWrites s ws).2) := by
  induction ws with
  | nil => exact fun _ => rfl
  | cons w ws ih =>
    intro s
    simp only [placeWrites, placeWrite_consumeWait, ih]

theorem pavOfRel_consumeWait (s : State) (u : EngRef) (k : CmdHdr) (n rel : Nat) : pavOfRel (consumeWait s u k) n rel = pavOfRel s n rel := by
  simp only [pavOfRel, pavsOfPlot, plotAt_consumeWait]

theorem moveSide_consumeWait (s : State) (u : EngRef) (k : CmdHdr) (n : Nat) (isDst : Bool) (w : AddrWord) (len rows stride : Nat) :
    moveSide (consumeWait s u k) n u isDst w len rows stride = moveSide s n u isDst w len rows stride := by
  simp only [moveSide, plotAt_consumeWait, pavOfRel_consumeWait, poolAt?, pools_consumeWait]

/-! ### Rows of one data SRAM -/

theorem setPav_setPav (s : State) (i : Nat) (v w : Pavilion) : setPav (setPav s i v) i w = setPav s i w := by
  simp [setPav]

theorem sramBad_clean {v : Pavilion} (hv : v.badWords = []) (a n : Nat) : sramBad v a n = none := by
  simp [sramBad, hv]

theorem placeReads_own {s : State} {p : Nat} (hbad : (pavAt s p).badWords = []) (len : Nat) (as : List Nat) :
    placeReads s ((as.map (Place.sram p)).map (fun pl => (pl, len))) = .ok (as.map (fun a => sramRead (pavAt s p) a len)) := by
  induction as with
  | nil => rfl
  | cons a as ih =>
    simp only [List.map_cons, placeReads, placeRead, sramBad_clean hbad, ih]
    rfl

theorem placeWrites_own_after {s : State} {p : Nat} {ws : List (Nat × List Byte)} :
    ∀ {v : Pavilion}, v.badWords = [] → placeWrites (setPav s p v) (ws.map (fun w => (Place.sram p w.1, w.2))) =
      (setPav s p (withSram v (memPuts v.sram ws)), none) := by
  induction ws with
  | nil => exact fun _ => rfl
  | cons w ws ih =>
    intro v hv
    have htail := ih (v := withSram v (memWrites v.sram w.1 w.2)) hv
    simp only [List.map_cons, placeWrites, placeWrite, pavAt_setPav_same, sramWrite_clean hv, setPav_setPav, htail]
    rfl

/-- Writes of a pavilion's data SRAM, one at least, are writes of its memory. -/
theorem placeWrites_own {s : State} {p : Nat} (hbad : (pavAt s p).badWords = []) {ws : List (Nat × List Byte)} (hws : ws ≠ []) :
    placeWrites s (ws.map (fun w => (Place.sram p w.1, w.2))) = (setPav s p (withSram (pavAt s p) (memPuts (pavAt s p).sram ws)), none) := by
  obtain ⟨w, ws, rfl⟩ := List.exists_cons_of_ne_nil hws
  have htail := placeWrites_own_after (s := s) (p := p) (ws := ws) (v := withSram (pavAt s p) (memWrites (pavAt s p).sram w.1 w.2)) hbad
  simp only [List.map_cons, placeWrites, placeWrite, sramWrite_clean hbad, htail]
  rfl

/-- What MCOPY writes between two places of one data SRAM: each row with the bytes read for it. -/
def rowCopies (v : Pavilion) (b : MoveBlk) (x y : Nat) : List (Nat × List Byte) :=
  (List.range b.rows).map (fun r => (y + r * b.dstr, sramRead v (x + r * b.sstr) b.len))

theorem mem_rowCopies {v : Pavilion} {b : MoveBlk} {x y : Nat} {w : Nat × List Byte} :
    w ∈ rowCopies v b x y ↔ ∃ r, r < b.rows ∧ (y + r * b.dstr, sramRead v (x + r * b.sstr) b.len) = w := by
  simp only [rowCopies, List.mem_map, List.mem_range]

@[simp] theorem length_sramRead (v : Pavilion) (a n : Nat) : (sramRead v a n).length = n := length_memReads _ _ _

/-- Rows no longer than the distance between them have no address in common. -/
theorem rowCopies_apart {v : Pavilion} {b : MoveBlk} {x y : Nat} (h : b.rows = 1 ∨ b.len ≤ b.dstr) :
    (rowCopies v b x y).Pairwise spansApart := by
  refine List.pairwise_map.2 (List.pairwise_lt_range.imp_of_mem fun {r t} _ ht hrt => Or.inl ?_)
  rw [length_sramRead]
  rcases h with hrows | hlen
  · rw [hrows, List.mem_range] at ht
    omega
  · have hnext : (r + 1) * b.dstr ≤ t * b.dstr := Nat.mul_le_mul_right _ hrt
    rw [Nat.succ_mul] at hnext
    show y + r * b.dstr + b.len ≤ y + t * b.dstr
    omega

theorem memRead_rowCopies {v : Pavilion} {b : MoveBlk} {x y i : Nat}
    (h : ∀ r, r < b.rows → i < y + r * b.dstr ∨ y + r * b.dstr + b.len ≤ i) :
    memRead (memPuts v.sram (rowCopies v b x y)) i = memRead v.sram i := by
  refine memRead_memPuts fun w hw => ?_
  obtain ⟨r, hr, rfl⟩ := mem_rowCopies.1 hw
  simpa [outside] using h r hr

theorem sramRead_rowCopies {v : Pavilion} {b : MoveBlk} {x y r : Nat} (hwf : Memory.wf v.sram = true) (h : b.rows = 1 ∨ b.len ≤ b.dstr)
    (hr : r < b.rows) :
    sramRead (withSram v (memPuts v.sram (rowCopies v b x y))) (y + r * b.dstr) b.len = sramRead v (x + r * b.sstr) b.len := by
  have hread := memReads_memPuts hwf (rowCopies_apart h) (mem_rowCopies.2 ⟨r, hr, rfl⟩ : _ ∈ rowCopies v b x y)
  rw [length_sramRead] at hread
  exact hread

/-! ### MCOPY (R119, R152) -/

/-- The address word is in the engine's own data SRAM. -/
def inOwn (w : AddrWord) : Prop := ∃ a, w = .own a

/-- The checks of R152 before the sides: the block `b` is read and its fields are well formed. -/
def mcopyChecked (v : Pavilion) (a : Nat) (b : MoveBlk) : Prop :=
  b = moveBlk (sramRead v a 32) ∧ v.badWords = [] ∧ a % 32 = 0 ∧ sramIn a 32 = true ∧ b.rsvd = 0 ∧ b.len ≤ 2 ^ 22 ∧
  addrWord b.src ≠ .bad ∧ addrWord b.dst ≠ .bad ∧ (inOwn (addrWord b.src) ∨ inOwn (addrWord b.dst))

/-- What MCOPY does once its block is checked: its sides, its reads and its writes. -/
def mcopyMove (u : EngRef) (b : MoveBlk) (s : State) : Eff :=
  if b.len = 0 ∨ b.rows = 0 then .ok s
  else match engPlot s u with
    | none => .fail .ownership s
    | some n =>
      match moveSide s n u false (addrWord b.src) b.len b.rows b.sstr, moveSide s n u true (addrWord b.dst) b.len b.rows b.dstr with
      | .error e, _ => .fail e s
      | _, .error e => .fail e s
      | .ok ss, .ok ds =>
        match placeReads s (ss.map (fun p => (p, b.len))) with
        | .error e => .fail e s
        | .ok data =>
          let (t, e) := placeWrites s (ds.zip data)
          match e with
          | some e => .fail e t
          | none => .ok t

section
variable {s : State} {u : EngRef} {k : CmdHdr} {mda : BitVec 22} {iter : Nat} {b : MoveBlk}

theorem mcopyChecked_consumeWait {a : Nat} (h : mcopyChecked (pavAt s u.pav) a b) : mcopyChecked (pavAt (consumeWait s u k) u.pav) a b := by
  rw [pavAt_consumeWait]
  exact h

theorem effMcopy_checked (h : mcopyChecked (pavAt s u.pav) (advance k.laa mda.toNat 32 iter) b) :
    effMcopy u k mda iter s = mcopyMove u b s := by
  obtain ⟨rfl, hbad, halign, hin, hrsvd, hlen, hsrc, hdst, hown⟩ := h
  unfold effMcopy
  dsimp only
  rw [if_neg (by simp [halign, hin]), sramBad_clean hbad]
  dsimp only
  rw [if_neg]
  · rfl
  · rintro (h | h | h | h | h)
    · exact h hrsvd
    · omega
    · exact hsrc h
    · exact hdst h
    · rcases hown with ⟨x, hx⟩ | ⟨y, hy⟩
      · simp [hx] at h
      · simp [hy] at h

theorem effMcopy_empty (h : mcopyChecked (pavAt s u.pav) (advance k.laa mda.toNat 32 iter) b) (hempty : b.len = 0 ∨ b.rows = 0) :
    effMcopy u k mda iter s = .ok s := by
  rw [effMcopy_checked h, mcopyMove, if_pos hempty]

theorem effMcopy_rows {n : Nat} {ss ds : List Place} {data : List (List Byte)} {t : State}
    (h : mcopyChecked (pavAt s u.pav) (advance k.laa mda.toNat 32 iter) b) (hlen : 0 < b.len) (hrows : 0 < b.rows)
    (hplot : engPlot s u = some n) (hss : moveSide s n u false (addrWord b.src) b.len b.rows b.sstr = .ok ss)
    (hds : moveSide s n u true (addrWord b.dst) b.len b.rows b.dstr = .ok ds)
    (hdata : placeReads s (ss.map (fun p => (p, b.len))) = .ok data) (ht : placeWrites s (ds.zip data) = (t, none)) :
    effMcopy u k mda iter s = .ok t := by
  rw [effMcopy_checked h, mcopyMove, if_neg (by omega), hplot]
  simp only [hss, hds, hdata, ht]

end

section
variable {s : State} {u : EngRef} {q : QCmd} {k : CmdHdr} {mda : BitVec 22} {b : MoveBlk}

theorem exec_mcopy_empty (h : issues s u q) (hc : q.cmd = ⟨k, .mcopy mda⟩)
    (hb : mcopyChecked (pavAt s u.pav) (advance k.laa mda.toNat 32 q.iter) b) (hempty : b.len = 0 ∨ b.rows = 0) :
    exec (.mcopy u {} k mda) s = .next (issued s u q .notSent) :=
  issueOp_ok h hc (effMcopy_empty (mcopyChecked_consumeWait hb) hempty)

theorem exec_mcopy_rows {n : Nat} {ss ds : List Place} {data : List (List Byte)} {t : State} (h : issues s u q)
    (hc : q.cmd = ⟨k, .mcopy mda⟩) (hb : mcopyChecked (pavAt s u.pav) (advance k.laa mda.toNat 32 q.iter) b) (hlen : 0 < b.len)
    (hrows : 0 < b.rows) (hplot : engPlot s u = some n) (hss : moveSide s n u false (addrWord b.src) b.len b.rows b.sstr = .ok ss)
    (hds : moveSide s n u true (addrWord b.dst) b.len b.rows b.dstr = .ok ds)
    (hdata : placeReads s (ss.map (fun p => (p, b.len))) = .ok data) (ht : placeWrites s (ds.zip data) = (t, none)) :
    exec (.mcopy u {} k mda) s = .next (issued t u q .notSent) := by
  refine issueOp_ok h hc (effMcopy_rows (mcopyChecked_consumeWait hb) hlen hrows (n := n) (ss := ss) (ds := ds) (data := data) ?_ ?_ ?_ ?_ ?_)
  · rw [engPlot_consumeWait, hplot]
  · rw [moveSide_consumeWait, hss]
  · rw [moveSide_consumeWait, hds]
  · rw [placeReads_consumeWait, hdata]
  · rw [placeWrites_consumeWait, ht]

theorem moveSide_own {n len rows stride x : Nat} {isDst : Bool} (hin : ∀ r, r < rows → sramIn (x + r * stride) len = true) :
    moveSide s n u isDst (.own x) len rows stride = .ok (((List.range rows).map (fun r => x + r * stride)).map (Place.sram u.pav)) := by
  unfold moveSide
  dsimp only
  rw [if_pos (by simpa using hin)]
  simp [Function.comp_def]

theorem exec_mcopy_own {n x y : Nat} (h : issues s u q) (hc : q.cmd = ⟨k, .mcopy mda⟩)
    (hb : mcopyChecked (pavAt s u.pav) (advance k.laa mda.toNat 32 q.iter) b) (hlen : 0 < b.len) (hrows : 0 < b.rows)
    (hplot : engPlot s u = some n) (hsrc : addrWord b.src = .own x) (hdst : addrWord b.dst = .own y)
    (hin : ∀ r, r < b.rows → sramIn (x + r * b.sstr) b.len = true ∧ sramIn (y + r * b.dstr) b.len = true) :
    exec (.mcopy u {} k mda) s = .next (issued
      (setPav s u.pav (withSram (pavAt s u.pav) (memPuts (pavAt s u.pav).sram (rowCopies (pavAt s u.pav) b x y)))) u q .notSent) := by
  obtain ⟨-, hbad, -⟩ := id hb
  have hrowsne : rowCopies (pavAt s u.pav) b x y ≠ [] := by
    simp [rowCopies, Nat.ne_of_gt hrows]
  have hwrites := placeWrites_own hbad hrowsne
  refine exec_mcopy_rows h hc hb hlen hrows hplot (hsrc ▸ moveSide_own fun r hr => (hin r hr).1)
    (hdst ▸ moveSide_own fun r hr => (hin r hr).2) (placeReads_own hbad b.len _) ?_
  rw [← hwrites, rowCopies]
  simp only [List.map_map, List.zip_map', Function.comp_def]

end

/-! ### MSIG (R120, R153) -/

/-- The state with one signal of an engine put on its way. -/
def signalSent (s : State) (u : EngRef) (o : MsigOps) (g : SigTarget) : State :=
  { modEng s u (fun e => { e with nsig := (engAt s u).nsig + 1 }) with
    sigs := s.sigs ++ [⟨.engine u, g, o.inc, (engAt s u).nsig + 1⟩] }

section
variable {s : State} {u : EngRef} {q : QCmd} {k : CmdHdr} {o : MsigOps}

theorem engAt_consumeWait (s : State) (u : EngRef) (k : CmdHdr) : engAt (consumeWait s u k) u = engAt s u := by
  unfold engAt
  rw [pavAt_consumeWait]
  rfl

theorem modEng_consumeWait (s : State) (u : EngRef) (k : CmdHdr) (f : Engine → Engine) :
    modEng (consumeWait s u k) u f = consumeWait (modEng s u f) u k := by
  have hwait := setPav_consumeWait s u k
    { pavAt s u.pav with engines := tblSet (pavAt s u.pav).engines u.eng (f (engAt s u)) } rfl
  unfold modEng setEng modPav
  rw [engAt_consumeWait, pavAt_consumeWait]
  exact hwait

theorem signalSent_consumeWait (s : State) (u : EngRef) (k : CmdHdr) (o : MsigOps) (g : SigTarget) :
    signalSent (consumeWait s u k) u o g = consumeWait (signalSent s u o g) u k := by
  unfold signalSent
  rw [engAt_consumeWait, modEng_consumeWait, sigs_consumeWait]
  exact withSigs_consumeWait _ u k _

theorem trigAt?_consumeWait (s : State) (u : EngRef) (k : CmdHdr) (j n rel : Nat) :
    trigAt? (consumeWait s u k) j n rel = trigAt? s j n rel := by
  simp only [trigAt?, dieAt, coll_consumeWait]

theorem plotsOfDie_consumeWait (s : State) (u : EngRef) (k : CmdHdr) (j : Nat) : plotsOfDie (consumeWait s u k) j = plotsOfDie s j := by
  simp only [plotsOfDie, plotAt_consumeWait]

theorem msigTarget_consumeWait (s : State) (u : EngRef) (k : CmdHdr) (n : Nat) (o : MsigOps) :
    msigTarget (consumeWait s u k) n o = msigTarget s n o := by
  unfold msigTarget
  rw [pavOfRel_consumeWait, trigAt?_consumeWait, plotsOfDie_consumeWait]

/-- An MSIG whose operands are well formed. -/
def msigFormed (o : MsigOps) : Prop := o.inc ≠ 0 ∧ (o.kind = 0 ∧ o.ctr.toNat ≤ 63 ∧ o.die = 0 ∨ o.kind = 1 ∧ o.pav = 0)

theorem effMsig_sent {n iter : Nat} {g : SigTarget} (hformed : msigFormed o) (hplot : engPlot s u = some n)
    (hg : msigTarget s n o = some g) : effMsig u o iter s = .ok (signalSent s u o g) := by
  obtain ⟨hinc, hkind⟩ := hformed
  unfold effMsig
  rw [if_neg]
  · simp only [hplot, hg]
    rfl
  · rcases hkind with ⟨hk, hctr, hdie⟩ | ⟨hk, hpav⟩
    · simpa [hk, hdie, hctr] using hinc
    · simpa [hk, hpav] using hinc

theorem exec_msig {n : Nat} {g : SigTarget} (h : issues s u q) (hc : q.cmd = ⟨k, .msig o⟩) (hformed : msigFormed o)
    (hplot : engPlot s u = some n) (hg : msigTarget s n o = some g) :
    exec (.msig u {} k o) s = .next (issued (signalSent s u o g) u q .onTheWay) := by
  have hf : effMsig u o q.iter (consumeWait s u k) = .ok (consumeWait (signalSent s u o g) u k) := by
    rw [effMsig_sent hformed (by rw [engPlot_consumeWait, hplot]) (by rw [msigTarget_consumeWait, hg]), signalSent_consumeWait]
  have hissue := issueCmd_ok h hc (sig := .onTheWay) hf
  show Host.Outcome.next (settle (issueCmd u {} ⟨k, .msig o⟩ .onTheWay (effMsig u o) s)) = _
  rw [hissue, issued, hc]

end

/-- Settles O16: MCOPY's sides, reads and writes are the same before and after its wait is consumed, its rows are read before the first is
written, and MSIG's target is that of R153. -/
theorem moves : Obligations.Moves := by
  refine ⟨fun s u q k mda h hc => ?_, fun s u q k o n h hc hplot hinc => ?_⟩
  · dsimp only
    intro hbad halign hin hrsvd hlen
    refine ⟨fun x y n hsrc hdst hlen0 hrows hplot hrowsIn => ?_, fun hsrc hdst hown => ?_⟩
    · have hb : mcopyChecked (pavAt s u.pav) (advance k.laa mda.toNat 32 q.iter) _ :=
        ⟨rfl, hbad, halign, hin, hrsvd, hlen, by simp [hsrc], by simp [hdst], .inl ⟨x, hsrc⟩⟩
      exact ⟨_, exec_mcopy_own h hc hb hlen0 hrows hplot hsrc hdst hrowsIn, rfl, fun i hi => memRead_rowCopies hi,
        fun hwf happart _ r hr => sramRead_rowCopies hwf happart hr⟩
    · have hb : mcopyChecked (pavAt s u.pav) (advance k.laa mda.toNat 32 q.iter) _ :=
        ⟨rfl, hbad, halign, hin, hrsvd, hlen, hsrc, hdst, hown⟩
      exact ⟨exec_mcopy_empty h hc hb, fun n ss ds data t hlen0 hrows hplot => exec_mcopy_rows h hc hb hlen0 hrows hplot⟩
  · refine ⟨fun p hkind hctr hdie hp => ?_, fun hkind hpav htrig hdie => ?_⟩
    · exact exec_msig h hc ⟨hinc, .inl ⟨hkind, hctr, hdie⟩⟩ hplot (by simp [msigTarget, hkind, hp])
    · exact exec_msig h hc ⟨hinc, .inr ⟨hkind, hpav⟩⟩ hplot (by simp [msigTarget, hkind, htrig, hdie])

end Sys2Proof.Machine
end

section
/-! PROOF. Merging and sorting of records (R109–R112): the merge of streams loses no record and, by index, keeps them in order; the stable sort
is an insertion sort; with KEEP_ALL every record stays. -/

namespace Sys2Proof.Machine

/-! ### The merge of streams (R109) -/

section
variable {f : Nat} {byVal desc : Bool}

theorem bestStream_mem {l : List (Nat × MRec)} {h : Nat × MRec} (hb : bestStream f byVal desc l = some h) : h ∈ l := by
  induction l generalizing h with
  | nil => cases hb
  | cons g l ih =>
    simp only [bestStream] at hb
    split at hb
    · cases hb
      exact List.mem_cons_self
    · next g' hg' =>
      split at hb
      · cases hb
        exact List.mem_cons_of_mem _ (ih hg')
      · cases hb
        exact List.mem_cons_self

theorem bestStream_eq_none {l : List (Nat × MRec)} (hb : bestStream f byVal desc l = none) : l = [] := by
  cases l with
  | nil => rfl
  | cons g l =>
    simp only [bestStream] at hb
    split at hb
    · cases hb
    · split at hb <;> cases hb

/-- By index, ascending, no head comes before the best one. -/
theorem index_bestStream_le {l : List (Nat × MRec)} {h : Nat × MRec} (hb : bestStream f false false l = some h) :
    ∀ g ∈ l, h.2.index ≤ g.2.index := by
  induction l generalizing h with
  | nil => cases hb
  | cons g l ih =>
    simp only [bestStream] at hb
    split at hb
    · next hnone =>
      cases hb
      rw [bestStream_eq_none hnone]
      simp
    · next g' hg' =>
      have hrest := ih hg'
      simp only [keyLt, Bool.false_eq_true, if_false, decide_eq_true_eq] at hb
      split at hb
      · next hlt =>
        cases hb
        exact List.forall_mem_cons.2 ⟨Nat.le_of_lt hlt, hrest⟩
      · next hge =>
        cases hb
        exact List.forall_mem_cons.2 ⟨Nat.le_refl _, fun x hx => Nat.le_trans (Nat.not_lt.1 hge) (hrest x hx)⟩

/-- The heads of the streams that are not empty, with their numbers. -/
def streamHeads (ss : List (List (MRec × Bool))) : List (Nat × MRec) :=
  ((List.range ss.length).zip ss).filterMap (fun p => p.2.head?.map (fun r => (p.1, r.1)))

theorem mem_range_zip {α : Type} {l : List α} {i : Nat} {x : α} : (i, x) ∈ (List.range l.length).zip l ↔ l[i]? = some x := by
  rw [List.mem_iff_getElem?]
  constructor
  · rintro ⟨j, hj⟩
    obtain ⟨hnum, hx⟩ := List.getElem?_zip_eq_some.1 hj
    obtain ⟨hlt, hnum⟩ := List.getElem?_eq_some_iff.1 hnum
    rw [List.getElem_range] at hnum
    subst hnum
    exact hx
  · exact fun hx => ⟨i, List.getElem?_zip_eq_some.2 ⟨List.getElem?_range (List.getElem?_eq_some_iff.1 hx).1, hx⟩⟩

theorem mem_streamHeads {ss : List (List (MRec × Bool))} {i : Nat} {r : MRec} :
    (i, r) ∈ streamHeads ss ↔ ∃ mark rest, ss[i]? = some ((r, mark) :: rest) := by
  unfold streamHeads
  rw [List.mem_filterMap]
  constructor
  · rintro ⟨⟨j, m⟩, hm, hhead⟩
    cases m with
    | nil => cases hhead
    | cons e rest =>
      cases hhead
      exact ⟨e.2, rest, mem_range_zip.1 hm⟩
  · rintro ⟨mark, rest, hi⟩
    exact ⟨(i, (r, mark) :: rest), mem_range_zip.2 hi, rfl⟩

theorem flatten_eq_nil_of_streamHeads {ss : List (List (MRec × Bool))} (h : streamHeads ss = []) : ss.flatten = [] := by
  refine List.flatten_eq_nil_iff.2 fun m hm => ?_
  obtain ⟨i, hi⟩ := List.mem_iff_getElem?.1 hm
  cases m with
  | nil => rfl
  | cons e rest =>
    have hhead : (i, e.1) ∈ streamHeads ss := mem_streamHeads.2 ⟨e.2, rest, hi⟩
    rw [h] at hhead
    cases hhead

/-- A merge with every stream empty has ended. -/
theorem mergeN_none {fuel : Nat} {ss : List (List (MRec × Bool))} (hb : bestStream f byVal desc (streamHeads ss) = none) :
    mergeN f byVal desc (fuel + 1) ss = [] := by
  unfold streamHeads at hb
  simp only [mergeN, hb]

/-- A merge takes the best head from its stream and goes on. -/
theorem mergeN_some {fuel i : Nat} {r : MRec} {ss : List (List (MRec × Bool))}
    (hb : bestStream f byVal desc (streamHeads ss) = some (i, r)) : ∃ mark rest, ss[i]? = some ((r, mark) :: rest) ∧
      mergeN f byVal desc (fuel + 1) ss = (r, mark) :: mergeN f byVal desc fuel (ss.set i rest) := by
  obtain ⟨mark, rest, hi⟩ := mem_streamHeads.1 (bestStream_mem hb)
  refine ⟨mark, rest, hi, ?_⟩
  unfold streamHeads at hb
  simp only [mergeN, hb, List.getD_eq_getElem?_getD, hi, Option.getD_some, List.head?_cons, List.tail_cons]

theorem flatten_set_perm {α : Type} {ss : List (List α)} {i : Nat} {e : α} {rest : List α} (hi : ss[i]? = some (e :: rest)) :
    (e :: (ss.set i rest).flatten).Perm ss.flatten := by
  induction ss generalizing i with
  | nil => cases hi
  | cons m ss ih =>
    cases i with
    | zero =>
      cases hi
      exact List.Perm.refl _
    | succ i => exact List.perm_middle.symm.trans ((ih hi).append_left m)

/-- Given steps enough, a merge loses no record and adds none. -/
theorem mergeN_perm {fuel : Nat} {ss : List (List (MRec × Bool))} (h : ss.flatten.length ≤ fuel) :
    (mergeN f byVal desc fuel ss).Perm ss.flatten := by
  induction fuel generalizing ss with
  | zero =>
    rw [List.length_eq_zero_iff.1 (Nat.le_zero.1 h)]
    exact List.Perm.refl _
  | succ fuel ih =>
    cases hb : bestStream f byVal desc (streamHeads ss) with
    | none => rw [mergeN_none hb, flatten_eq_nil_of_streamHeads (bestStream_eq_none hb)]
    | some g =>
      obtain ⟨mark, rest, hi, hstep⟩ := mergeN_some (fuel := fuel) hb
      have hperm := flatten_set_perm hi
      have hlength := hperm.length_eq
      rw [List.length_cons] at hlength
      rw [hstep]
      exact ((ih (by omega)).cons _).trans hperm

theorem mergeN_subset {fuel : Nat} {ss : List (List (MRec × Bool))} : mergeN f byVal desc fuel ss ⊆ ss.flatten := by
  induction fuel generalizing ss with
  | zero => exact List.nil_subset _
  | succ fuel ih =>
    cases hb : bestStream f byVal desc (streamHeads ss) with
    | none =>
      rw [mergeN_none hb]
      exact List.nil_subset _
    | some g =>
      obtain ⟨mark, rest, hi, hstep⟩ := mergeN_some (fuel := fuel) hb
      rw [hstep]
      exact fun e he => (flatten_set_perm hi).subset (List.cons_subset_cons _ ih he)

end

/-- In order of index, marks aside. -/
def indexOrdered (m : List (MRec × Bool)) : Prop := m.Pairwise (fun a c => a.1.index ≤ c.1.index)

/-- The merge by index of streams in order is in order. -/
theorem indexOrdered_mergeN {f fuel : Nat} {ss : List (List (MRec × Bool))} (hss : ∀ m ∈ ss, indexOrdered m) :
    indexOrdered (mergeN f false false fuel ss) := by
  induction fuel generalizing ss with
  | zero => exact List.Pairwise.nil
  | succ fuel ih =>
    cases hb : bestStream f false false (streamHeads ss) with
    | none =>
      rw [mergeN_none hb]
      exact List.Pairwise.nil
    | some g =>
      obtain ⟨mark, rest, hi, hstep⟩ := mergeN_some (fuel := fuel) hb
      have hleast : ∀ e ∈ ss.flatten, g.2.index ≤ e.1.index := by
        intro e he
        obtain ⟨m, hm, hem⟩ := List.mem_flatten.1 he
        obtain ⟨j, hj⟩ := List.mem_iff_getElem?.1 hm
        cases m with
        | nil => cases hem
        | cons head tail =>
          have hhead : g.2.index ≤ head.1.index := index_bestStream_le hb (j, head.1) (mem_streamHeads.2 ⟨head.2, tail, hj⟩)
          rcases List.mem_cons.1 hem with rfl | htail
          · exact hhead
          · exact Nat.le_trans hhead ((List.pairwise_cons.1 (hss _ hm)).1 e htail)
      have hset : ∀ m ∈ ss.set g.1 rest, indexOrdered m := by
        intro m hm
        rcases List.mem_or_eq_of_mem_set hm with hm | rfl
        · exact hss m hm
        · exact (List.pairwise_cons.1 (hss _ (List.mem_of_getElem? hi))).2
      rw [hstep]
      exact List.pairwise_cons.2 ⟨fun e he => hleast e ((flatten_set_perm hi).subset (List.mem_cons_of_mem _ (mergeN_subset he))), ih hset⟩

/-! ### Marks (R110) and duplicates (R111) -/

theorem map_fst_markStream (f : Nat) (byVal desc : Bool) (rs : List MRec) : (markStream f byVal desc rs).map (·.1) = rs := by
  cases rs with
  | nil => rfl
  | cons r rs =>
    simp only [markStream, List.map_cons, List.map_map, Function.comp_def]
    rw [show (fun p : MRec × MRec => p.1) = Prod.fst from rfl, List.map_fst_zip (by simp)]

/-- A stream with no record marked, by index, is in order. -/
theorem indexOrdered_markStream {f : Nat} {rs : List MRec} (h : ∀ e ∈ markStream f false false rs, e.2 = false) :
    indexOrdered (markStream f false false rs) := by
  have horder : rs.Pairwise (fun a c => a.index ≤ c.index) := by
    induction rs with
    | nil => exact List.Pairwise.nil
    | cons r rs ih =>
      cases rs with
      | nil => exact List.pairwise_singleton _ _
      | cons r' rs =>
        have hnext : r.index ≤ r'.index := by
          have hmark := h (r', keyLt f false false r' r) (by simp [markStream])
          simpa [keyLt] using hmark
        have htail := ih fun e he => by
          rcases List.mem_cons.1 he with rfl | he
          · rfl
          · exact h e (List.mem_cons_of_mem _ (List.mem_cons_of_mem _ he))
        refine List.pairwise_cons.2 ⟨fun x hx => ?_, htail⟩
        rcases List.mem_cons.1 hx with rfl | hx
        · exact hnext
        · exact Nat.le_trans hnext ((List.pairwise_cons.1 htail).1 x hx)
  rw [← map_fst_markStream f false false rs, List.pairwise_map] at horder
  exact horder

/-- KEEP_ALL keeps every record. -/
theorem dupMode_keepAll (f : Nat) (byVal : Bool) (l : List (MRec × Bool)) : dupMode f byVal 0 l = l := by
  induction l with
  | nil => rfl
  | cons r rs ih => simp only [dupMode, ih]

theorem dupMode_unmarked (f : Nat) (byVal : Bool) (rs : List MRec) :
    (dupMode f byVal 0 (rs.map (fun r => (r, false)))).map (·.1) = rs := by
  simp [dupMode_keepAll, Function.comp_def]

/-! ### The stable sort -/

theorem sortBy_eq_insertionSort {α : Type} (le : α → α → Bool) (l : List α) : sortBy le l = l.insertionSort (fun a b => le a b = true) := by
  have hinsert : ∀ (x : α) (l : List α), sortBy.insertFront le x l = l.orderedInsert (fun a b => le a b = true) x := by
    intro x l
    induction l with
    | nil => rfl
    | cons y ys ih => simp only [sortBy.insertFront, List.orderedInsert, ih]
  induction l with
  | nil => rfl
  | cons x xs ih =>
    rw [List.insertionSort_cons, ← ih]
    exact hinsert x (sortBy le xs)

theorem sortBy_perm {α : Type} (le : α → α → Bool) (l : List α) : (sortBy le l).Perm l := by
  rw [sortBy_eq_insertionSort]
  exact List.perm_insertionSort _ l

theorem sortBy_pairwise {α : Type} {le : α → α → Bool} (htotal : ∀ a b, le a b = true ∨ le b a = true)
    (htrans : ∀ a b c, le a b = true → le b c = true → le a c = true) (l : List α) : (sortBy le l).Pairwise (fun a b => le a b = true) := by
  have : Std.Total (fun a b => le a b = true) := ⟨htotal⟩
  have : IsTrans α (fun a b => le a b = true) := ⟨htrans⟩
  rw [sortBy_eq_insertionSort]
  exact List.pairwise_insertionSort _ l

/-- By index, a record may stand before another, in either direction. -/
theorem keyLt_index_eq_false {f : Nat} {desc : Bool} {a c : MRec} :
    (!keyLt f false desc c a) = true ↔ if desc then c.index ≤ a.index else a.index ≤ c.index := by
  cases desc <;> simp [keyLt]

/-- An index sort is in order, ascending or descending. -/
theorem sortBy_index_pairwise (f : Nat) (desc : Bool) (rs : List MRec) :
    (sortBy (fun x y => !keyLt f false desc y x) rs).Pairwise (fun a c => if desc then c.index ≤ a.index else a.index ≤ c.index) := by
  have hsorted := sortBy_pairwise (le := fun x y => !keyLt f false desc y x)
    (fun a b => by
      simp only [keyLt_index_eq_false]
      cases desc <;> simp <;> omega)
    (fun a b c => by
      simp only [keyLt_index_eq_false]
      cases desc <;> simp <;> omega) rs
  exact hsorted.imp keyLt_index_eq_false.1

/-- A sort with KEEP_ALL is the sort of the records read. -/
theorem sortedRecords_keepAll {v : Pavilion} {o : MergeOps} {b : MergeBlk} (hdup : o.dup = 0) :
    sortedRecords v o b = sortBy (fun x y => !keyLt o.vfmt.toNat o.key o.dir y x) (readRecords v o.vfmt.toNat b.src b.n) := by
  have hkeepAll : o.dup.toNat = 0 := congrArg BitVec.toNat hdup
  unfold sortedRecords
  rw [hkeepAll]
  exact dupMode_unmarked _ _ _

end Sys2Proof.Machine
end

section
/-! PROOF. MMERGE, MSORT, MTOPK and MFILT (R109–R114, R148): each reads its block and its records from one pavilion, and writes records and
OUTN to it; what they read and write does not depend on the counters. -/

namespace Sys2Proof.Machine
open Sys2Proof.Safety

/-! ### Records and OUTN in data SRAM -/

@[simp] theorem length_natLe (n x : Nat) : (natLe n x).length = n := by
  induction n generalizing x with
  | zero => rfl
  | succ n ih => simp [natLe, ih]

theorem length_recordBytes (f : Nat) (count : Bool) (r : MRec) : (recordBytes f count r).length = recordSize f count := by
  unfold recordBytes recordSize
  split <;> simp

theorem length_records (f : Nat) (count : Bool) (rs : List MRec) :
    (rs.flatMap (recordBytes f count)).length = rs.length * recordSize f count := by
  simp [List.length_flatMap, length_recordBytes]

/-- What a command of the merge engine writes: its records, if any, and OUTN at byte 32 of its block. -/
def mergePuts (f pb dst : Nat) (count : Bool) (rs : List MRec) (outn : Nat) : List (Nat × List Byte) :=
  (if rs.isEmpty then [] else [(dst, rs.flatMap (recordBytes f count))]) ++ [(pb + 32, natLe 4 outn)]

section
variable {f pb dst outn : Nat} {count : Bool} {rs : List MRec} {m : List Host.Cell}

theorem mergePuts_of_ne_nil (h : rs ≠ []) :
    mergePuts f pb dst count rs outn = [(dst, rs.flatMap (recordBytes f count)), (pb + 32, natLe 4 outn)] := by
  simp [mergePuts, h]

theorem memRead_mergePuts {i : Nat} (hrs : i < dst ∨ dst + rs.length * recordSize f count ≤ i) (hout : i < pb + 32 ∨ pb + 36 ≤ i) :
    memRead (memPuts m (mergePuts f pb dst count rs outn)) i = memRead m i := by
  have hlast : outside i (pb + 32, natLe 4 outn) := by simpa [outside] using hout
  by_cases h : rs = []
  · subst h
    exact memRead_memPuts (List.forall_mem_singleton.2 hlast)
  · rw [mergePuts_of_ne_nil h]
    have hfirst : outside i (dst, rs.flatMap (recordBytes f count)) := by simpa only [outside, length_records] using hrs
    exact memRead_memPuts (List.forall_mem_cons.2 ⟨hfirst, List.forall_mem_singleton.2 hlast⟩)

theorem memReads_mergePuts_outn (hm : Memory.wf m = true) :
    memReads (memPuts m (mergePuts f pb dst count rs outn)) (pb + 32) 4 = natLe 4 outn := by
  have hlast : ∀ {m : List Host.Cell}, Memory.wf m = true → memReads (memPuts m [(pb + 32, natLe 4 outn)]) (pb + 32) 4 = natLe 4 outn :=
    fun {m} hm => (length_natLe 4 outn ▸ memReads_memWrites (pb + 32) (natLe 4 outn) hm :)
  by_cases h : rs = []
  · subst h
    exact hlast hm
  · rw [mergePuts_of_ne_nil h]
    exact hlast (memWrites_wf dst _ hm)

theorem memReads_mergePuts_records (hm : Memory.wf m = true)
    (hapart : dst + rs.length * recordSize f count ≤ pb + 32 ∨ pb + 36 ≤ dst) :
    memReads (memPuts m (mergePuts f pb dst count rs outn)) dst (rs.length * recordSize f count) = rs.flatMap (recordBytes f count) := by
  by_cases h : rs = []
  · subst h
    simp [memReads]
  · rw [mergePuts_of_ne_nil h, ← length_records]
    have hspans : spansApart (dst, rs.flatMap (recordBytes f count)) (pb + 32, natLe 4 outn) := by
      simpa only [spansApart, length_records, length_natLe] using hapart
    exact memReads_memPuts_cons (w := (dst, _)) hm (List.forall_mem_singleton.2 hspans)

/-- A pavilion with these writes: every other byte as before, OUTN, and the records where OUTN does not lie over them. -/
theorem mergePuts_reads {v w : Pavilion} (hw : w.sram = memPuts v.sram (mergePuts f pb dst count rs outn)) :
    (∀ i, (i < dst ∨ dst + rs.length * recordSize f count ≤ i) → (i < pb + 32 ∨ pb + 36 ≤ i) → memRead w.sram i = memRead v.sram i) ∧
    (Memory.wf v.sram = true → sramRead w (pb + 32) 4 = natLe 4 outn ∧
      ((dst + rs.length * recordSize f count ≤ pb + 32 ∨ pb + 36 ≤ dst) →
        sramRead w dst (rs.length * recordSize f count) = rs.flatMap (recordBytes f count))) := by
  unfold sramRead
  rw [hw]
  exact ⟨fun _ hrs hout => memRead_mergePuts hrs hout,
    fun hwf => ⟨memReads_mergePuts_outn hwf, fun hapart => memReads_mergePuts_records hwf hapart⟩⟩

end

/-! ### What the four commands share -/

/-- A head whose effect on its pavilion needs checks that the counters do not meet issues with that effect. -/
theorem issueOp_checked {s : State} {g : Pavilion → Pavilion} {chk : Pavilion → Prop} {u : EngRef} {q : QCmd} {k : CmdHdr} {op : EngOp}
    {f : Nat → State → Eff} (h : issues s u q) (hc : q.cmd = ⟨k, op⟩) (hg : ctrsApart g) (hchk : ∀ v c, chk v → chk (withCtrs v c))
    (hf : ∀ t, chk (pavAt t u.pav) → f q.iter t = .ok (setPav t u.pav (g (pavAt t u.pav)))) (hv : chk (pavAt s u.pav)) :
    issueOp u {} k op f s = .next (issued (setPav s u.pav (g (pavAt s u.pav))) u q .notSent) :=
  issueOp_ctrsApart h hc hg (hf _ (pavAt_consumeWait s u k ▸ hchk _ _ hv))

/-- The parameter block of a command (Table 5.14). -/
def mergeBlockAt (v : Pavilion) (pb : Nat) : MergeBlk := mergeBlk (sramRead v pb 64)

theorem mergeBlockAt_withCtrs (v : Pavilion) (c : Tbl Counter) (pb : Nat) : mergeBlockAt (withCtrs v c) pb = mergeBlockAt v pb := rfl

/-- The operands and the block of a command of the merge engine are well formed. -/
def mergeFormed (o : MergeOps) (pb : Nat) (v : Pavilion) : Prop :=
  v.badWords = [] ∧ fmtKey o.vfmt.toNat = true ∧ o.dup ≠ 3 ∧ pb % 64 = 0 ∧ sramIn pb 64 = true ∧ (mergeBlockAt v pb).rsvd = 0

theorem mergeFormed_withCtrs {o : MergeOps} {pb : Nat} {v : Pavilion} (c : Tbl Counter) (h : mergeFormed o pb v) :
    mergeFormed o pb (withCtrs v c) :=
  h

theorem sramBads_clean {v : Pavilion} (hv : v.badWords = []) (rs : List (Nat × Nat)) : sramBads v rs = none := by
  simp [sramBads, sramBad_clean hv]

section
variable {s : State} {u : EngRef} {k : CmdHdr} {o : MergeOps} {iter pb : Nat}

theorem mergePre_formed {limit : MergeBlk → Bool} (hpb : pb = advance k.laa o.pb.toNat 64 iter) (h : mergeFormed o pb (pavAt s u.pav))
    (hlimit : limit (mergeBlockAt (pavAt s u.pav) pb) = true) :
    mergePre u k o iter s limit = .ok (pb, mergeBlockAt (pavAt s u.pav) pb) := by
  obtain ⟨hbad, hfmt, hdup, halign, hin, hrsvd⟩ := h
  unfold mergePre
  dsimp only
  rw [← hpb, if_neg (by simpa [hfmt] using hdup), if_neg (by simp [halign, hin]), sramBad_clean hbad]
  dsimp only
  exact if_neg (not_or.2 ⟨not_not.2 hrsvd, ne_false_of_eq_true hlimit⟩)

theorem mergeOut_clean {load : Pavilion → Pavilion} {f dst outn : Nat} {count : Bool} {rs : List MRec}
    (hbad : (load (pavAt s u.pav)).badWords = []) (hin : sramIn dst (rs.length * recordSize f count) = true) :
    mergeOut u s load f pb dst count rs outn = .ok (setPav s u.pav
      (withSram (load (pavAt s u.pav)) (memPuts (load (pavAt s u.pav)).sram (mergePuts f pb dst count rs outn)))) := by
  unfold mergeOut
  rw [if_neg (by simp [hin])]
  show Eff.ofWrite u s (sramWrites _ (mergePuts f pb dst count rs outn)) = _
  rw [sramWrites_clean hbad]
  rfl

end

/-! ### MMERGE -/

/-- The stream table of a merge: where each stream lies and how many records it has. -/
def streamTable (v : Pavilion) (b : MergeBlk) : List (Nat × Nat) :=
  (List.range b.n).map (fun i => (numAt (sramRead v (b.src + 8 * i) 8) 0 4, numAt (sramRead v (b.src + 8 * i) 8) 4 4))

/-- The records of each stream of a merge. -/
def streamRecords (o : MergeOps) (v : Pavilion) (b : MergeBlk) : List (List MRec) :=
  (streamTable v b).map (fun e => readRecords v o.vfmt.toNat e.1 e.2)

/-- The streams of a merge, their records marked. -/
def mergeStreams (o : MergeOps) (v : Pavilion) (b : MergeBlk) : List (List (MRec × Bool)) :=
  (streamRecords o v b).map (markStream o.vfmt.toNat o.key o.dir)

theorem map_markStream_readRecords (f : Nat) (byVal desc : Bool) (v : Pavilion) (tab : List (Nat × Nat)) :
    tab.map (fun e => markStream f byVal desc (readRecords v f e.1 e.2)) =
      (tab.map (fun e => readRecords v f e.1 e.2)).map (markStream f byVal desc) := by
  rw [List.map_map]
  rfl

/-- The records that a merge puts out. -/
def mergedRecords (o : MergeOps) (v : Pavilion) (b : MergeBlk) : List (MRec × Bool) :=
  dupMode o.vfmt.toNat o.key o.dup.toNat (mergeN o.vfmt.toNat o.key o.dir (sumN ((streamTable v b).map (·.2))) (mergeStreams o v b))

theorem streamTable_withCtrs (v : Pavilion) (c : Tbl Counter) (b : MergeBlk) : streamTable (withCtrs v c) b = streamTable v b := rfl

theorem mergeStreams_withCtrs (o : MergeOps) (v : Pavilion) (c : Tbl Counter) (b : MergeBlk) :
    mergeStreams o (withCtrs v c) b = mergeStreams o v b :=
  rfl

theorem mergedRecords_withCtrs (o : MergeOps) (v : Pavilion) (c : Tbl Counter) (b : MergeBlk) :
    mergedRecords o (withCtrs v c) b = mergedRecords o v b := by
  simp only [mergedRecords, streamTable_withCtrs, mergeStreams_withCtrs]

/-- MMERGE on a pavilion. -/
def mmergePav (o : MergeOps) (pb : Nat) (v : Pavilion) : Pavilion :=
  { v with
    cursors := (streamTable v (mergeBlockAt v pb)).map (·.2)
    sram := memPuts v.sram (mergePuts o.vfmt.toNat pb (mergeBlockAt v pb).dst (o.dup == 2) ((mergedRecords o v (mergeBlockAt v pb)).map (·.1))
      (mergedRecords o v (mergeBlockAt v pb)).length) }

/-- MMERGE passes its checks: its table, its streams and its output lie in SRAM, and no record is out of order. -/
def mmergeChecked (o : MergeOps) (pb : Nat) (v : Pavilion) : Prop :=
  mergeFormed o pb v ∧ (mergeBlockAt v pb).n ≤ 16 ∧ sramIn (mergeBlockAt v pb).src (8 * (mergeBlockAt v pb).n) = true ∧
  (∀ e ∈ streamTable v (mergeBlockAt v pb), sramIn e.1 (e.2 * recordSize o.vfmt.toNat false) = true) ∧
  sramIn (mergeBlockAt v pb).dst ((mergedRecords o v (mergeBlockAt v pb)).length * recordSize o.vfmt.toNat (o.dup == 2)) = true ∧
  ∀ m ∈ mergeStreams o v (mergeBlockAt v pb), ∀ e ∈ m, e.2 = false

theorem sram_mmergePav (o : MergeOps) (pb : Nat) (v : Pavilion) : (mmergePav o pb v).sram = memPuts v.sram
    (mergePuts o.vfmt.toNat pb (mergeBlockAt v pb).dst (o.dup == 2) ((mergedRecords o v (mergeBlockAt v pb)).map (·.1))
      (mergedRecords o v (mergeBlockAt v pb)).length) := by
  simp only [mmergePav]

theorem ctrsApart_mmergePav (o : MergeOps) (pb : Nat) : ctrsApart (mmergePav o pb) := by
  intro v c
  simp only [mmergePav, mergeBlockAt_withCtrs, streamTable_withCtrs, mergedRecords_withCtrs]
  simp only [withCtrs]

theorem mmergeChecked_withCtrs {o : MergeOps} {pb : Nat} (v : Pavilion) (c : Tbl Counter) (h : mmergeChecked o pb v) :
    mmergeChecked o pb (withCtrs v c) := by
  obtain ⟨hformed, hrest⟩ := h
  refine ⟨mergeFormed_withCtrs c hformed, ?_⟩
  simpa only [mergeBlockAt_withCtrs, streamTable_withCtrs, mergeStreams_withCtrs, mergedRecords_withCtrs] using hrest

theorem effMmerge_checked {s : State} {u : EngRef} {k : CmdHdr} {o : MergeOps} {iter pb : Nat} (hpb : pb = advance k.laa o.pb.toNat 64 iter)
    (h : mmergeChecked o pb (pavAt s u.pav)) : effMmerge u k o iter s = .ok (setPav s u.pav (mmergePav o pb (pavAt s u.pav))) := by
  obtain ⟨hformed, hn, htab, hstreams, hdst, hmarks⟩ := h
  have hbad := hformed.1
  unfold effMmerge
  rw [mergePre_formed hpb hformed (decide_eq_true hn), mmergePav]
  clear hformed
  generalize mergeBlockAt (pavAt s u.pav) pb = b at *
  have hlies : (!sramIn b.src (8 * b.n) ||
      !((streamTable (pavAt s u.pav) b).map (fun e => (e.1, e.2 * recordSize o.vfmt.toNat false))).all (fun r => sramIn r.1 r.2)) = false := by
    simpa [htab] using hstreams
  have hunmarked : (((mergeStreams o (pavAt s u.pav) b).flatMap id).filter (·.2)).isEmpty = true := by
    simpa [List.flatMap, List.filter_eq_nil_iff] using hmarks
  refine (if_neg (Bool.eq_false_iff.1 hlies)).trans ?_
  rw [sramBads_clean hbad]
  dsimp only
  rw [map_markStream_readRecords, mergeOut_clean hbad (by rw [List.length_map]; exact hdst)]
  dsimp only
  exact congrArg Eff.ok (if_pos hunmarked)

theorem exec_mmerge {s : State} {u : EngRef} {q : QCmd} {k : CmdHdr} {o : MergeOps} (h : issues s u q) (hc : q.cmd = ⟨k, .mmerge o⟩)
    (hv : mmergeChecked o (advance k.laa o.pb.toNat 64 q.iter) (pavAt s u.pav)) :
    exec (.mmerge u {} k o) s =
      .next (issued (setPav s u.pav (mmergePav o (advance k.laa o.pb.toNat 64 q.iter) (pavAt s u.pav))) u q .notSent) := by
  have hissue := issueOp_checked h hc (ctrsApart_mmergePav o _) mmergeChecked_withCtrs (f := effMmerge u k o)
    (fun _ ht => effMmerge_checked rfl ht) hv
  exact hissue

theorem map_fst_mergeStreams (o : MergeOps) (v : Pavilion) (b : MergeBlk) :
    (mergeStreams o v b).flatten.map (·.1) = (streamRecords o v b).flatten := by
  rw [mergeStreams, List.map_flatten, List.map_map]
  simp only [Function.comp_def, map_fst_markStream, List.map_id']

theorem length_mergeStreams (o : MergeOps) (v : Pavilion) (b : MergeBlk) :
    (mergeStreams o v b).flatten.length = sumN ((streamTable v b).map (·.2)) := by
  rw [← List.length_map (f := (·.1)), map_fst_mergeStreams, sumN, ← List.sum_eq_foldl_nat, List.length_flatten, streamRecords, List.map_map]
  simp [Function.comp_def, readRecords]

/-- An index merge of streams in order that keeps every record is in order and loses none. -/
theorem mergedRecords_index {o : MergeOps} {v : Pavilion} {b : MergeBlk} (hkey : o.key = false) (hdir : o.dir = false) (hdup : o.dup = 0)
    (hmarks : ∀ m ∈ mergeStreams o v b, ∀ e ∈ m, e.2 = false) :
    ((mergedRecords o v b).map (·.1)).Perm (streamRecords o v b).flatten ∧
      ((mergedRecords o v b).map (·.1)).Pairwise (fun a c => a.index ≤ c.index) := by
  have hmerged : mergedRecords o v b = mergeN o.vfmt.toNat false false (sumN ((streamTable v b).map (·.2))) (mergeStreams o v b) := by
    simp [mergedRecords, hdup, hkey, hdir, dupMode_keepAll]
  have hordered : ∀ m ∈ mergeStreams o v b, indexOrdered m := by
    intro m hm
    have hmark := hmarks m hm
    rw [mergeStreams, hkey, hdir] at hm
    obtain ⟨rs, -, rfl⟩ := List.mem_map.1 hm
    exact indexOrdered_markStream hmark
  rw [hmerged]
  refine ⟨?_, List.pairwise_map.2 (indexOrdered_mergeN hordered)⟩
  rw [← map_fst_mergeStreams]
  exact (mergeN_perm (length_mergeStreams o v b).le).map _

/-! ### MSORT and MTOPK -/

theorem sortedRecords_withCtrs (v : Pavilion) (c : Tbl Counter) (o : MergeOps) (b : MergeBlk) :
    sortedRecords (withCtrs v c) o b = sortedRecords v o b :=
  rfl

/-- Sorting on a pavilion, `outn` of the sorted records being put out. -/
def sortPav (o : MergeOps) (pb : Nat) (outn : MergeBlk → Nat → Nat) (v : Pavilion) : Pavilion :=
  { v with
    sortBuf := (sortedRecords v o (mergeBlockAt v pb)).map (fun r => (BitVec.ofNat 32 r.index, BitVec.ofNat 32 r.count, BitVec.ofNat 64 r.val))
    sram := memPuts v.sram (mergePuts o.vfmt.toNat pb (mergeBlockAt v pb).src (o.dup == 2) (sortedRecords v o (mergeBlockAt v pb))
      (outn (mergeBlockAt v pb) (sortedRecords v o (mergeBlockAt v pb)).length)) }

/-- A sort passes its checks: it meets its limits, and its records lie in SRAM before and after. -/
def sortChecked (o : MergeOps) (pb : Nat) (limit : MergeBlk → Bool) (v : Pavilion) : Prop :=
  mergeFormed o pb v ∧ (mergeBlockAt v pb).n ≤ 4096 ∧ limit (mergeBlockAt v pb) = true ∧
  sramIn (mergeBlockAt v pb).src ((mergeBlockAt v pb).n * recordSize o.vfmt.toNat false) = true ∧
  sramIn (mergeBlockAt v pb).src ((sortedRecords v o (mergeBlockAt v pb)).length * recordSize o.vfmt.toNat (o.dup == 2)) = true

section
variable {s : State} {u : EngRef} {k : CmdHdr} {o : MergeOps} {limit : MergeBlk → Bool} {outn : MergeBlk → Nat → Nat}

theorem sram_sortPav (o : MergeOps) (pb : Nat) (outn : MergeBlk → Nat → Nat) (v : Pavilion) : (sortPav o pb outn v).sram = memPuts v.sram
    (mergePuts o.vfmt.toNat pb (mergeBlockAt v pb).src (o.dup == 2) (sortedRecords v o (mergeBlockAt v pb))
      (outn (mergeBlockAt v pb) (sortedRecords v o (mergeBlockAt v pb)).length)) := by
  simp only [sortPav]

theorem ctrsApart_sortPav (o : MergeOps) (pb : Nat) (outn : MergeBlk → Nat → Nat) : ctrsApart (sortPav o pb outn) := by
  intro v c
  simp only [sortPav, mergeBlockAt_withCtrs, sortedRecords_withCtrs]
  simp only [withCtrs]

theorem sortChecked_withCtrs {pb : Nat} (v : Pavilion) (c : Tbl Counter) (h : sortChecked o pb limit v) :
    sortChecked o pb limit (withCtrs v c) := by
  obtain ⟨hformed, hrest⟩ := h
  refine ⟨mergeFormed_withCtrs c hformed, ?_⟩
  simpa only [mergeBlockAt_withCtrs, sortedRecords_withCtrs] using hrest

theorem effSort_checked {iter pb : Nat} (hpb : pb = advance k.laa o.pb.toNat 64 iter) (h : sortChecked o pb limit (pavAt s u.pav)) :
    effSort u k o iter s limit outn = .ok (setPav s u.pav (sortPav o pb outn (pavAt s u.pav))) := by
  obtain ⟨hformed, hn, hlimit, hsrc, hdst⟩ := h
  have hbad := hformed.1
  unfold effSort
  rw [mergePre_formed hpb hformed (Bool.and_eq_true_iff.2 ⟨decide_eq_true hn, hlimit⟩)]
  dsimp only
  rw [if_neg (by simp [hsrc]), sramBad_clean hbad]
  dsimp only
  rw [mergeOut_clean hbad hdst]
  simp only [sortPav, withSram]

theorem issueOp_sort {q : QCmd} {op : EngOp} (h : issues s u q) (hc : q.cmd = ⟨k, op⟩)
    (hv : sortChecked o (advance k.laa o.pb.toNat 64 q.iter) limit (pavAt s u.pav)) :
    issueOp u {} k op (fun i s => effSort u k o i s limit outn) s =
      .next (issued (setPav s u.pav (sortPav o (advance k.laa o.pb.toNat 64 q.iter) outn (pavAt s u.pav))) u q .notSent) := by
  have hissue := issueOp_checked h hc (ctrsApart_sortPav o _ outn) sortChecked_withCtrs (f := fun i s => effSort u k o i s limit outn)
    (fun _ ht => effSort_checked rfl ht) hv
  exact hissue

end

/-! ### MFILT -/

/-- The records of SRC that pass the test. -/
def filteredRecords (o : MergeOps) (v : Pavilion) (b : MergeBlk) : List MRec :=
  (readRecords v o.vfmt.toNat b.src b.n).filter (filterTest o.vfmt.toNat o.fop.toNat o.key b)

theorem filteredRecords_withCtrs (o : MergeOps) (v : Pavilion) (c : Tbl Counter) (b : MergeBlk) :
    filteredRecords o (withCtrs v c) b = filteredRecords o v b :=
  rfl

/-- MFILT on a pavilion. -/
def mfiltPav (o : MergeOps) (pb : Nat) (v : Pavilion) : Pavilion :=
  { v with
    sram := memPuts v.sram (mergePuts o.vfmt.toNat pb (mergeBlockAt v pb).dst false (filteredRecords o v (mergeBlockAt v pb))
      (filteredRecords o v (mergeBlockAt v pb)).length) }

/-- MFILT passes its checks: its test is one, and its records lie in SRAM before and after. -/
def mfiltChecked (o : MergeOps) (pb : Nat) (v : Pavilion) : Prop :=
  mergeFormed o pb v ∧ o.dup = 0 ∧ o.fop ≠ 7 ∧
  sramIn (mergeBlockAt v pb).src ((mergeBlockAt v pb).n * recordSize o.vfmt.toNat false) = true ∧
  sramIn (mergeBlockAt v pb).dst ((filteredRecords o v (mergeBlockAt v pb)).length * recordSize o.vfmt.toNat false) = true

theorem sram_mfiltPav (o : MergeOps) (pb : Nat) (v : Pavilion) : (mfiltPav o pb v).sram = memPuts v.sram
    (mergePuts o.vfmt.toNat pb (mergeBlockAt v pb).dst false (filteredRecords o v (mergeBlockAt v pb))
      (filteredRecords o v (mergeBlockAt v pb)).length) := by
  simp only [mfiltPav]

theorem ctrsApart_mfiltPav (o : MergeOps) (pb : Nat) : ctrsApart (mfiltPav o pb) := by
  intro v c
  simp only [mfiltPav, mergeBlockAt_withCtrs, filteredRecords_withCtrs]
  simp only [withCtrs]

theorem mfiltChecked_withCtrs {o : MergeOps} {pb : Nat} (v : Pavilion) (c : Tbl Counter) (h : mfiltChecked o pb v) :
    mfiltChecked o pb (withCtrs v c) := by
  obtain ⟨hformed, hrest⟩ := h
  refine ⟨mergeFormed_withCtrs c hformed, ?_⟩
  simpa only [mergeBlockAt_withCtrs, filteredRecords_withCtrs] using hrest

theorem effMfilt_checked {s : State} {u : EngRef} {k : CmdHdr} {o : MergeOps} {iter pb : Nat} (hpb : pb = advance k.laa o.pb.toNat 64 iter)
    (h : mfiltChecked o pb (pavAt s u.pav)) : effMfilt u k o iter s = .ok (setPav s u.pav (mfiltPav o pb (pavAt s u.pav))) := by
  obtain ⟨hformed, hdup, hfop, hsrc, hdst⟩ := h
  have hbad := hformed.1
  have hkeepAll : o.dup.toNat = 0 := congrArg BitVec.toNat hdup
  have hcount : (o.dup == 2) = false := by simp [hdup]
  unfold effMfilt
  rw [mergePre_formed hpb hformed (by simpa using hfop)]
  dsimp only
  rw [if_neg (by simp [hsrc]), sramBad_clean hbad]
  dsimp only
  rw [hkeepAll, dupMode_unmarked, hcount]
  exact mergeOut_clean (load := id) hbad hdst

theorem exec_mfilt {s : State} {u : EngRef} {q : QCmd} {k : CmdHdr} {o : MergeOps} (h : issues s u q) (hc : q.cmd = ⟨k, .mfilt o⟩)
    (hv : mfiltChecked o (advance k.laa o.pb.toNat 64 q.iter) (pavAt s u.pav)) :
    exec (.mfilt u {} k o) s =
      .next (issued (setPav s u.pav (mfiltPav o (advance k.laa o.pb.toNat 64 q.iter) (pavAt s u.pav))) u q .notSent) := by
  have hissue := issueOp_checked h hc (ctrsApart_mfiltPav o _) mfiltChecked_withCtrs (f := effMfilt u k o)
    (fun _ ht => effMfilt_checked rfl ht) hv
  exact hissue

/-! ### The obligation -/

theorem mmergePav_rest (o : MergeOps) (pb : Nat) (v : Pavilion) : mmergePav o pb v =
    { v with sram := (mmergePav o pb v).sram, cursors := (streamTable v (mergeBlockAt v pb)).map (·.2) } := by
  simp only [mmergePav]

theorem sortPav_rest (o : MergeOps) (pb : Nat) (outn : MergeBlk → Nat → Nat) (v : Pavilion) :
    sortPav o pb outn v = { v with sram := (sortPav o pb outn v).sram, sortBuf := (sortPav o pb outn v).sortBuf } := by
  simp only [sortPav]

theorem mfiltPav_rest (o : MergeOps) (pb : Nat) (v : Pavilion) : mfiltPav o pb v = { v with sram := (mfiltPav o pb v).sram } := by
  simp only [mfiltPav]

/-- With the range test, a record passes when it was read and its index lies in the range (R113). -/
theorem mem_filteredRecords_range {o : MergeOps} {v : Pavilion} {b : MergeBlk} (hfop : o.fop = 6) {r : MRec} :
    r ∈ filteredRecords o v b ↔ r ∈ readRecords v o.vfmt.toNat b.src b.n ∧ b.lo ≤ r.index ∧ r.index ≤ b.hi := by
  have hrange : o.fop.toNat = 6 := congrArg BitVec.toNat hfop
  simp [filteredRecords, List.mem_filter, hrange, filterTest]

/-- What MMERGE leaves in data SRAM: the merged records and OUTN. -/
theorem mmergePav_reads (o : MergeOps) (pb : Nat) (v : Pavilion) :
    let b := mergeBlockAt v pb
    let out := mergedRecords o v b
    let len := out.length * recordSize o.vfmt.toNat (o.dup == 2)
    let w := mmergePav o pb v
    (∀ i, (i < b.dst ∨ b.dst + len ≤ i) → (i < pb + 32 ∨ pb + 36 ≤ i) → memRead w.sram i = memRead v.sram i) ∧
    (Memory.wf v.sram = true → sramRead w (pb + 32) 4 = natLe 4 out.length ∧
      ((b.dst + len ≤ pb + 32 ∨ pb + 36 ≤ b.dst) →
        sramRead w b.dst len = out.flatMap (fun r => recordBytes o.vfmt.toNat (o.dup == 2) r.1))) := by
  have hreads := mergePuts_reads (sram_mmergePav o pb v)
  rw [List.length_map, List.flatMap_map] at hreads
  exact hreads

/-- Settles O14: each command is a function of its pavilion's SRAM; the merge of streams loses no record, and the sort is an insertion
sort. -/
theorem mergeEngine : Obligations.MergeEngine := by
  refine ⟨fun s u q k o h hc => ?_, fun s u q k o h => ?_, fun s u q k o h hc => ?_⟩
  · dsimp only
    intro hbad hfmt hdup halign hpb hrsvd hn htab hstreams hdst hmarks
    obtain ⟨hframe, hread⟩ := mmergePav_reads o (advance k.laa o.pb.toNat 64 q.iter) (pavAt s u.pav)
    exact ⟨_, exec_mmerge h hc ⟨⟨hbad, hfmt, hdup, halign, hpb, hrsvd⟩, hn, htab, hstreams, hdst, hmarks⟩, mmergePav_rest _ _ _, hframe, hread,
      fun hkey hdir hkeepAll => mergedRecords_index hkey hdir hkeepAll hmarks⟩
  · dsimp only
    intro hbad hfmt hdup halign hpb hrsvd hn hsrc hdst
    have hformed : mergeFormed o (advance k.laa o.pb.toNat 64 q.iter) (pavAt s u.pav) := ⟨hbad, hfmt, hdup, halign, hpb, hrsvd⟩
    refine ⟨fun hc => ?_, fun hc hk => ?_, fun hkey hkeepAll => ?_⟩
    · obtain ⟨hframe, hread⟩ := mergePuts_reads (sram_sortPav o (advance k.laa o.pb.toNat 64 q.iter) (fun _ n => n) (pavAt s u.pav))
      exact ⟨_, issueOp_sort h hc (limit := fun _ => true) ⟨hformed, hn, rfl, hsrc, hdst⟩, sortPav_rest _ _ _ _, hframe, hread⟩
    · obtain ⟨hframe, hread⟩ := mergePuts_reads (sram_sortPav o (advance k.laa o.pb.toNat 64 q.iter) (fun b _ => min b.k b.n) (pavAt s u.pav))
      exact ⟨_, issueOp_sort h hc (limit := fun b => decide (b.k ≤ 4096)) ⟨hformed, hn, decide_eq_true hk, hsrc, hdst⟩,
        sortPav_rest _ _ _ _, hframe, hread⟩
    · rw [sortedRecords_keepAll hkeepAll, hkey]
      exact ⟨sortBy_perm _ _, sortBy_index_pairwise _ _ _⟩
  · dsimp only
    intro hbad hfmt hdup hfop halign hpb hrsvd hsrc hdst
    obtain ⟨hframe, hread⟩ := mergePuts_reads (sram_mfiltPav o (advance k.laa o.pb.toNat 64 q.iter) (pavAt s u.pav))
    exact ⟨_, exec_mfilt h hc ⟨⟨hbad, hfmt, by simp [hdup], halign, hpb, hrsvd⟩, hdup, hfop, hsrc, hdst⟩, mfiltPav_rest _ _ _, hframe, hread,
      fun hrange r => mem_filteredRecords_range hrange⟩

end Sys2Proof.Machine
end

section
/-! PROOF. The words of the engines' commands (R128, R129): a field of an appended word is a field of one of its parts, so every field is read
where the encoder puts it. -/

namespace Sys2Proof.Machine

/-! ### Fields of appended words -/

section
variable {m n lo len : Nat}

theorem fld_append_low (a : BitVec m) (b : BitVec n) (h : lo + len ≤ n) : fld (a ++ b) lo len = fld b lo len := by
  refine BitVec.eq_of_getLsbD_eq fun i hi => ?_
  have hlow : lo + i < n := by omega
  simp [fld, BitVec.getLsbD_append, hi, hlow]

theorem fld_append_high (a : BitVec m) (b : BitVec n) (h : n ≤ lo) : fld (a ++ b) lo len = fld a (lo - n) len := by
  refine BitVec.eq_of_getLsbD_eq fun i hi => ?_
  have hhigh : ¬ lo + i < n := by omega
  have hshift : lo + i - n = lo - n + i := by omega
  simp [fld, BitVec.getLsbD_append, hi, hhigh, hshift]

theorem fld_whole (v : BitVec n) (h : lo = 0) : fld v lo n = v := by
  rw [h, fld, BitVec.extractLsb'_eq_self]

theorem flg_append_low (a : BitVec m) (b : BitVec n) (h : lo + 1 ≤ n) : flg (a ++ b) lo = flg b lo :=
  congrArg (· == 1) (fld_append_low a b h)

theorem flg_append_high (a : BitVec m) (b : BitVec n) (h : n ≤ lo) : flg (a ++ b) lo = flg a (lo - n) :=
  congrArg (· == 1) (fld_append_high a b h)

theorem flg_bit1 (b : Bool) (h : lo = 0) : flg (bit1 b) lo = b := by
  subst h
  cases b <;> rfl

end

/-! ### Reading back -/

theorem decHdr_encHdr (opc : BitVec 8) (eng : BitVec 4) (h : CmdHdr) : decHdr (encHdr opc eng h) = h := by
  simp (disch := decide) only [decHdr, encHdr, fld_append_low, fld_append_high, fld_whole, flg_append_low, flg_append_high, flg_bit1]

theorem opcode_encHdr (opc : BitVec 8) (eng : BitVec 4) (h : CmdHdr) : fld (encHdr opc eng h) 56 8 = opc := by
  simp (disch := decide) only [encHdr, fld_append_high, fld_whole]

theorem decTile_encTile (o : TileMem) : decTile (encTile o) = o := by
  simp (disch := decide) only [decTile, encTile, fld_append_low, fld_append_high, fld_whole]

theorem decSel_encSel (b : BSel) : decSel (encSel b) = b := by
  simp (disch := decide) only [decSel, encSel, fld_append_low, fld_append_high, fld_whole]

theorem decMerge_encMerge (o : MergeOps) : decMerge (encMerge o) = o := by
  simp (disch := decide) only [decMerge, encMerge, fld_append_low, fld_append_high, fld_whole, flg_append_low, flg_append_high, flg_bit1]

/-- Every field of an operation stands where its opcode's table puts it, on an engine that takes it (R129). -/
theorem decOp_encOps {eng : Nat} {op : EngOp} (h : opOnEng eng op = true) : decOp eng (opcOf op).toNat (encOps op) = some op := by
  cases op
  case nop | endloop | halt => rfl
  case mcopy | msig =>
    obtain rfl | rfl : eng = 4 ∨ eng = 5 := by simpa [opOnEng] using h
    all_goals
      refine congrArg some ?_
      simp (disch := decide) only [encOps, fld_append_low, fld_append_high, fld_whole]
  case loop | frame | mark =>
    refine congrArg some ?_
    simp (disch := decide) only [encOps, fld_append_low, fld_append_high, fld_whole, flg_append_low, flg_append_high, flg_bit1]
  all_goals
    obtain rfl := eq_of_beq h
    refine congrArg some ?_
    simp (disch := decide) only [encOps, fld_append_low, fld_append_high, fld_whole, flg_append_low, flg_append_high, flg_bit1,
      decTile_encTile, decSel_encSel, decMerge_encMerge]

/-- The three parts of a command's word: opcode, common fields and operands (R128). -/
theorem fields_encodeCmd (eng : Nat) (c : EngCmd) :
    fld (encodeCmd eng c) 120 8 = opcOf c.op ∧ fld (encodeCmd eng c) 64 64 = encHdr (opcOf c.op) (BitVec.ofNat 4 eng) c.hdr ∧
    fld (encodeCmd eng c) 0 64 = encOps c.op := by
  refine ⟨?_, ?_, ?_⟩
  · rw [encodeCmd, fld_append_high _ _ (by decide)]
    exact opcode_encHdr _ _ _
  · rw [encodeCmd, fld_append_high _ _ (by decide), fld_whole _ rfl]
  · rw [encodeCmd, fld_append_low _ _ (by decide), fld_whole _ rfl]

/-- Settles O5: the fields of the common word and of each opcode's operand word are read where they were put. -/
theorem encodedCommandsDecode : Obligations.EncodedCommandsDecode := by
  intro eng c hop hok
  obtain ⟨hopc, hhdr, hops⟩ := fields_encodeCmd eng c
  have hread : ({ hdr := decHdr (fld (encodeCmd eng c) 64 64), op := c.op } : EngCmd) = c := by rw [hhdr, decHdr_encHdr]
  unfold decodeCmd
  rw [hopc, hops, decOp_encOps hop]
  dsimp only
  rw [hread, if_pos ⟨rfl, hok⟩]

end Sys2Proof.Machine
end

section
/-! PROOF. The head of an engine's queue (R130, R131, R133, R171, R184): what its issue changes in its engine, its wait counter and its plot, and
that every command's row is the one shared operation. -/

namespace Sys2Proof.Machine
open Sys2Proof.Safety

/-! ### An engine of a pavilion -/

section
variable (s : State) (u : EngRef) (x : Engine)

@[simp] theorem engAt_setEng_same : engAt (setEng s u x) u = x := by
  simp only [engAt, setEng, pavAt_modPav_same, tblGet_tblSet_same]

theorem engAt_setEng_ne {g : Nat} (h : g ≠ u.eng) : engAt (setEng s u x) ⟨u.pav, g⟩ = engAt s ⟨u.pav, g⟩ := by
  simp only [engAt, setEng, pavAt_modPav_same, tblGet_tblSet_ne _ _ _ h]

theorem pavAt_setEng_same : pavAt (setEng s u x) u.pav =
    { pavAt s u.pav with engines := tblSet (pavAt s u.pav).engines u.eng x } := pavAt_modPav_same s u.pav _

theorem pavAt_setEng_ne {i : Nat} (h : i ≠ u.pav) : pavAt (setEng s u x) i = pavAt s i := pavAt_modPav_ne s _ h

@[simp] theorem ctrAt_setEng (i j : Nat) : ctrAt (setEng s u x) i j = ctrAt s i j := by
  by_cases h : i = u.pav
  · subst h
    rw [ctrAt, pavAt_setEng_same, ctrAt]
  · rw [ctrAt, pavAt_setEng_ne s u x h, ctrAt]

@[simp] theorem engPlot_setEng (w : EngRef) : engPlot (setEng s u x) w = engPlot s w := rfl

end

/-! ### The wait counter (R131) -/

section
variable (s : State) (u : EngRef) (k : CmdHdr)

theorem ctrAt_consumeWait_same : ctrAt (consumeWait s u k) u.pav k.wctr.toNat =
    let c := ctrAt s u.pav k.wctr.toNat
    if k.w ∧ k.wdec then { c with value := c.value - k.wthr.setWidth 16 } else c := by
  unfold ctrAt
  rw [pavAt_consumeWait]
  simp only [withCtrs, waitCtrs, ctrAt, Bool.and_eq_true]
  split
  · rw [tblGet_tblSet_same]
  · rfl

theorem ctrAt_consumeWait_ne {j : Nat} (h : j ≠ k.wctr.toNat) : ctrAt (consumeWait s u k) u.pav j = ctrAt s u.pav j := by
  unfold ctrAt
  rw [pavAt_consumeWait]
  simp only [withCtrs, waitCtrs]
  split
  · rw [tblGet_tblSet_ne _ _ _ h]
  · rfl

theorem engAt_consumeWait_pav (g : Nat) : engAt (consumeWait s u k) ⟨u.pav, g⟩ = engAt s ⟨u.pav, g⟩ := by
  unfold engAt
  rw [pavAt_consumeWait]
  rfl

end

/-! ### The plot of an engine has moved (R184) -/

/-- The state once the plot that an engine works for has moved. -/
def plotMoved (s : State) (u : EngRef) : State :=
  match engPlot s u with
  | some n => moved s n
  | none => s

section
variable (s : State) (u : EngRef)

theorem plotMoved_rest : plotMoved s u = { s with plots := (plotMoved s u).plots } := by
  unfold plotMoved
  split <;> rfl

@[simp] theorem pavAt_plotMoved (i : Nat) : pavAt (plotMoved s u) i = pavAt s i := by
  rw [plotMoved_rest]
  rfl

theorem plotAt_plotMoved (n : Nat) :
    plotAt (plotMoved s u) n = if engPlot s u = some n then { plotAt s n with moved := true } else plotAt s n := by
  unfold plotMoved
  split
  case h_1 m hm =>
    by_cases hn : n = m
    · subst hn
      rw [if_pos hm]
      exact plotAt_modPlot_same s n _
    · rw [if_neg (by rw [hm]; exact fun h => hn (Option.some.inj h).symm)]
      exact plotAt_modPlot_ne s _ hn
  case h_2 hnone => rw [if_neg (by simp [hnone])]

end

/-! ### A head that issues (R131, R133, R171) -/

/-- The engine once its head has issued. -/
def headLeft (e : Engine) (q : QCmd) (sig : SigState) : Engine :=
  { e with
    queue := e.queue.tail
    inflight := e.inflight ++ [⟨q.cmd, sig, e.nsig⟩]
    passBreak := false
    mode := if e.stepsLeft.any (fun n => decide (n ≤ 1)) then .frozen else .running
    stepsLeft := e.stepsLeft.bind (fun n => if n ≤ 1 then none else some (n - 1)) }

theorem headIssued_eq (s : State) (u : EngRef) (q : QCmd) (sig : SigState) :
    headIssued s u q sig = plotMoved (setEng s u (headLeft (engAt s u) q sig)) u := by
  refine congrArg (fun e => plotMoved (setEng s u e) u) (?_ : _ = headLeft (engAt s u) q sig)
  unfold headLeft
  cases hsteps : (engAt s u).stepsLeft with
  | none => simp only [hsteps, Option.any_none, Option.bind_none, Bool.false_eq_true, if_false]
  | some k =>
    by_cases hk : k ≤ 1
    · simp only [hsteps, if_pos hk, Option.any_some, decide_eq_true hk, Option.bind_some, if_true]
    · simp only [hsteps, if_neg hk, Option.any_some, decide_eq_false hk, Option.bind_some, Bool.false_eq_true, if_false]

theorem issued_eq (s : State) (u : EngRef) (q : QCmd) (sig : SigState) : issued s u q sig =
    settle (plotMoved (setEng (consumeWait s u q.cmd.hdr) u (headLeft (engAt s u) q sig)) u) := by
  rw [issued, headIssued_eq, engAt_consumeWait]

/-! ### The row of a command -/

/-- Whatever a command's effect is, its row is that of the shared operation. -/
theorem exec_cmdRow (u : EngRef) (x : Upset) (k : CmdHdr) (op : EngOp) (s : State) :
    ∃ sig f, exec (cmdRow u x k op) s = done (issueCmd u x ⟨k, op⟩ sig f s) := by
  cases op with
  | msig o => exact ⟨.onTheWay, effMsig u o, rfl⟩
  | _ => exact ⟨.notSent, _, rfl⟩

/-- Settles O7: a head that issues changes its engine, its wait counter and its plot, each by a law of its own; every row is one shared
operation, which a head that may not issue leaves without effect. -/
theorem headOfTheQueue : Obligations.HeadOfTheQueue := by
  refine ⟨fun s u q sig => ?_, fun s u k op => ⟨fun q hq hc hr hw => ?_, fun x q hq hnot => ?_, fun x hq => ?_⟩⟩
  · intro e t k c
    have ht : t = settle (plotMoved (setEng (consumeWait s u k) u (headLeft e q sig)) u) := issued_eq s u q sig
    have hpav (i : Nat) : pavAt t i = pavAt (setEng (consumeWait s u k) u (headLeft e q sig)) i := by rw [ht, pavAt_settle, pavAt_plotMoved]
    refine ⟨?_, ?_, fun j hj => ?_, fun g hg => ?_, ?_, fun i hi => ?_, fun n => ?_, ?_⟩
    · rw [engAt, hpav]
      exact engAt_setEng_same _ _ _
    · rw [ctrAt, hpav]
      exact (ctrAt_setEng _ _ _ _ _).trans (ctrAt_consumeWait_same s u k)
    · rw [ctrAt, hpav]
      exact (ctrAt_setEng _ _ _ _ _).trans (ctrAt_consumeWait_ne s u k hj)
    · rw [engAt, hpav]
      exact (engAt_setEng_ne _ _ _ hg).trans (engAt_consumeWait_pav s u k g)
    · rw [hpav, pavAt_setEng_same, pavAt_consumeWait]
      rfl
    · rw [hpav, pavAt_setEng_ne _ _ _ hi, pavAt_consumeWait_ne s u k hi]
    · rw [ht, plotAt_settle, plotAt_plotMoved]
      simp only [engPlot_setEng, engPlot_consumeWait, plotAt_setEng, plotAt_consumeWait]
    · rw [ht, plotMoved_rest, consumeWait_rest]
      rfl
  · obtain ⟨sig, f, hrow⟩ := exec_cmdRow u {} k op s
    rw [hrow, issueCmd_wait hq hc hr hw]
    simp only [done, beq_iff_eq]
  · obtain ⟨sig, f, hrow⟩ := exec_cmdRow u x k op s
    rw [hrow, issueCmd_not hq hnot]
    rfl
  · obtain ⟨sig, f, hrow⟩ := exec_cmdRow u x k op s
    rw [hrow, issueCmd_empty hq]
    rfl

end Sys2Proof.Machine
end

section
/-! PROOF. The control and scalar commands (R101, R139, R145, Tables 5.3 and 5.9). -/

namespace Sys2Proof.Machine
open Sys2Proof.Safety

/-! ### Scalar operations (Table 5.9) -/

/-- The result of a scalar operation on words. -/
def saluWord (op : Nat) (a b : BitVec 32) : BitVec 32 :=
  match op with
  | 0x0 => a + b
  | 0x1 => a - b
  | 0x2 => a &&& b
  | 0x3 => a ||| b
  | 0x4 => a ^^^ b
  | 0x5 => a <<< (b.toNat % 32)
  | 0x6 => a >>> (b.toNat % 32)
  | 0x7 => if a.toNat ≤ b.toNat then a else b
  | 0x8 => if a.toNat ≤ b.toNat then b else a
  | 0x9 => a * b
  | _ => if b.toNat ≤ a.toNat then a - b else 0

theorem saluOp_toNat {op : Nat} (h : op ≤ 0xA) (a b : BitVec 32) :
    saluOp op a.toNat b.toNat = some (saluWord op a b).toNat := by
  have hb := b.isLt
  match op, h with
  | 0x0, _ => exact congrArg some (BitVec.toNat_add a b).symm
  | 0x1, _ =>
    refine congrArg some (Eq.trans ?_ (BitVec.toNat_sub a b).symm)
    rw [Nat.add_sub_assoc hb.le, Nat.add_comm]
  | 0x2, _ => exact congrArg some (BitVec.toNat_and a b).symm
  | 0x3, _ => exact congrArg some (BitVec.toNat_or a b).symm
  | 0x4, _ => exact congrArg some (BitVec.toNat_xor a b).symm
  | 0x5, _ => exact congrArg some (by rw [saluWord, BitVec.toNat_shiftLeft, Nat.shiftLeft_eq, shl32])
  | 0x6, _ => exact congrArg some (by rw [saluWord, BitVec.toNat_ushiftRight, Nat.shiftRight_eq_div_pow, shr32])
  | 0x7, _ => exact congrArg some ((Nat.min_def).trans (apply_ite BitVec.toNat _ a b).symm)
  | 0x8, _ => exact congrArg some ((Nat.max_def).trans (apply_ite BitVec.toNat _ b a).symm)
  | 0x9, _ => exact congrArg some (BitVec.toNat_mul a b).symm
  | 0xA, _ =>
    refine congrArg some (?_ : _ = (if b.toNat ≤ a.toNat then a - b else 0).toNat)
    split
    case isTrue hle => exact (BitVec.toNat_sub_of_le hle).symm
    case isFalse hle => exact Nat.sub_eq_zero_of_le (Nat.le_of_not_le hle)

/-! ### Commands that change their pavilion alone (R101, R145) -/

section
variable {s : State} {u : EngRef} {q : QCmd} {k : CmdHdr}

theorem exec_setvl {n : BitVec 10} (h : issues s u q) (hc : q.cmd = ⟨k, .setvl n⟩) (hn : n.toNat ≤ 512) :
    exec (.setvl u {} k n) s = .next (issued (setPav s u.pav { pavAt s u.pav with vl := n.toNat }) u q .notSent) :=
  issueOp_ctrsApart h hc (g := fun v => { v with vl := n.toNat }) (fun _ _ => rfl) (if_neg (Nat.not_lt.2 hn))

theorem exec_setvls {n : BitVec 5} (h : issues s u q) (hc : q.cmd = ⟨k, .setvls n⟩) :
    exec (.setvls u {} k n) s =
      .next (issued (setPav s u.pav { pavAt s u.pav with vl := min (scalar (pavAt s u.pav) n.toNat) 512 }) u q .notSent) :=
  issueOp_ctrsApart h hc (g := fun v => { v with vl := min (scalar v n.toNat) 512 }) (fun _ _ => rfl) rfl

theorem exec_sli {d : BitVec 5} {imm : BitVec 32} (h : issues s u q) (hc : q.cmd = ⟨k, .sli d imm⟩) :
    exec (.sli u {} k d imm) s = .next (issued (setPav s u.pav (setScalar (pavAt s u.pav) d.toNat imm.toNat)) u q .notSent) :=
  issueOp_ctrsApart h hc (g := fun v => setScalar v d.toNat imm.toNat) (fun _ _ => rfl) rfl

/-- The second operand of SALU: the sign-extended immediate or a register (R145). -/
def saluArg (o : SaluOps) (v : Pavilion) : BitVec 32 := if o.i then o.imm.signExtend 32 else tblGet 0 v.scalars o.b.toNat

theorem effSalu_eq {o : SaluOps} (ho : o.op.toNat ≤ 0xA) (u : EngRef) (iter : Nat) (s : State) :
    effSalu u o iter s = .ok (setPav s u.pav (setScalar (pavAt s u.pav) o.d.toNat
      (saluWord o.op.toNat (tblGet 0 (pavAt s u.pav).scalars o.a.toNat) (saluArg o (pavAt s u.pav))).toNat)) := by
  have harg : (if o.i then (o.imm.signExtend 32).toNat else scalar (pavAt s u.pav) o.b.toNat) = (saluArg o (pavAt s u.pav)).toNat :=
    (apply_ite BitVec.toNat _ _ _).symm
  unfold effSalu
  dsimp only
  rw [harg, scalar, saluOp_toNat ho]

theorem exec_salu {o : SaluOps} (h : issues s u q) (hc : q.cmd = ⟨k, .salu o⟩) (ho : o.op.toNat ≤ 0xA) :
    exec (.salu u {} k o) s = .next (issued (setPav s u.pav (setScalar (pavAt s u.pav) o.d.toNat
      (saluWord o.op.toNat (tblGet 0 (pavAt s u.pav).scalars o.a.toNat) (saluArg o (pavAt s u.pav))).toNat)) u q .notSent) :=
  issueOp_ctrsApart h hc (g := fun v => setScalar v o.d.toNat
    (saluWord o.op.toNat (tblGet 0 v.scalars o.a.toNat) (saluArg o v)).toNat) (fun _ _ => rfl) (effSalu_eq ho u q.iter _)

theorem setScalar_toNat (v : Pavilion) (n : Nat) (x : BitVec 32) : setScalar v n x.toNat = { v with scalars := tblSet v.scalars n x } := by
  rw [setScalar, BitVec.ofNat_toNat, BitVec.setWidth_eq]

end

/-- Settles O8: each effect leaves the wait counters alone, so the wait may be consumed before it or after it; SALU's arithmetic on numbers is
that on words. -/
theorem controlAndScalarCommands : Obligations.ControlAndScalarCommands := by
  refine ⟨fun s u q k h => ⟨fun hc => ?_, fun o hc => ?_, fun hc => ?_, fun hc => ?_, fun nf hc => ?_, fun v hc => ?_⟩,
    fun s u q k h => ⟨fun n hc hn => ?_, fun n hc => ?_, fun d imm hc => ?_, fun o hc ho => ?_⟩⟩
  · exact issueOp_ok h hc rfl
  · exact issueOp_ok h hc rfl
  · exact issueOp_ok h hc rfl
  · exact issueOp_ok h hc rfl
  · exact issueOp_ok h hc (congrArg Eff.ok (modEng_consumeWait s u k _))
  · exact issueOp_ok h hc (by rw [emit_consumeWait, engPlot_consumeWait])
  · exact exec_setvl h hc hn
  · exact exec_setvls h hc
  · rw [exec_sli h hc, setScalar_toNat]
  · rw [exec_salu h hc ho, setScalar_toNat]
    rfl

end Sys2Proof.Machine
end

section
/-! PROOF. The record of a failed check (R154, R371): it leaves with no argument, where the statements about failed checks give it two. -/

namespace Sys2Proof.Machine
open Sys2Proof.Safety

/-! ### The argument of a failed check's record -/

/-- The arguments of the class A records in their ring, oldest first (Table 16.3). -/
def ringArgs (t : Tele) : List (BitVec 64) := t.ringA.map (·.rec_.arg)

theorem ringArgs_of_failedCheck {s t : State} {u : EngRef} {tag : BitVec 16} {st : U16} {k : RecKind} (h : failedCheck s t u tag st k) :
    ringArgs t.tele = ringArgs (collectTele { (emit s k (srcPav u.pav) (engPlot s u) [(4, u.eng), (16, tag.toNat)]).tele with
      contained := s.tele.contained + bif (engPlot s u).isSome then 1 else 0 }) := by
  obtain ⟨-, -, -, -, -, hrest⟩ := h
  rw [hrest]

/-! ### A malformed word with TAG 1 -/

/-- A word with opcode 0xFF, which no engine has, and TAG 1. -/
def strayWord : BitVec 128 := BitVec.ofNat 128 (0xFF * 2 ^ 120 + 2 ^ 100)

/-- TILE of pavilion 0 is about to fetch that word. -/
def strayState : State := setEng State.reset ⟨0, 0⟩ { program := true, mode := .running, bank0 := [strayWord] }

theorem exec_strayState : exec (.commandFetch ⟨0, 0⟩ {}) strayState = .next (settle (engFail strayState ⟨0, 0⟩ 1 .malformed)) := rfl

/-- Refutes O18: by `failedCheck` the record of a failed check carries the engine and the TAG, and the model's ENGINE_MALFORMED carries no
argument, as no rule names one (Table 16.3); fetching a malformed word with TAG 1 leaves the argument 0 in ring A where the statement has 16. -/
theorem not_fetchAppends : ¬ Obligations.FetchAppends := by
  intro h
  obtain ⟨-, hstray⟩ := h strayState ⟨0, 0⟩ strayWord rfl (by decide) (by decide) (by decide) rfl
  obtain ⟨t, hexec, hfailed⟩ := hstray (by decide) rfl
  obtain rfl := Host.Outcome.next.inj (exec_strayState.symm.trans hexec)
  exact absurd (ringArgs_of_failedCheck hfailed) (by decide)

/-! ### ACLR past the last slot -/

/-- ACLR of slots 1,023 and 1,024, the second of which is past the last. -/
def farAclr : AclrOps := { slot := 1023, n := 2 }

/-- That command, TAG 1, as an entry of the queue. -/
def farHead : QCmd := { cmd := ⟨{ tag := 1 }, .aclr farAclr⟩ }

/-- ACCUM of pavilion 0, of the running plot 0, with that command at its head. -/
def farState : State :=
  setPlot (setEng State.reset ⟨0, 1⟩ { program := true, mode := .running, queue := [farHead] }) 0 { state := 2, pavSeen := 1 }

theorem issues_farState : issues farState ⟨0, 1⟩ farHead := ⟨rfl, by decide, rfl⟩

theorem exec_farState : exec (.aclr ⟨0, 1⟩ {} { tag := 1 } farAclr) farState = .next (settle (engFail farState ⟨0, 1⟩ 1 .bounds)) :=
  issueOp_fail (s' := farState) issues_farState rfl rfl

/-- Refutes O17: as for O18, the record of `failedCheck` carries the engine and the TAG; a well-formed ACLR with TAG 1 past the last slot
leaves ENGINE_BOUNDS with the argument 0 in ring A, where the statement has 17. -/
theorem not_engineFaults : ¬ Obligations.EngineFaults := by
  intro h
  obtain ⟨hchecks, -⟩ := h
  obtain ⟨-, haclr, -⟩ := hchecks farState ⟨0, 1⟩ farHead { tag := 1 } issues_farState
  obtain ⟨t, hexec, hfailed⟩ := haclr farAclr rfl (by decide)
  obtain rfl := Host.Outcome.next.inj (exec_farState.symm.trans hexec)
  exact absurd (ringArgs_of_failedCheck hfailed) (by decide)

end Sys2Proof.Machine
end

section
/-! PROOF. Kiosk writes and commands whose refusal leaves an effect of its own: the effect may be had before the request is heard (R358, R359). -/

namespace Sys2Proof.Machine

open Sys2Proof.Safety

/-- The effect neither reads nor writes the Kiosk. -/
def effectApart (g : State → State) : Prop := ∀ s k, g (withKiosk s k) = withKiosk (g s) k

/-- No effect at all is such an effect. -/
theorem effectApart_id : effectApart id := fun _ _ => rfl

/-- Such an effect and hearing a request may change places. -/
theorem heardReq_of_effectApart {g : State → State} (hg : effectApart g) (s : State) (q : KReq) : g (heardReq s q) = heardReq (g s) q :=
  Except.ok.inj (condition_comm (f := fun s => .ok (g s)) (fun s k => congrArg Except.ok (hg s k)) (withinKiosk_heardReq q) s)

theorem heardReq_withKiosk (s : State) (q : KReq) : heardReq s q = withKiosk s (heardReq s q).kiosk := withinKiosk_heardReq q s s

section KioskReq

variable {s : State} {q : KReq} {c : Instr} {index sub : Nat} {command : Bool} {act : State → Session → State} {g : State → State}
  (hexec : exec c s = done (kioskReq s q index sub command act)) (hadmits : admits s q index sub command) (hg : effectApart g)

include hexec hadmits hg

/-- An admitted request that any Kiosk would see answered OK with this effect has it. -/
theorem okWith_of_kioskReq (hact : ∀ κ, act (withKiosk s κ) (sessAt s q.slot) = accept (g (withKiosk s κ)) q) : okWith s c q (g s) := by
  have hheard : act (heardReq s q) (sessAt s q.slot) = accept (g (heardReq s q)) q := by
    rw [heardReq_withKiosk]
    exact hact _
  refine ⟨_, hexec, ?_⟩
  rw [kioskReq_pass act hadmits, hheard, heardReq_of_effectApart hg]
  exact accepted_answer (g s) q

/-- An admitted request that any Kiosk would see refused with this effect has it, and is refused. -/
theorem refused_of_kioskReq {st : U16} (hact : ∀ κ, act (withKiosk s κ) (sessAt s q.slot) = refuse (g (withKiosk s κ)) q st)
    (hst : st ≠ stOk) : ∃ t, exec c s = .next t ∧ refused (g s) q st t := by
  have hheard : act (heardReq s q) (sessAt s q.slot) = refuse (g (heardReq s q)) q st := by
    rw [heardReq_withKiosk]
    exact hact _
  refine ⟨_, hexec, ?_⟩
  rw [kioskReq_pass act hadmits, hheard, heardReq_of_effectApart hg]
  exact refused_answer (g s) q st hst

end KioskReq

end Sys2Proof.Machine
end

section
/-! PROOF. Counter commands and the resume of a frozen engine, on the unit that a session selects (R171, R173, R176, R177, R193). -/

namespace Sys2Proof.Machine

open Sys2Proof.Safety

/-! ### Totals added to a counter (R176) -/

theorem ctrAdd_within {c : Counter} {d : Int} (hlo : 0 ≤ c.value.toNat + d) (hhi : c.value.toNat + d ≤ 0xFFFF) :
    ctrAdd c d = ({ c with value := BitVec.ofInt 16 (c.value.toNat + d) }, none) := by
  have hvalue : BitVec.ofNat 16 (c.value.toNat + d).toNat = BitVec.ofInt 16 (c.value.toNat + d) := by
    rw [← BitVec.ofInt_natCast, Int.toNat_of_nonneg hlo]
  simp only [ctrAdd, if_neg (Int.not_lt.mpr hhi), if_neg (Int.not_lt.mpr hlo), hvalue]

theorem ctrAdd_above {c : Counter} {d : Int} (h : 0xFFFF < c.value.toNat + d) :
    ctrAdd c d = ({ c with value := 0xFFFF, ovf := true }, some true) :=
  if_pos h

theorem ctrAdd_below {c : Counter} {d : Int} (h : c.value.toNat + d < 0) :
    ctrAdd c d = ({ c with value := 0, unf := true }, some false) := by
  have hhi : ¬ 0xFFFF < c.value.toNat + d := by omega
  simp only [ctrAdd, if_neg hhi, if_pos h]

/-! ### The counter commands (R177, R193) -/

/-- What COUNTER_ADJUST does to a counter that may be adjusted: the total, and its clamp counted at the plot that sees the pavilion. -/
def adjustCounter (i c : Nat) (d : Int) (s : State) : Except U16 State :=
  let (k, lim) := ctrAdd (ctrAt s i c) d
  let t := setCtr s i c k
  match plotOfPav t i with
  | none => .ok t
  | some n =>
    match lim with
    | none => .ok t
    | some up => .ok (ctrClamped (modPav t i (fun v => { v with limited := addNew v.limited c })) n (srcPav i)
        (!(pavAt t i).limited.contains c) c up ⟨3, 0⟩ 1)

/-- COUNTER_ADJUST's own condition and effect (R173, R193). -/
def counterAdjustCondition (v : BitVec 32) (x : Session) (s : State) : Except U16 State :=
  let i := field x.engSel 0 8
  let c := x.ctrSel.toNat
  if !ownsPav s x i then .error stKioskAccess
  else if 65535 < v.toInt.natAbs then .error stKioskRange
  else if (ctrAt s i c).poison then .error stKioskState
  else adjustCounter i c v.toInt s

/-- COUNTER_FLAG_CLEAR's own condition and effect (R173, R177). -/
def flagClearCondition (v : BitVec 8) (x : Session) (s : State) : Except U16 State :=
  let i := field x.engSel 0 8
  let c := x.ctrSel.toNat
  if !ownsPav s x i then .error stKioskAccess
  else if 3 < v.toNat then .error stKioskRange
  else
    let k := ctrAt s i c
    .ok (setCtr s i c { k with ovf := k.ovf && !v.getLsbD 0, unf := k.unf && !v.getLsbD 1 })

section Adjust

variable {s : State} {i c : Nat} {d : Int} {k : Counter} {lim : Option Bool}

/-- A total within the range is no clamp (R176). -/
theorem adjustCounter_unclamped (h : ctrAdd (ctrAt s i c) d = (k, none)) : adjustCounter i c d s = .ok (setCtr s i c k) := by
  simp only [adjustCounter, h]
  split
  · rfl
  · rfl

/-- At a pavilion that no plot sees, a clamp is counted nowhere. -/
theorem adjustCounter_free (h : ctrAdd (ctrAt s i c) d = (k, lim)) (hfree : plotOfPav s i = none) :
    adjustCounter i c d s = .ok (setCtr s i c k) := by
  have hfree' : plotOfPav (setCtr s i c k) i = none := hfree
  simp only [adjustCounter, h, hfree']

/-- At a pavilion that a plot sees, a clamp is counted there, and the counter is marked as limited in this frame (R176; log entry 14). -/
theorem adjustCounter_clamped {n : Nat} {up : Bool} (h : ctrAdd (ctrAt s i c) d = (k, some up)) (hseen : plotOfPav s i = some n) :
    adjustCounter i c d s = .ok (ctrClamped (modPav (setCtr s i c k) i (fun v => { v with limited := addNew v.limited c })) n (srcPav i)
      (!(pavAt s i).limited.contains c) c up ⟨3, 0⟩ 1) := by
  have hseen' : plotOfPav (setCtr s i c k) i = some n := hseen
  have hlimited : (pavAt (setCtr s i c k) i).limited = (pavAt s i).limited := by rw [setCtr, pavAt_modPav_same]
  simp only [adjustCounter, h, hseen', hlimited]

end Adjust

theorem pavAt_withKiosk (s : State) (κ : Kiosk) (i : Nat) : pavAt (withKiosk s κ) i = pavAt s i := rfl

theorem setCtr_withKiosk (s : State) (κ : Kiosk) (i c : Nat) (k : Counter) : setCtr (withKiosk s κ) i c k = withKiosk (setCtr s i c k) κ := rfl

theorem ctrClamped_withKiosk (s : State) (κ : Kiosk) (n : Nat) (src : Src) (first : Bool) (c : Nat) (up : Bool) (o : CtrSrc) (m : Nat) :
    ctrClamped (withKiosk s κ) n src first c up o m = withKiosk (ctrClamped s n src first c up o m) κ := by
  cases first
  · rfl
  · rfl

theorem conditionApart_adjustCounter (i c : Nat) (d : Int) : conditionApart (adjustCounter i c d) := by
  intro s κ
  obtain ⟨⟨k, lim⟩, h⟩ : ∃ r, ctrAdd (ctrAt s i c) d = r := ⟨_, rfl⟩
  have h' : ctrAdd (ctrAt (withKiosk s κ) i c) d = (k, lim) := h
  cases lim with
  | none => rw [adjustCounter_unclamped h, adjustCounter_unclamped h']; rfl
  | some up =>
    obtain hplot | ⟨n, hplot⟩ := (plotOfPav s i).eq_none_or_eq_some
    · have hplot' : plotOfPav (withKiosk s κ) i = none := hplot
      rw [adjustCounter_free h hplot, adjustCounter_free h' hplot']
      rfl
    · have hplot' : plotOfPav (withKiosk s κ) i = some n := hplot
      rw [adjustCounter_clamped h hplot, adjustCounter_clamped h' hplot']
      rw [setCtr_withKiosk, pavAt_withKiosk, modPav_withKiosk, ctrClamped_withKiosk]
      rfl

theorem conditionApart_counterAdjust (v : BitVec 32) (x : Session) : conditionApart (counterAdjustCondition v x) := by
  intro s κ
  simp only [counterAdjustCondition, apply_ite (Except.map _), conditionApart_adjustCounter _ _ _ s κ]
  rfl

theorem conditionApart_flagClear (v : BitVec 8) (x : Session) : conditionApart (flagClearCondition v x) := by
  intro s κ
  simp only [flagClearCondition, apply_ite (Except.map _)]
  rfl

/-! ### ENGINE_RESUME (R171) -/

/-- A frozen engine runs freely with `n` 0, its head passing the breakpoint, or issues `n` commands; its plot has moved. -/
def resumed (u : EngRef) (n : BitVec 16) (s : State) : State :=
  let w := modEng s u (fun e => { e with mode := .running, passBreak := n == 0, stepsLeft := if n == 0 then none else some n.toNat })
  match plotOfPav w u.pav with
  | some p => moved w p
  | none => w

/-- ENGINE_RESUME's own condition and effect (R171, R173). -/
def resumeCondition (n : BitVec 16) (x : Session) (s : State) : Except U16 State :=
  if !ownsPav s x (selEng x).pav then .error stKioskAccess
  else if (engAt s (selEng x)).mode != .frozen then .error stKioskState
  else .ok (resumed (selEng x) n s)

theorem effectApart_resumed (u : EngRef) (n : BitVec 16) : effectApart (resumed u n) := by
  intro s κ
  simp only [resumed, modEng_withKiosk, plotOfPav_withKiosk]
  split
  · rfl
  · rfl

theorem conditionApart_resume (n : BitVec 16) (x : Session) : conditionApart (resumeCondition n x) := by
  intro s κ
  simp only [resumeCondition, apply_ite (Except.map _), effectApart_resumed _ _ s κ]
  rfl

/-! ### The conditions in the order of their tests -/

section Conditions

variable {s : State} {x : Session} {v : BitVec 32} {b : BitVec 8} {n : BitVec 16}

theorem counterAdjustCondition_foreign (ho : ownsPav s x (field x.engSel 0 8) = false) :
    counterAdjustCondition v x s = .error stKioskAccess := by
  simp only [counterAdjustCondition, ho, Bool.not_false, if_true]

theorem counterAdjustCondition_range (ho : ownsPav s x (field x.engSel 0 8) = true) (hv : 65535 < v.toInt.natAbs) :
    counterAdjustCondition v x s = .error stKioskRange := by
  simp only [counterAdjustCondition, ho, Bool.not_true, Bool.false_eq_true, if_false, if_pos hv]

theorem counterAdjustCondition_poisoned (ho : ownsPav s x (field x.engSel 0 8) = true) (hv : v.toInt.natAbs ≤ 65535)
    (hp : (ctrAt s (field x.engSel 0 8) x.ctrSel.toNat).poison = true) : counterAdjustCondition v x s = .error stKioskState := by
  simp only [counterAdjustCondition, ho, hp, Bool.not_true, Bool.false_eq_true, if_false, if_true, if_neg (Nat.not_lt.mpr hv)]

theorem counterAdjustCondition_may (ho : ownsPav s x (field x.engSel 0 8) = true) (hv : v.toInt.natAbs ≤ 65535)
    (hp : (ctrAt s (field x.engSel 0 8) x.ctrSel.toNat).poison = false) :
    counterAdjustCondition v x s = adjustCounter (field x.engSel 0 8) x.ctrSel.toNat v.toInt s := by
  simp only [counterAdjustCondition, ho, hp, Bool.not_true, Bool.false_eq_true, if_false, if_neg (Nat.not_lt.mpr hv)]

theorem flagClearCondition_foreign (ho : ownsPav s x (field x.engSel 0 8) = false) : flagClearCondition b x s = .error stKioskAccess := by
  simp only [flagClearCondition, ho, Bool.not_false, if_true]

theorem flagClearCondition_range (ho : ownsPav s x (field x.engSel 0 8) = true) (hb : 3 < b.toNat) :
    flagClearCondition b x s = .error stKioskRange := by
  simp only [flagClearCondition, ho, Bool.not_true, Bool.false_eq_true, if_false, if_pos hb]

theorem flagClearCondition_may (ho : ownsPav s x (field x.engSel 0 8) = true) (hb : b.toNat ≤ 3) :
    flagClearCondition b x s =
      let k := ctrAt s (field x.engSel 0 8) x.ctrSel.toNat
      .ok (setCtr s (field x.engSel 0 8) x.ctrSel.toNat
        { k with ovf := k.ovf && !b.getLsbD 0, unf := k.unf && !b.getLsbD 1 }) := by
  simp only [flagClearCondition, ho, Bool.not_true, Bool.false_eq_true, if_false, if_neg (Nat.not_lt.mpr hb)]

theorem resumeCondition_foreign (ho : ownsPav s x (selEng x).pav = false) : resumeCondition n x s = .error stKioskAccess := by
  simp only [resumeCondition, ho, Bool.not_false, if_true]

theorem resumeCondition_running (ho : ownsPav s x (selEng x).pav = true) (hm : (engAt s (selEng x)).mode ≠ .frozen) :
    resumeCondition n x s = .error stKioskState := by
  simp only [resumeCondition, ho, Bool.not_true, Bool.false_eq_true, if_false, bne_iff_ne.mpr hm, if_true]

theorem resumeCondition_frozen (ho : ownsPav s x (selEng x).pav = true) (hm : (engAt s (selEng x)).mode = .frozen) :
    resumeCondition n x s = .ok (resumed (selEng x) n s) := by
  simp only [resumeCondition, ho, hm, Bool.not_true, bne_self_eq_false, Bool.false_eq_true, if_false]

end Conditions

/-! ### The obligation -/

/-- Settles O22: each command's condition is met in the order of the model's tests, and an adjustment is what R176 makes of its total. -/
theorem selectedUnitCommands : Obligations.SelectedUnitCommands := by
  unfold Obligations.SelectedUnitCommands
  intro s q x i c k u
  refine ⟨?adjust, ?clear, ?resume⟩
  case adjust =>
    intro hadmits v
    have hf := conditionApart_counterAdjust v
    have hno {st : U16} : counterAdjustCondition v x s = .error st → st ≠ stOk → notOk s (.counterAdjust q v) q st :=
      notOk_of_kioskCmd (f := fun s x => counterAdjustCondition v x s) rfl hadmits hf
    have hmay {w : State} (ho : ownsPav s x i = true) (hv : v.toInt.natAbs ≤ 65535) (hp : k.poison = false)
        (hw : adjustCounter i c v.toInt s = .ok w) : okWith s (.counterAdjust q v) q w :=
      okWith_of_kioskCmd (f := fun s x => counterAdjustCondition v x s) rfl hadmits hf ((counterAdjustCondition_may ho hv hp).trans hw)
    refine ⟨?foreign, ?range, ?poisoned, ?within, ?above, ?below, ?counted⟩
    case foreign => exact fun ho => hno (counterAdjustCondition_foreign ho) (by decide)
    case range => exact fun ho hv => hno (counterAdjustCondition_range ho hv) (by decide)
    case poisoned => exact fun ho hv hp => hno (counterAdjustCondition_poisoned ho hv hp) (by decide)
    case within => exact fun ho hv hp hlo hhi => hmay ho hv hp (adjustCounter_unclamped (ctrAdd_within hlo hhi))
    case above => exact fun ho hv hp hhi hfree => hmay ho hv hp (adjustCounter_free (ctrAdd_above hhi) hfree)
    case below => exact fun ho hv hp hlo hfree => hmay ho hv hp (adjustCounter_free (ctrAdd_below hlo) hfree)
    case counted => exact fun n ho hv hp hhi hseen => hmay ho hv hp (adjustCounter_clamped (ctrAdd_above hhi) hseen)
  case clear =>
    intro hadmits v
    have hf := conditionApart_flagClear v
    have hno {st : U16} : flagClearCondition v x s = .error st → st ≠ stOk → notOk s (.counterFlagClear q v) q st :=
      notOk_of_kioskCmd (f := fun s x => flagClearCondition v x s) rfl hadmits hf
    refine ⟨fun ho => hno (flagClearCondition_foreign ho) (by decide), fun ho hv => hno (flagClearCondition_range ho hv) (by decide), ?_⟩
    exact fun ho hv => okWith_of_kioskCmd (f := fun s x => flagClearCondition v x s) rfl hadmits hf (flagClearCondition_may ho hv)
  case resume =>
    intro hadmits n
    have hf := conditionApart_resume n
    have hno {st : U16} : resumeCondition n x s = .error st → st ≠ stOk → notOk s (.engineResume q n) q st :=
      notOk_of_kioskCmd (f := fun s x => resumeCondition n x s) rfl hadmits hf
    refine ⟨fun ho => hno (resumeCondition_foreign ho) (by decide), fun ho hm => hno (resumeCondition_running ho hm) (by decide), ?_⟩
    intro ho hm w
    have hw : okWith s (.engineResume q n) q (resumed u n s) :=
      okWith_of_kioskCmd (f := fun s x => resumeCondition n x s) rfl hadmits hf (resumeCondition_frozen ho hm)
    simp only [resumed, beq_eq_decide, decide_eq_true_eq] at hw
    exact hw

end Sys2Proof.Machine
end

section
/-! PROOF. Self-tests of pavilions and port dies, and their ends (R20, R167, R168). -/

namespace Sys2Proof.Machine

open Sys2Proof.Safety

/-! ### Requests (R167, R168) -/

/-- The pavilion under test, its engines with it (R167). -/
def testPav (i : Nat) (s : State) : State := modPav s i (fun v => { v with
  testing := true, engines := (List.range 6).map (fun e => (e, { tblGet {} v.engines e with mode := .selftest : Engine })) })

/-- What a request for a unit that a plot owns leaves in 0x5000:0D (Table 6.6). -/
def testMapped (s : State) : State := { s with testResult := stSelftestMapped }

/-- The port die under test (R168). -/
def testDie (j : Nat) (s : State) : State := modDie s j (fun d => { d with testing := true })

theorem effectApart_testPav (i : Nat) : effectApart (testPav i) := fun _ _ => rfl
theorem effectApart_testMapped : effectApart testMapped := fun _ _ => rfl
theorem effectApart_testDie (j : Nat) : effectApart (testDie j) := fun _ _ => rfl

/-- How a self-test of a pavilion is answered, in the order of its tests (R167; log entry 98). -/
def selftestPav (q : KReq) (i : Nat) (s : State) : State :=
  if s.enableMap.getLsbD i = false then refuse s q stKioskRange
  else if (pavAt s i).testing then refuse s q stSelftestBusy
  else if (maskOwner s i).isSome then refuse (testMapped s) q stSelftestMapped
  else accept (testPav i s) q

/-- How a self-test of a port die is answered, in the order of its tests (R168). -/
def selftestDie (q : KReq) (j : Nat) (s : State) : State :=
  if (dieAt s j).testing then refuse s q stSelftestBusy
  else if !(plotsOfDie s j).isEmpty then refuse (testMapped s) q stSelftestMapped
  else accept (testDie j s) q

theorem exec_selftestPavilion (s : State) (q : KReq) :
    exec (.selftestPavilion q) s = done (kioskReq s q 0x5000 0x0C true (fun s x => selftestPav q (field x.engSel 0 8) s)) := rfl

theorem exec_selftestPortDie (s : State) (q : KReq) :
    exec (.selftestPortDie q) s = done (kioskReq s q 0x5000 0x0C true (fun s x => selftestDie q (field x.engSel 0 4) s)) := rfl

section Requests

variable {s : State} {q : KReq} {i j : Nat}

theorem selftestPav_disabled (hoff : s.enableMap.getLsbD i = false) : selftestPav q i s = refuse s q stKioskRange :=
  if_pos hoff

theorem selftestPav_busy (hon : s.enableMap.getLsbD i = true) (htest : (pavAt s i).testing = true) :
    selftestPav q i s = refuse s q stSelftestBusy := by
  simp only [selftestPav, hon, htest, Bool.true_eq_false, if_false, if_true]

theorem selftestPav_mapped {n : Nat} (hon : s.enableMap.getLsbD i = true) (htest : (pavAt s i).testing = false)
    (hmask : maskOwner s i = some n) : selftestPav q i s = refuse (testMapped s) q stSelftestMapped := by
  simp only [selftestPav, hon, htest, hmask, Bool.true_eq_false, Bool.false_eq_true, if_false, Option.isSome_some, if_true]

theorem selftestPav_free (hon : s.enableMap.getLsbD i = true) (htest : (pavAt s i).testing = false) (hmask : maskOwner s i = none) :
    selftestPav q i s = accept (testPav i s) q := by
  simp only [selftestPav, hon, htest, hmask, Bool.true_eq_false, Bool.false_eq_true, if_false, Option.isSome_none]

theorem selftestDie_busy (htest : (dieAt s j).testing = true) : selftestDie q j s = refuse s q stSelftestBusy :=
  if_pos htest

theorem selftestDie_mapped (htest : (dieAt s j).testing = false) (hplots : plotsOfDie s j ≠ []) :
    selftestDie q j s = refuse (testMapped s) q stSelftestMapped := by
  simp only [selftestDie, htest, List.isEmpty_eq_false_iff.mpr hplots, Bool.not_false, Bool.false_eq_true, if_false, if_true]

theorem selftestDie_free (htest : (dieAt s j).testing = false) (hplots : plotsOfDie s j = []) :
    selftestDie q j s = accept (testDie j s) q := by
  simp only [selftestDie, htest, hplots, List.isEmpty_nil, Bool.not_true, Bool.false_eq_true, if_false]

end Requests

/-! ### Ends (R20, R168) -/

theorem exec_selftestDone_pavilion {s : State} {i : Nat} (pass : Bool) (h : (pavAt s i).testing = true) :
    exec (.selftestDone (.pavilion i) pass) s = done (testDone
      { modPav s i (fun v => { v with testing := false, engines := v.engines.map (fun e => (e.1, { e.2 with mode := .idle })) }) with
        failedMap := if pass then s.failedMap else setBit s.failedMap i true } (srcPav i) pass) := by
  show execSelftestDone (.pavilion i) pass s = _
  simp only [execSelftestDone, h, Bool.not_true, Bool.false_eq_true, if_false]
  cases pass
  · rfl
  · rfl

theorem exec_selftestDone_portDie {s : State} {j : Nat} (pass : Bool) (h : (dieAt s j).testing = true) :
    exec (.selftestDone (.portDie j) pass) s = done (testDone (modDie s j (fun d => { d with testing := false })) (srcDie j) pass) := by
  show execSelftestDone (.portDie j) pass s = _
  simp only [execSelftestDone, h, Bool.not_true, Bool.false_eq_true, if_false]

/-- The unit is under test. -/
def underTest (s : State) : TestUnit → Bool
  | .pavilion i => (pavAt s i).testing
  | .portDie j => (dieAt s j).testing

/-- The end of a test that is not under way changes nothing (log entry 2). -/
theorem exec_selftestDone_notTesting {s : State} {t : TestUnit} (pass : Bool) (h : underTest s t = false) :
    exec (.selftestDone t pass) s = .next (settle s) := by
  cases t with
  | pavilion i => exact if_pos (congrArg not h)
  | portDie j => exact if_pos (congrArg not h)

/-! ### The obligation -/

/-- Settles O27: each request is answered in the order of its tests, two of them with the verdict SELFTEST_MAPPED, and a test under way ends with
its verdict and its record. -/
theorem selfTests : Obligations.SelfTests := by
  unfold Obligations.SelfTests
  intro s q i j pass x p d verdict rk
  refine ⟨fun hadmits => ?requests, exec_selftestDone_pavilion pass, exec_selftestDone_portDie pass,
    exec_selftestDone_notTesting (t := .pavilion i) pass, exec_selftestDone_notTesting (t := .portDie j) pass⟩
  have hpav := exec_selftestPavilion s q
  have hdie := exec_selftestPortDie s q
  refine ⟨?disabled, ?busy, ?mapped, ?free, ?busyDie, ?mappedDie, ?freeDie⟩
  case disabled =>
    exact fun hoff => refused_of_kioskReq hpav hadmits effectApart_id (fun _ => selftestPav_disabled hoff) (by decide)
  case busy =>
    exact fun hon htest => refused_of_kioskReq hpav hadmits effectApart_id (fun _ => selftestPav_busy hon htest) (by decide)
  case mapped =>
    exact fun n hon htest hmask =>
      refused_of_kioskReq hpav hadmits effectApart_testMapped (fun _ => selftestPav_mapped hon htest hmask) (by decide)
  case free =>
    exact fun hon htest hmask =>
      okWith_of_kioskReq hpav hadmits (effectApart_testPav p) (fun _ => selftestPav_free hon htest hmask)
  case busyDie =>
    exact fun htest => refused_of_kioskReq hdie hadmits effectApart_id (fun _ => selftestDie_busy htest) (by decide)
  case mappedDie =>
    exact fun htest hplots =>
      refused_of_kioskReq hdie hadmits effectApart_testMapped (fun _ => selftestDie_mapped htest hplots) (by decide)
  case freeDie =>
    exact fun htest hplots => okWith_of_kioskReq hdie hadmits (effectApart_testDie d) (fun _ => selftestDie_free htest hplots)

end Sys2Proof.Machine
end

section
/-! PROOF. BANK_WRITE: the bank that its value names, the value's form, and what a write leaves in the shadow bank and image (R163, R165). -/

namespace Sys2Proof.Machine

open Sys2Proof.Safety

/-! ### The bank that a value names (R163) -/

/-- The bank is named by the first byte of what is staged, or of the first segment. -/
theorem bankNamed_eq (x : Session) (d : DomSeg) :
    bankNamed x d = if d.offset = 0 then d.data.head? else (stagedFor x 0x5000 0x0B).head? := by
  unfold bankNamed stagedFor
  cases x.staging with
  | none => rfl
  | some g =>
    have hobject : (g.index = 0x5000 ∧ g.sub = 0x0B) ↔ (g.index.toNat = 0x5000 ∧ g.sub.toNat = 0x0B) :=
      and_congr BitVec.toNat_inj.symm BitVec.toNat_inj.symm
    simp only [hobject, apply_ite List.head?, List.head?_nil]

/-- So it is by the first byte of the whole value. -/
theorem bankNamed_of_wholeValue {s : State} {q : KReq} {limit : Nat} {d : DomSeg} {all : List Byte}
    (h : wholeValue s q 0x5000 0x0B limit d all) : bankNamed (sessAt s q.slot) d = all.head? := by
  obtain ⟨-, -, hall, hoffset⟩ := (wholeValue_iff ..).mp h
  rw [bankNamed_eq, hall, hoffset]
  cases stagedFor (sessAt s q.slot) 0x5000 0x0B with
  | nil => rfl
  | cons b bs => rfl

/-! ### The value and its effect -/

/-- The whole value of 0x5000:0B: a bank, a zero byte, a first index, and commands that stay within the bank's 4,096 (Table 15.5). -/
def bankFormed (bs : List Byte) : Prop :=
  (bs.headD 0).toNat ≤ 1 ∧ 4 ≤ bs.length ∧ bs.length % 16 = 4 ∧ bs.getD 1 0 = 0 ∧
    numAt bs 2 2 + (cmdsOfBytes (bs.drop 4)).length ≤ 4096

theorem bankFormed_iff (bs : List Byte) :
    bankFormed bs ↔ ¬ (bs.length < 4 ∨ bs.length % 16 ≠ 4 ∨ 1 < (bs.headD 0).toNat ∨ bs.getD 1 0 ≠ 0 ∨
      4096 < numAt bs 2 2 + (cmdsOfBytes (bs.drop 4)).length) := by
  simp only [bankFormed, not_or, not_lt, not_not]
  tauto

/-- The shadow bank of an engine with this value's commands in it. -/
def bankWritten (e : Engine) (bs : List Byte) : List (BitVec 128) := putWords (shadowBank e) (numAt bs 2 2) (cmdsOfBytes (bs.drop 4))

/-- The engine with this value's commands in its shadow bank. -/
def putBank (u : EngRef) (bs : List Byte) (s : State) : State :=
  modEng s u (fun e => if e.active then { e with bank0 := bankWritten e bs } else { e with bank1 := bankWritten e bs })

/-- The shadow image of the plot, if it has one, altered as the engine's shadow bank is (R165). -/
def alterShadow (s : State) (u : EngRef) (n : Nat) (bs : List Byte) (p : Plot) : Plot :=
  match p.shadow with
  | some img => { p with shadow := some (putStream img (relOfPav s n u.pav) u.eng (bankWritten (engAt s u) bs)), shadowDirty := true }
  | none => p

section BankWrite

variable {s : State} {x : Session} {bs : List Byte} {n : Nat}

theorem bankWrite_malformed (h : ¬ bankFormed bs) : bankWrite s x bs = .error stKioskRange :=
  if_pos (not_not.mp (mt (bankFormed_iff bs).mpr h))

theorem bankWrite_formed (h : bankFormed bs) :
    bankWrite s x bs = match plotOfPav s (selEng x).pav with
      | none => .ok (putBank (selEng x) bs s)
      | some n => if loadBusy (plotAt s n) then .error stLoadPending
          else .ok (modPlot (putBank (selEng x) bs s) n (alterShadow s (selEng x) n bs)) := by
  unfold bankWrite
  dsimp only
  rw [if_neg ((bankFormed_iff bs).mp h)]
  cases plotOfPav s (selEng x).pav with
  | none => rfl
  | some n => rfl

theorem loadBusy_iff (p : Plot) : loadBusy p = true ↔ p.loadState = 1 ∨ p.loadState = 3 := by
  simp only [loadBusy, Bool.or_eq_true, beq_iff_eq]

theorem bankWrite_free (h : bankFormed bs) (hfree : plotOfPav s (selEng x).pav = none) :
    bankWrite s x bs = .ok (putBank (selEng x) bs s) := by
  rw [bankWrite_formed h, hfree]

theorem bankWrite_pending (h : bankFormed bs) (hseen : plotOfPav s (selEng x).pav = some n)
    (hload : (plotAt s n).loadState = 1 ∨ (plotAt s n).loadState = 3) : bankWrite s x bs = .error stLoadPending := by
  rw [bankWrite_formed h, hseen]
  exact if_pos ((loadBusy_iff _).mpr hload)

theorem bankWrite_seen (h : bankFormed bs) (hseen : plotOfPav s (selEng x).pav = some n) (h1 : (plotAt s n).loadState ≠ 1)
    (h3 : (plotAt s n).loadState ≠ 3) :
    bankWrite s x bs = .ok (modPlot (putBank (selEng x) bs s) n (alterShadow s (selEng x) n bs)) := by
  rw [bankWrite_formed h, hseen]
  exact if_neg (fun hbusy => ((loadBusy_iff _).mp hbusy).elim h1 h3)

end BankWrite

/-! ### The condition of the write -/

/-- BANK_WRITE's own condition and effect once its bank is not the active one (R163, R173). -/
def bankCondition (s : State) (x : Session) (bs : List Byte) : Except U16 State :=
  if !ownsPav s x (selEng x).pav then .error stKioskAccess else bankWrite s x bs

theorem bankCondition_foreign {s : State} {x : Session} {bs : List Byte} (ho : ownsPav s x (selEng x).pav = false) :
    bankCondition s x bs = .error stKioskAccess := by
  simp only [bankCondition, ho, Bool.not_false, if_true]

theorem bankCondition_owned {s : State} {x : Session} {bs : List Byte} (ho : ownsPav s x (selEng x).pav = true) :
    bankCondition s x bs = bankWrite s x bs := by
  simp only [bankCondition, ho, Bool.not_true, Bool.false_eq_true, if_false]

theorem conditionApart_bankWrite (x : Session) (bs : List Byte) : conditionApart (fun s => bankWrite s x bs) := by
  intro s κ
  by_cases h : bankFormed bs
  · simp only [bankWrite_formed h, plotOfPav_withKiosk, plotAt_withKiosk]
    cases plotOfPav s (selEng x).pav with
    | none => rfl
    | some n => simp only [apply_ite (Except.map _)]; rfl
  · simp only [bankWrite_malformed h]
    rfl

theorem conditionApart_bankCondition (x : Session) (bs : List Byte) : conditionApart (fun s => bankCondition s x bs) := by
  intro s κ
  simp only [bankCondition, apply_ite (Except.map _), conditionApart_bankWrite x bs s κ]
  rfl

/-! ### The two ways of the write -/

/-- A segment acts alike if what it hands the whole value to acts alike without the staged segments. -/
theorem domSegment_congr {s : State} {q : KReq} {act act' : State → List Byte → State}
    (h : ∀ all, act (unstaged s q) all = act' (unstaged s q) all) (index sub limit : Nat) (d : DomSeg) :
    domSegment s q index sub limit d act = domSegment s q index sub limit d act' := by
  simp only [domSegment_eq, h]

/-- Hearing a request and dropping its staged segments moves no selector and no right of its session. -/
theorem sessAt_unstaged_heardReq (s : State) (q : KReq) :
    ∃ m, sessAt (unstaged (heardReq s q) q) q.slot = { sessAt s q.slot with staging := none, mctrIn := m } := by
  rw [unstaged, sessAt_modSess_same]
  unfold heardReq
  split
  · rw [sessAt_modSess_same]
    split
    · exact ⟨q.mctr, rfl⟩
    · exact ⟨_, rfl⟩
  · exact ⟨_, rfl⟩

/-- Once its bank is not the active one, the write is a DOMAIN write like any other. -/
theorem bankSeg_heardReq (s : State) (q : KReq) (d : DomSeg) :
    execBankWrite.bankSeg (heardReq s q) q d (selEng (sessAt s q.slot)) =
      domSegment (heardReq s q) q 0x5000 0x0B 65540 d (fun t all => match bankCondition t (sessAt s q.slot) all with
        | .ok t' => accept (bumpChange t' 0x5000 0x0B) q
        | .error st => refuse t q st) := by
  refine domSegment_congr (fun all => ?_) 0x5000 0x0B 65540 d
  obtain ⟨m, hm⟩ := sessAt_unstaged_heardReq s q
  have howns (t : State) : ownsPav t { sessAt s q.slot with staging := none, mctrIn := m } = ownsPav t (sessAt s q.slot) := rfl
  have hwrite (t : State) : bankWrite t { sessAt s q.slot with staging := none, mctrIn := m } = bankWrite t (sessAt s q.slot) := rfl
  simp only [hm, howns, hwrite, bankCondition]
  split
  · rfl
  · rfl

section Exec

variable {s : State} {q : KReq} {d : DomSeg}

/-- The record of a write that addresses the active bank (R163). -/
def toldActiveBank (u : EngRef) (s : State) : State := emit s rkActiveBankWrite (srcPav u.pav) (plotOfPav s u.pav) [(4, u.eng)]

theorem effectApart_toldActiveBank (u : EngRef) : effectApart (toldActiveBank u) := fun _ _ => rfl

/-- A write that addresses the active bank leaves its record and nothing else (R163). -/
theorem exec_bankWrite_active {b : Byte} (hadmits : admits s q 0x5000 0x0B false) (hb : bankNamed (sessAt s q.slot) d = some b)
    (hactive : b.toNat = bit (engAt s (selEng (sessAt s q.slot))).active) :
    ∃ t, exec (.bankWrite q d) s = .next t ∧ refused (toldActiveBank (selEng (sessAt s q.slot)) s) q stLoadActiveBank t := by
  refine refused_of_kioskReq rfl hadmits (effectApart_toldActiveBank _) (fun κ => ?_) (by decide)
  simp only [hb]
  exact if_pos hactive

/-- Any other is a DOMAIN write with a condition of its own. -/
theorem exec_bankWrite_shadow (hadmits : admits s q 0x5000 0x0B false)
    (hshadow : ∀ b, bankNamed (sessAt s q.slot) d = some b → b.toNat ≠ bit (engAt s (selEng (sessAt s q.slot))).active) :
    exec (.bankWrite q d) s = done (kioskDom s q 0x5000 0x0B 65540 d bankCondition) := by
  show execBankWrite q d s = _
  have hactive : (engAt (heardReq s q) (selEng (sessAt s q.slot))).active = (engAt s (selEng (sessAt s q.slot))).active := by
    rw [heardReq_withKiosk]
    rfl
  rw [execBankWrite, kioskDom, kioskReq_pass _ hadmits, kioskReq_pass _ hadmits]
  refine congrArg done (Eq.trans ?_ (bankSeg_heardReq s q d))
  dsimp only
  cases hb : bankNamed (sessAt s q.slot) d with
  | none => rfl
  | some b => exact if_neg (hactive ▸ hshadow b hb)

end Exec

/-! ### The obligation -/

/-- Settles O26: the whole value's first byte is the bank that the write names; if that is not the active one, the write is a DOMAIN write whose
condition is met in the order of the model's tests. -/
theorem bankWrites : Obligations.BankWrites := by
  unfold Obligations.BankWrites
  intro s q d all hadmits hwhole x u e active first ws new w formed
  have hnamed : bankNamed x d = all.head? := bankNamed_of_wholeValue hwhole
  have hexec (hno : ¬ active) : exec (.bankWrite q d) s = done (kioskDom s q 0x5000 0x0B 65540 d bankCondition) :=
    exec_bankWrite_shadow hadmits (fun b hb hbit => hno ⟨b, hnamed.symm.trans hb, hbit⟩)
  have hf := fun x => conditionApart_bankCondition x all
  have hrefused {st : U16} (hno : ¬ active) (herr : bankCondition s x all = .error st) (hst : st ≠ stOk) :
      domNotOk s (.bankWrite q d) q st := domNotOk_of_kioskDom (hexec hno) hadmits hwhole hf herr hst
  have hdone {t : State} (hno : ¬ active) (hok : bankCondition s x all = .ok t) : domOk s (.bankWrite q d) q 0x5000 0x0B t :=
    domOk_of_kioskDom (hexec hno) hadmits hwhole hf hok
  refine ⟨?active, ?foreign, ?malformed, fun hno ho hform => ⟨?free, ?pending, ?seen⟩⟩
  case active =>
    rintro ⟨b, hb, hbit⟩
    exact exec_bankWrite_active hadmits (hnamed.trans hb) hbit
  case foreign => exact fun hno ho => hrefused hno (bankCondition_foreign ho) (by decide)
  case malformed =>
    exact fun hno ho hform => hrefused hno ((bankCondition_owned ho).trans (bankWrite_malformed hform)) (by decide)
  case free => exact fun hfree => hdone hno ((bankCondition_owned ho).trans (bankWrite_free hform hfree))
  case pending =>
    exact fun n hseen hload => hrefused hno ((bankCondition_owned ho).trans (bankWrite_pending hform hseen hload)) (by decide)
  case seen =>
    exact fun n hseen h1 h3 => hdone hno ((bankCondition_owned ho).trans (bankWrite_seen hform hseen h1 h3))

end Sys2Proof.Machine
end

section
/-! PROOF. A packet that has passed the checks of R290 leaves on the link that its route names, or ends here (R292, R304, R314). -/

namespace Sys2Proof.Machine

open Sys2Proof.Safety

variable {s t : State} {l k : Nat} {p : Pkt}

/-! ### Which packets end here -/

/-- No route depends on the state of a link. -/
theorem routeOf_setLink (s : State) (k : Nat) (x : Link) (src : Option Nat) (p : Pkt) : routeOf (setLink s k x) src p = routeOf s src p := rfl

theorem routeOf_opened (s : State) (l : Nat) (p : Pkt) : routeOf (opened s l p) (some l) p = routeOf s (some l) p := by
  rcases opened_cases s l p with h | ⟨x, h⟩
  · rw [h]
  · rw [h, routeOf_setLink]

theorem routeOf_countPair (s : State) (l : Nat) (p : Pkt) : routeOf (countPair s l p) (some l) p = routeOf s (some l) p := by
  rcases countPair_cases s l p with h | ⟨x, h⟩
  · rw [h]
  · rw [h, routeOf_setLink]

theorem endsHere_iff : endsHere s l p = true ↔ routeOf s (some l) p = .consume ∨ routeOf s (some l) p = .deliver := by
  unfold endsHere
  split <;> simp_all

theorem endsHere_of_routeOf_out (h : routeOf s (some l) p = .out k) : endsHere s l p = false := by
  simp only [endsHere, h]

/-- A packet ends here by its destination alone: that of any link partner, or this module's own address (R314). -/
theorem endsHere_eq_dest (s : State) (l : Nat) (p : Pkt) :
    endsHere s l p = (p.dest == 0xFFFFFE || (s.route.self != 0x00FFFFFF && p.dest == s.route.self.extractLsb' 0 24)) := by
  unfold endsHere routeOf
  by_cases hpartner : (p.dest == 0xFFFFFE) = true
  · rw [if_pos hpartner, hpartner]; rfl
  · rw [if_neg hpartner, Bool.eq_false_iff.mpr hpartner, Bool.false_or]
    by_cases hself : (s.route.self != 0x00FFFFFF && p.dest == s.route.self.extractLsb' 0 24) = true
    · rw [if_pos hself, hself]
    · rw [if_neg hself, Bool.eq_false_iff.mpr hself]
      grind

theorem endsHere_congr (h : t.route = s.route) (l : Nat) (p : Pkt) : endsHere t l p = endsHere s l p := by
  rw [endsHere_eq_dest, endsHere_eq_dest, h]

/-! ### Which link takes it -/

/-- A change of a link that keeps its state leaves every link as ready to take a packet as it was. -/
theorem takes_setLink {x : Link} (hx : x.state = (linkAt s l).state) (htakes : takes s k p) : takes (setLink s l x) k p := by
  refine ⟨?_, htakes.2⟩
  have hstate : (linkAt (setLink s l x) k).state = (linkAt s k).state := by
    by_cases hk : k = l
    · rw [hk, linkAt_setLink_same, hx]
    · rw [linkAt_setLink_ne _ _ hk]
  simpa only [active, hstate] using htakes.1

theorem takes_opened (htakes : takes s k p) : takes (opened s l p) k p := by
  unfold opened
  split
  · exact takes_setLink rfl htakes
  · exact htakes

theorem takes_countPair (htakes : takes s k p) : takes (countPair s l p) k p := by
  simp only [countPair]
  split
  · exact htakes
  · split
    · exact takes_setLink rfl htakes
    · exact takes_setLink rfl htakes

/-! ### What becomes of it -/

theorem handOff_takes {source : Nat} (htakes : takes s k p) : handOff s k source p = queuedOn s k source p := by
  obtain ⟨hactive, hport⟩ := htakes
  have hallowed : (p.vc != 6 && !(plotAt s p.plot.toNat).portMask.getLsbD (linkPort k)) = false := by
    rcases hport with h | h <;> simp [h]
  rw [handOff, hactive, hallowed]
  rfl

theorem switchPkt_out (hroute : routeOf s (some l) p = .out k) (htakes : takes s k p) :
    switchPkt s l p = freeRx (queuedOn s k l p) l p := by
  have hsend : sendOut s (some l) p = queuedOn s k l p := by
    simp only [sendOut, hroute]
    exact handOff_takes htakes
  rw [switchPkt, hsend]

theorem switchPkt_opened_out (hroute : routeOf s (some l) p = .out k) (htakes : takes s k p) :
    switchPkt (opened s l p) l p = freeRx (queuedOn (opened s l p) k l p) l p :=
  switchPkt_out ((routeOf_opened s l p).trans hroute) (takes_opened htakes)

theorem switchPkt_here (h : endsHere s l p = true) : switchPkt s l p = freeRx s l p := by
  rcases endsHere_iff.mp h with hroute | hroute <;> simp only [switchPkt, sendOut, hroute]

/-- The port mask of a plot has 64 bits, so a packet that passes came in on one of 128 links, on one of 16 port dies (R14, R302). -/
theorem linkDie_lt_of_passes (h : passes s l p) : linkDie l < 16 := by
  obtain ⟨-, -, -, -, -, -, -, hport⟩ := h
  have := BitVec.lt_of_getLsbD hport
  simp only [linkPort, linkDie] at *
  omega

end Sys2Proof.Machine
end

section
/-! PROOF. What the operations of a Dovecote leave as it is: routes, the rest of the state by buffers, and every descriptor by buffers,
signals, records and errors (R127, R176, R190, R279). -/

namespace Sys2Proof.Machine

open Sys2Proof.Safety

variable {r s t u : State}

/-- Two states that a run of operations keeps related are related at its end. -/
theorem foldl_rel {α : Type} {R : State → State → Prop} (hrefl : ∀ s, R s s) (htrans : ∀ {s t u}, R s t → R t u → R s u)
    {f : State → α → State} (h : ∀ s a, R s (f s a)) (l : List α) (s : State) : R s (l.foldl f s) :=
  List.foldlRecOn (motive := R s) l f (hrefl s) (fun t ht a _ => htrans ht (h t a))

/-! ### Pools -/

/-- `t` differs from `s` at most in the pools and in what has been reported. -/
def poolsOnly (s t : State) : Prop := t = { s with pools := t.pools, tele := t.tele }

theorem poolsOnly_refl (s : State) : poolsOnly s s := rfl

theorem poolsOnly_trans (hst : poolsOnly s t) (htu : poolsOnly t u) : poolsOnly s u := by
  unfold poolsOnly at *
  rw [htu, hst]

/-- The parts of the state on which routes, homes and deliveries depend are as they were. -/
theorem poolsOnly_data (h : poolsOnly s t) :
    t.coll = s.coll ∧ t.pavs = s.pavs ∧ t.plots = s.plots ∧ t.hbm = s.hbm ∧ t.route = s.route ∧ t.sd = s.sd := by
  unfold poolsOnly at h
  rw [h]
  exact ⟨rfl, rfl, rfl, rfl, rfl, rfl⟩

theorem poolsOnly_poolErr (s : State) (id : Nat) (p : Pool) (st : U16) (h : U32) : poolsOnly s (poolErr s id p st h) := by
  simp only [poolErr]
  split
  · rfl
  · split
    · rfl
    · split <;> rfl

theorem poolsOnly_poolRelease (s : State) (h : U32) : poolsOnly s (poolRelease s h).1 := by
  unfold poolRelease
  split
  · rfl
  · dsimp only
    split
    · dsimp only
      exact poolsOnly_poolErr ..
    · split
      · dsimp only
        exact poolsOnly_poolErr ..
      · rfl

theorem poolsOnly_poolAlloc (s : State) (id : Nat) : poolsOnly s (poolAlloc s id).1 := by
  unfold poolAlloc
  split
  · rfl
  · split
    · dsimp only
      exact poolsOnly_poolErr ..
    · rfl

theorem poolsOnly_freeBufs (s : State) (hs : List U32) : poolsOnly s (freeBufs s hs) := by
  refine foldl_rel poolsOnly_refl poolsOnly_trans (fun t h => ?_) hs s
  split
  · exact poolsOnly_refl t
  · exact poolsOnly_poolRelease t h

theorem poolsOnly_stageBuf (s : State) (d : Desc) : poolsOnly s (stageBuf s d).1 := by
  unfold stageBuf
  split
  · exact poolsOnly_refl s
  · exact poolsOnly_poolAlloc ..

/-! ### Routes and running plots -/

theorem containedHold_route (s : State) (ns : List Nat) (cause : Nat) : (containedHold s ns cause).route = s.route := by
  unfold containedHold
  split
  · rfl
  · exact List.foldlRecOn (motive := fun t : State => t.route = s.route) ns _ rfl (fun t ht n _ => ht)

theorem handOff_route (s : State) (l source : Nat) (p : Pkt) : (handOff s l source p).route = s.route := by
  unfold handOff
  split
  · rfl
  · split
    · exact containedHold_route ..
    · rfl

theorem retractAll_route (s : State) (j : Nat) (d : Desc) (vs : List ProvSeg) : (retractAll s j d vs).route = s.route := by
  refine List.foldlRecOn (motive := fun t : State => t.route = s.route) vs _ rfl (fun t ht v _ => ?_)
  exact List.foldlRecOn (motive := fun u : State => u.route = s.route) v.outLinks _ ht (fun u hu l _ => (handOff_route ..).trans hu)

theorem dropDesc_route (s : State) (j i : Nat) (d : Desc) : (dropDesc s j i d).route = s.route := by
  obtain ⟨-, -, -, -, hroute, -⟩ := poolsOnly_data (poolsOnly_freeBufs s (descBufs d))
  exact (retractAll_route ..).trans hroute

theorem dropDescs_route (s : State) (ds : List (Nat × Nat × Desc)) : (dropDescs s ds).route = s.route :=
  List.foldlRecOn (motive := fun t : State => t.route = s.route) ds _ rfl (fun _ ht _ _ => (dropDesc_route ..).trans ht)

/-- A hold is pending until the tick: the plot runs on as it did (R368). -/
theorem plotRuns_raiseHold (s : State) (n cause k : Nat) : plotRuns (raiseHold s n cause) k = plotRuns s k := by
  by_cases hk : k = n
  · simp only [plotRuns, raiseHold, hk, plotAt_modPlot_same]
  · simp only [plotRuns, raiseHold, plotAt_modPlot_ne _ _ hk]

theorem plotRuns_containedHold (s : State) (ns : List Nat) (cause k : Nat) : plotRuns (containedHold s ns cause) k = plotRuns s k := by
  unfold containedHold
  split
  · rfl
  · exact List.foldlRecOn (motive := fun t : State => plotRuns t k = plotRuns s k) ns _ rfl
      (fun t ht n _ => (plotRuns_raiseHold t n cause k).trans ht)

theorem plotRuns_handOff (s : State) (l source : Nat) (p : Pkt) (k : Nat) : plotRuns (handOff s l source p) k = plotRuns s k := by
  unfold handOff
  split
  · rfl
  · split
    · exact plotRuns_containedHold ..
    · rfl

theorem plotRuns_sayOnce (s : State) (l : Nat) (c : RecKind) (src : Src) (pl : Option Nat) (args : List (Nat × Nat)) (k : Nat) :
    plotRuns (sayOnce s l c src pl args) k = plotRuns s k := by
  unfold sayOnce
  split <;> rfl

theorem plotRuns_sendOut (s : State) (src : Option Nat) (p : Pkt) (k : Nat) : plotRuns (sendOut s src p) k = plotRuns s k := by
  unfold sendOut
  split
  case h_1 => exact plotRuns_handOff ..
  case h_2 =>
    cases src with
    | none => rfl
    | some l => exact plotRuns_sayOnce ..
  case h_3 =>
    cases src with
    | none => rfl
    | some l => exact plotRuns_sayOnce ..
  case h_4 => rfl

/-! ### Descriptors -/

theorem find?_tblSet_same {α : Type} (t : Tbl α) (i : Nat) (v : α) : (tblSet t i v).find? (fun e => e.1 == i) = some (i, v) := by
  induction t with
  | nil => simp [tblSet]
  | cons e t ih =>
    obtain ⟨k, w⟩ := e
    simp only [tblSet]
    split
    · simp
    · split
      · simp
      · rename_i hne _
        rw [List.find?_cons_of_neg (by simpa using Ne.symm hne), ih]

theorem mem_tblSet_same {α : Type} (t : Tbl α) (i : Nat) (v : α) : (i, v) ∈ tblSet t i v := List.mem_of_find?_eq_some (find?_tblSet_same t i v)

theorem descAt?_setDesc_same (s : State) (j i : Nat) (d : Desc) : descAt? (setDesc s j i d) j i = some d := by
  simp only [descAt?, setDesc, dieAt_modDie_same, find?_tblSet_same, Option.map_some]

/-- The descriptors of every Dovecote and the count of stalls are as they were in `r`. -/
def descsKept (r s : State) : Prop := (∀ j, (dieAt s j).descs = (dieAt r j).descs) ∧ s.coll.stalls = r.coll.stalls

theorem descsKept_refl (s : State) : descsKept s s := ⟨fun _ => rfl, rfl⟩

theorem descsKept_of_coll_eq (hcoll : t.coll = s.coll) (h : descsKept r s) : descsKept r t := by
  unfold descsKept dieAt at *
  rwa [hcoll]

theorem descsKept_of_poolsOnly (hst : poolsOnly s t) (h : descsKept r s) : descsKept r t := descsKept_of_coll_eq (poolsOnly_data hst).1 h

theorem descsKept_of_portsOnly (hst : portsOnly s t) (h : descsKept r s) : descsKept r t := descsKept_of_coll_eq (portsOnly_data hst).1 h

theorem descsKept_modDie (j : Nat) {f : Dovecote → Dovecote} (hf : ∀ d, (f d).descs = d.descs) (h : descsKept r s) :
    descsKept r (modDie s j f) := by
  refine ⟨fun k => ?_, h.2⟩
  by_cases hk : k = j
  · rw [hk, dieAt_modDie_same, hf, h.1]
  · rw [dieAt_modDie_ne _ _ hk, h.1]

theorem descsKept_descAt? (h : descsKept r s) (j i : Nat) : descAt? s j i = descAt? r j i := by rw [descAt?, descAt?, h.1]

/-! ### Errors and holds -/

theorem descsKept_emit {k : RecKind} {src : Src} {pl : Option Nat} {args : List (Nat × Nat)} (h : descsKept r s) :
    descsKept r (emit s k src pl args) := h

theorem descsKept_containedHold {ns : List Nat} {cause : Nat} (h : descsKept r s) : descsKept r (containedHold s ns cause) :=
  descsKept_of_portsOnly (portsOnly_containedHold s ns cause) h

theorem descsKept_plainHold {ns : List Nat} {cause : Nat} (h : descsKept r s) : descsKept r (plainHold s ns cause) :=
  descsKept_of_portsOnly (portsOnly_raiseHolds s ns cause) h

theorem descsKept_uncontained (h : descsKept r s) : descsKept r (uncontained s) := by
  unfold uncontained
  exact descsKept_plainHold (descsKept_of_coll_eq (s := s) rfl h)

theorem descsKept_pavFault {k : RecKind} {i : Nat} (h : descsKept r s) : descsKept r (pavFault s k i) := by
  unfold pavFault
  exact descsKept_containedHold (descsKept_of_coll_eq (s := s) rfl h)

theorem descsKept_dieFault {j : Nat} {ns : List Nat} (h : descsKept r s) : descsKept r (dieFault s j ns) :=
  descsKept_containedHold (descsKept_emit h)

theorem descsKept_hbmUncorrected {a : Nat} {consumed : Bool} (h : descsKept r s) : descsKept r (hbmUncorrected s a consumed) := by
  simp only [hbmUncorrected]
  split
  · exact descsKept_uncontained (descsKept_emit h)
  · split
    · exact descsKept_containedHold (descsKept_emit h)
    · exact descsKept_emit h

/-! ### Buffers and records written -/

theorem descsKept_placeWrite {pl : Place} {bs : List Byte} (h : descsKept r s) : descsKept r (placeWrite s pl bs).1 := by
  cases pl with
  | sram p a => exact h
  | die j a => exact descsKept_modDie j (fun _ => rfl) h
  | hbm k o => exact h

theorem descsKept_placePut {n : Nat} {pl : Place} {bs : List Byte} (h : descsKept r s) : descsKept r (placePut s n pl bs) := by
  have hwrite := descsKept_placeWrite (pl := pl) (bs := bs) h
  unfold placePut
  split <;> rename_i heq <;> rw [heq] at hwrite
  · exact descsKept_hbmUncorrected hwrite
  · exact descsKept_pavFault hwrite
  · exact descsKept_dieFault hwrite
  · exact hwrite

theorem descsKept_fillBuf {b : U32} {bs : List Byte} (h : descsKept r s) : descsKept r (fillBuf s b bs) := by
  unfold fillBuf
  split
  · exact h
  · exact descsKept_placePut h

theorem descsKept_regWrite {n off : Nat} {bs : List Byte} (h : descsKept r s) : descsKept r (regWrite s n off bs) := by
  simp only [regWrite]
  split
  · exact h
  · exact descsKept_hbmUncorrected h

theorem descsKept_writeRecord {d : Desc} {st : U16} (h : descsKept r s) : descsKept r (writeRecord s d st) := by
  unfold writeRecord
  split
  · exact h
  · exact descsKept_regWrite h

theorem descsKept_freeRx {l : Nat} {p : Pkt} (h : descsKept r s) : descsKept r (freeRx s l p) := by
  simp only [freeRx]
  split
  · exact h
  · exact h

/-! ### Signals -/

theorem descsKept_foldl {α : Type} {f : State → α → State} {l : List α} (hf : ∀ t a, descsKept r t → descsKept r (f t a))
    (h : descsKept r s) : descsKept r (l.foldl f s) :=
  List.foldlRecOn (motive := descsKept r) l f h (fun t ht a _ => hf t a ht)

theorem descsKept_moved {n : Nat} (h : descsKept r s) : descsKept r (moved s n) := h

theorem descsKept_setTrig {die plot rel : Nat} {c : Counter} (h : descsKept r s) : descsKept r (setTrig s die plot rel c) :=
  descsKept_modDie die (fun _ => rfl) h

theorem descsKept_ctrClamped {n : Nat} {src : Src} {first : Bool} {ctr : Nat} {up : Bool} {o : CtrSrc} {senders : Nat}
    (h : descsKept r s) : descsKept r (ctrClamped s n src first ctr up o senders) := by
  simp only [ctrClamped]
  split
  · exact descsKept_emit h
  · exact h

theorem descsKept_signalPav {p ctr : Nat} {sigs : List (Nat × CtrSrc)} (h : descsKept r s) : descsKept r (signalPav s p ctr sigs).1 := by
  have hadded {n : Option Nat} {c : Counter} :
      descsKept r (match n with | some n => moved (setCtr s p ctr c) n | none => setCtr s p ctr c) := by
    cases n with
    | none => exact h
    | some n => exact h
  simp only [signalPav]
  split
  · split
    · exact h
    · exact descsKept_foldl (fun _ _ ht => descsKept_emit ht) h
  · split
    · exact descsKept_ctrClamped hadded
    · exact hadded
    · exact hadded

theorem descsKept_signalTrig {die plot rel : Nat} {sigs : List (Nat × CtrSrc)} (h : descsKept r s) :
    descsKept r (signalTrig s die plot rel sigs).1 := by
  simp only [signalTrig]
  split
  · exact h
  · split
    · exact descsKept_foldl (fun _ _ ht => descsKept_emit ht) h
    · split
      · exact descsKept_ctrClamped (descsKept_modDie die (fun _ => rfl) (descsKept_moved (descsKept_setTrig h)))
      · exact descsKept_moved (descsKept_setTrig h)

theorem descsKept_endSignals {j : Nat} {d : Desc} (h : descsKept r s) : descsKept r (endSignals s j d).1 := by
  have hce : descsKept r (if dCe d then signalTrig s j d.plot (dCctr d) [(dCinc d, ⟨2, j⟩)] else (s, .applied)).1 := by
    split
    · exact descsKept_signalTrig h
    · exact h
  simp only [endSignals]
  split
  · split
    · exact descsKept_signalPav hce
    · exact hce
  · exact hce

end Sys2Proof.Machine
end

section
/-! PROOF. B2 launches that reach a module of their group, and the B2_STATUS of a mismatch (R3, R6, R222, R223; log entries 32 and 110). -/

namespace Sys2Proof.Machine

open Sys2Proof.Safety

variable {s t : State} {l n : Nat} {p : Pkt}

/-! ### What a launch meets -/

/-- A launch that its group and plot may have: legal fields, an endpoint of the group, a table that keeps its rules, and a TAG that no other
collective of the plot has (R6, R201, Table 8.9). -/
def launchFits (s : State) (n : Nat) (g : Launch) (entries : List Nat) (src : BitVec 24) : Prop :=
  launchOk g = true ∧ (∃ e ∈ entries, BitVec.ofNat 24 (fieldN e 40 24) = src) ∧ groupFits (portsOfPlot s n).length g entries = true ∧
    tagTaken s n g = false

/-- The model's test for it, which is of the contrary. -/
theorem launchUnfit_iff (s : State) (n : Nat) (g : Launch) (entries : List Nat) (src : BitVec 24) :
    (!launchOk g || !entries.any (fun e => BitVec.ofNat 24 (fieldN e 40 24) == src) || !groupFits (portsOfPlot s n).length g entries ||
      tagTaken s n g) = true ↔ ¬ launchFits s n g entries src := by
  simp only [launchFits, not_and_or, Bool.or_eq_true, Bool.not_eq_true', ← Bool.not_eq_true, List.any_eq_true, beq_iff_eq, or_assoc, not_not]

theorem launchHere_off (l : Nat) (hmode : s.coll.b2Enable.getLsbD p.plot.toNat = false) : launchHere s l p = s := by
  simp only [launchHere, hmode, Bool.not_false, if_true]

section Launch

variable {home : BitVec 24} {entries : List Nat} (hmode : s.coll.b2Enable.getLsbD p.plot.toNat = true) (hsize : 4096 ≤ (launchOf p).bytes)
include hmode hsize

theorem launchHere_noGroup (l : Nat) (hgroup : (b2Groups s.coll.b2Groups)[(launchOf p).grp]? = none) :
    launchHere s l p = refuseLaunch s p.plot.toNat (launchOf p).tag (p2pSrc p) stSegInvalid := by
  simp only [launchHere, hmode, Bool.not_true, Bool.false_eq_true, if_false, if_neg (Nat.not_lt.mpr hsize), hgroup]

variable (hgroup : (b2Groups s.coll.b2Groups)[(launchOf p).grp]? = some (home, entries))
include hgroup

theorem launchHere_unfit (l : Nat) (hunfit : ¬ launchFits s p.plot.toNat (launchOf p) entries (p2pSrc p)) :
    launchHere s l p = refuseLaunch s p.plot.toNat (launchOf p).tag (p2pSrc p) stSegInvalid := by
  simp only [launchHere, hmode, Bool.not_true, Bool.false_eq_true, if_false, if_neg (Nat.not_lt.mpr hsize), hgroup,
    if_pos ((launchUnfit_iff _ _ _ _ _).mpr hunfit)]

variable (hfits : launchFits s p.plot.toNat (launchOf p) entries (p2pSrc p)) (hfirst : b2Descs s p.plot.toNat (launchOf p).tag (launchOf p).grp = [])
include hfits hfirst

/-- The first launch of a collective finds no slot on its arrival die (R223). -/
theorem launchHere_noSlot (l : Nat) (hbuild : buildDesc s p.plot.toNat (linkDie l) (launchOf p) home entries [] = none) :
    launchHere s l p = refuseLaunch s p.plot.toNat (launchOf p).tag (p2pSrc p) stB2NoSlot := by
  simp only [launchHere, hmode, Bool.not_true, Bool.false_eq_true, if_false, if_neg (Nat.not_lt.mpr hsize), hgroup,
    if_neg (mt (launchUnfit_iff _ _ _ _ _).mp (not_not.mpr hfits)), hfirst, List.findSome?_nil, List.any_nil, hbuild]

/-- The first launch of a collective builds its descriptor on its arrival die and is accepted (R222). -/
theorem launchHere_built (l : Nat) (hbuild : buildDesc s p.plot.toNat (linkDie l) (launchOf p) home entries [] = some t) :
    launchHere s l p =
      acceptLaunch t l p.plot.toNat p (launchOf p) home (b2Descs t p.plot.toNat (launchOf p).tag (launchOf p).grp) (p2pSrc p) := by
  simp only [launchHere, hmode, Bool.not_true, Bool.false_eq_true, if_false, if_neg (Nat.not_lt.mpr hsize), hgroup,
    if_neg (mt (launchUnfit_iff _ _ _ _ _).mp (not_not.mpr hfits)), hfirst, List.findSome?_nil, List.any_nil, hbuild]

end Launch

/-! ### The descriptor that a launch builds (R222) -/

/-- In the sum that builds an image, NMEM and NELEM keep to their fields and TAG to its own (Table 8.2). -/
theorem tagField_of_image {op rop ifmt ofmt rm lead deliv wb tag nmem nelem : Nat} (htag : tag < 2 ^ 16) (hnmem : nmem ≤ 131072)
    (hnelem : nelem < 2 ^ 32) :
    (op * 2 ^ 504 + rop * 2 ^ 500 + ifmt * 2 ^ 496 + ofmt * 2 ^ 492 + rm * 2 ^ 490 + lead * 2 ^ 488 + deliv * 2 ^ 484 + wb * 2 ^ 472 +
      tag * 2 ^ 399 + nmem * 2 ^ 381 + nelem * 2 ^ 333 + 0xFFFF * 2 ^ 317) % 2 ^ 512 / 2 ^ 399 % 2 ^ 16 = tag := by
  omega

/-- TAG of a built image is that of its launch (Tables 8.2 and 8.9). -/
theorem tag_builtImg (s : State) (p : Pkt) {nmem : Nat} (lead : Bool) (hnmem : nmem ≤ 131072) :
    (builtImg s (launchOf p) nmem lead).extractLsb' 399 16 = (launchOf p).tag := by
  have hnelem : (launchOf p).bytes / (fmtBits (launchOf p).fmt / 8) < 2 ^ 32 :=
    (Nat.div_le_self _ _).trans_lt (Nat.mod_lt _ (Nat.two_pow_pos 32))
  apply BitVec.eq_of_toNat_eq
  rw [builtImg, BitVec.extractLsb'_toNat, BitVec.toNat_ofNat, Nat.shiftRight_eq_div_pow]
  exact tagField_of_image (launchOf p).tag.isLt hnmem hnelem

/-- What builds on one die leaves the descriptors of the others. -/
theorem descs_buildOn_ne {g : Launch} {home : BitVec 24} {entries : List Nat} {who : List (BitVec 24)} {j k : Nat} (h : j ≠ k) :
    (dieAt (buildOn s n g home entries who k) j).descs = (dieAt s j).descs := by
  rw [buildOn, setDesc, dieAt_modDie_ne _ _ h]

/-- Every descriptor and note of a B2 collective, of those that a port die holds. -/
theorem mem_b2Descs {j i : Nat} {d : Desc} {b : B2Info} {tag : BitVec 16} (hj : j < 16) (hmem : (i, d) ∈ (dieAt s j).descs)
    (hplot : d.plot = n) (htag : dTag d = tag) (hb : d.b2 = some b) : (j, i, d) ∈ b2Descs s n tag b.group := by
  simp only [b2Descs, List.mem_flatMap, List.mem_range, List.mem_map, List.mem_filter]
  refine ⟨j, hj, (i, d), ⟨hmem, ?_⟩, rfl⟩
  simp only [hplot, htag, hb, beq_self_eq_true, Bool.and_self]

/-- A built descriptor stands on its die, with the launch's plot, TAG and group. -/
theorem mem_buildOn (s : State) (n : Nat) (p : Pkt) (home : BitVec 24) {entries : List Nat} (who : List (BitVec 24)) (j : Nat)
    (hnmem : entries.length ≤ 131072) :
    ∃ e ∈ (dieAt (buildOn s n (launchOf p) home entries who j) j).descs,
      e.2.plot = n ∧ dTag e.2 = (launchOf p).tag ∧ ∃ b, e.2.b2 = some b ∧ b.group = (launchOf p).grp := by
  rw [buildOn, setDesc, dieAt_modDie_same]
  exact ⟨_, mem_tblSet_same .., rfl, tag_builtImg s p _ hnmem, _, rfl, rfl⟩

theorem buildDesc_full {home : BitVec 24} {entries : List Nat} {j : Nat} {g : Launch} (hslot : slotFree s j = false)
    (ds : List (Nat × Nat × Desc)) : buildDesc s n j g home entries ds = none := by
  simp only [buildDesc, hslot, Bool.not_false, if_true]

/-- With a slot free, the first launch is built on its arrival die and perhaps on dies towards other modules, and is then found there. -/
theorem buildDesc_first {home : BitVec 24} {entries : List Nat} {j : Nat} (hslot : slotFree s j = true) (hj : j < 16)
    (hnmem : entries.length ≤ 131072) :
    ∃ t, buildDesc s n j (launchOf p) home entries [] = some t ∧
      (b2Descs t n (launchOf p).tag (launchOf p).grp).any (fun e => e.1 == j) = true ∧
      t.coll.b2Launches = s.coll.b2Launches ∧ plotRuns t n = plotRuns s n := by
  simp only [buildDesc, hslot, Bool.not_true, Bool.false_eq_true, if_false, List.any_nil, List.foldl_cons]
  refine ⟨_, rfl, ?_, ?_, ?_⟩
  · obtain ⟨⟨i, d⟩, hmem, hplot, htag, b, hb, hgroup⟩ := mem_buildOn s n p home _ j hnmem
    refine List.any_eq_true.mpr ⟨(j, i, d), hgroup ▸ mem_b2Descs hj ?_ hplot htag hb, beq_self_eq_true j⟩
    refine List.foldlRecOn (motive := fun t : State => (i, d) ∈ (dieAt t j).descs) _ _ hmem (fun t ht k hk => ?_)
    have hkj : j ≠ k := by
      rintro rfl
      simp at hk
    rw [descs_buildOn_ne hkj]
    exact ht
  · exact List.foldlRecOn (motive := fun t : State => t.coll.b2Launches = s.coll.b2Launches) _ _ rfl (fun _ ht _ _ => ht)
  · exact List.foldlRecOn (motive := fun t : State => plotRuns t n = plotRuns s n) _ _ rfl (fun _ ht _ _ => ht)

/-- Notes in the descriptors of a collective neither count launches nor start a plot. -/
theorem mapB2_apart (s : State) (ds : List (Nat × Nat × Desc)) (f : B2Info → B2Info) (n : Nat) :
    (mapB2 s ds f).coll.b2Launches = s.coll.b2Launches ∧ plotRuns (mapB2 s ds f) n = plotRuns s n :=
  List.foldlRecOn (motive := fun t : State => t.coll.b2Launches = s.coll.b2Launches ∧ plotRuns t n = plotRuns s n) ds _ ⟨rfl, rfl⟩
    (fun _ ht _ _ => ht)

/-- A launch accepted while its plot does not run is counted, and starts nothing (R222, R226). -/
theorem b2Launches_acceptLaunch {g : Launch} {home : BitVec 24} {ds : List (Nat × Nat × Desc)} {src : BitVec 24}
    (hidle : plotRuns s n = false) : (acceptLaunch s l n p g home ds src).coll.b2Launches = s.coll.b2Launches + 1 := by
  simp only [acceptLaunch]
  generalize hcounted : ({ s with coll := { s.coll with b2Launches := s.coll.b2Launches + 1 } } : State) = c
  obtain ⟨hlaunches, hruns⟩ := mapB2_apart c ds (fun b => { b with launchers := addNew b.launchers src }) n
  have hsent (u : State) : (sendOut u (some l) { p with dest := home }).coll = u.coll := (portsOnly_data (portsOnly_sendOut u _ _)).1
  have hc : c.coll.b2Launches = s.coll.b2Launches + 1 ∧ plotRuns c n = false := by
    rw [← hcounted]
    exact ⟨rfl, hidle⟩
  split
  · rw [if_neg (by rw [hruns, hc.2]; exact Bool.false_ne_true), hlaunches, hc.1]
  · rw [if_neg (by rw [plotRuns_sendOut, hruns, hc.2]; exact Bool.false_ne_true), hsent, hlaunches, hc.1]

/-! ### The two packets -/

theorem opened_net (s : State) (l : Nat) (p : Pkt) : ∃ w, opened s l p = { s with net := w } := by
  rcases opened_cases s l p with h | ⟨x, h⟩
  · exact ⟨s.net, h⟩
  · exact ⟨_, h⟩

theorem countPair_net (s : State) (l : Nat) (p : Pkt) : ∃ w, countPair s l p = { s with net := w } := by
  rcases countPair_cases s l p with h | ⟨x, h⟩
  · exact ⟨s.net, h⟩
  · exact ⟨_, h⟩

/-- The generation accepted, the pair counted and the acknowledgement owed change links only (R295, R296, R301). -/
theorem owed_net (s : State) (l : Nat) (p : Pkt) : ∃ w, oweAck (countPair (opened s l p) l p) l p = { s with net := w } := by
  obtain ⟨w, hopened⟩ := opened_net s l p
  obtain ⟨v, hcounted⟩ := countPair_net (opened s l p) l p
  exact ⟨_, by rw [hcounted, hopened]; rfl⟩

theorem exec_b2Launch_out {k : Nat} (hpass : passes s l p) (hopc : p.opc = opB2Launch) (hwin : police s l p = .pass)
    (hroute : routeOf s (some l) p = .out k) (htakes : takes s k p) :
    exec (.b2Launch l p) s = .next (settle (freeRx (queuedOn (countPair (opened s l p) l p) k l p) l p)) := by
  have hroute' : routeOf (countPair (opened s l p) l p) (some l) p = .out k := by rw [routeOf_countPair, routeOf_opened, hroute]
  rw [exec_b2Launch_admitted hpass hopc hwin, launchPass, endsHere_of_routeOf_out hroute', if_neg Bool.false_ne_true,
    switchPkt_out hroute' (takes_countPair (takes_opened htakes))]

theorem exec_b2Launch_here (hpass : passes s l p) (hopc : p.opc = opB2Launch) (hwin : police s l p = .pass) (hends : endsHere s l p = true) :
    exec (.b2Launch l p) s = .next (settle (freeRx (launchHere (oweAck (countPair (opened s l p) l p) l p) l p) l p)) := by
  rw [exec_b2Launch_admitted hpass hopc hwin, launchPass_here (by rw [endsHere_countPair, endsHere_opened, hends])]

/-- The packet that names a mismatch takes the built descriptors of its collective off this module and goes no further (R223). -/
theorem exec_b2Status_mismatch (hpass : passes s l p) (hopc : p.opc = opB2Status) (hext : p.ext = stB2Mismatch) (hends : endsHere s l p = true) :
    exec (.b2Status l p) s = .next (settle (freeRx
      (dropDescs (opened s l p) ((collDescs (opened s l p) p.plot.toNat p.tag).filter (fun e => e.2.2.b2.isSome))) l p)) := by
  have hin : [opB2Status].contains p.opc = true := by rw [hopc]; rfl
  have hhere : endsHere (dropDescs (opened s l p) ((collDescs (opened s l p) p.plot.toNat p.tag).filter (fun e => e.2.2.b2.isSome))) l p = true := by
    rw [endsHere_congr (dropDescs_route _ _), endsHere_opened, hends]
  show done (onPacket s l p [opB2Status] _) = _
  rw [onPacket_passes _ hpass hin]
  simp only [hext, beq_self_eq_true, if_true, switchPkt_here hhere]
  rfl

theorem collDescs_opened (s : State) (l : Nat) (p : Pkt) (n : Nat) (tag : BitVec 16) : collDescs (opened s l p) n tag = collDescs s n tag := by
  rcases opened_cases s l p with h | ⟨x, h⟩
  · rw [h]
  · rw [h]; rfl

/-- Settles O31: the packet's route, the tests of a launch in the model's order, and what its first launch builds. -/
theorem b2Packets : Obligations.B2Packets := by
  unfold Obligations.B2Packets
  intro s l p hpass n g src o owed
  obtain ⟨w, howed⟩ : ∃ w, owed = { s with net := w } := owed_net s l p
  refine ⟨fun hopc hwin => ⟨?out, fun hends => ?here⟩, ?mismatch⟩
  case out => exact fun k hroute htakes => exec_b2Launch_out hpass hopc hwin hroute htakes
  case mismatch =>
    intro hopc hext hroute
    rw [exec_b2Status_mismatch hpass hopc hext (endsHere_iff.mpr hroute), collDescs_opened]
  case here =>
    intro on
    have hon {t : State} (h : launchHere owed l p = t) : on t := h ▸ exec_b2Launch_here hpass hopc hwin hends
    have hcoll : owed.coll = s.coll := by rw [howed]
    refine ⟨fun hmode => ?off, fun hmode hsize => ?small, fun hmode hsize hgroup => ?noGroup, ?group⟩
    case off => exact hon (launchHere_off l (hcoll ▸ hmode))
    case small => exact hon (launchHere_small l (hcoll ▸ hmode) hsize)
    case noGroup => exact hon (launchHere_noGroup (hcoll ▸ hmode) hsize l (hcoll ▸ hgroup))
    case group =>
      intro home entries hmode hsize hgroup fit
      have hfit : fit ↔ launchFits owed n g entries src := by rw [howed]; exact Iff.rfl
      refine ⟨fun hunfit => ?unfit, fun hfits hfirst => ⟨fun hslot => ?full, fun hslot => ?first⟩⟩
      case unfit => exact hon (launchHere_unfit (hcoll ▸ hmode) hsize (hcoll ▸ hgroup) l (mt hfit.mpr hunfit))
      case full =>
        have hslot' : slotFree owed (linkDie l) = false := by rw [howed]; exact hslot
        have hfirst' : b2Descs owed n g.tag g.grp = [] := by rw [howed]; exact hfirst
        exact hon (launchHere_noSlot (hcoll ▸ hmode) hsize (hcoll ▸ hgroup) (hfit.mp hfits) hfirst' l (buildDesc_full hslot' []))
      case first =>
        have hslot' : slotFree owed (linkDie l) = true := by rw [howed]; exact hslot
        have hfirst' : b2Descs owed n g.tag g.grp = [] := by rw [howed]; exact hfirst
        have hnmem : entries.length ≤ 131072 := by
          obtain ⟨-, -, hgroup, -⟩ := hfits
          simp only [groupFits, Bool.and_eq_true, decide_eq_true_eq] at hgroup
          exact hgroup.1.1
        obtain ⟨s', hbuild, hfound, hlaunches, hruns⟩ :=
          buildDesc_first (n := n) (p := p) (home := home) hslot' (linkDie_lt_of_passes hpass) hnmem
        refine ⟨s', hbuild, hfound,
          hon (launchHere_built (hcoll ▸ hmode) hsize (hcoll ▸ hgroup) (hfit.mp hfits) hfirst' l hbuild), fun hidle => ?_⟩
        have hidle' : plotRuns s' n = false := by rw [hruns, howed]; exact hidle
        rw [b2Launches_acceptLaunch hidle', hlaunches, hcoll]

end Sys2Proof.Machine
end

section
/-! PROOF. Segments (R195, R196, R197, R203, R207, R208, R224): which drop meets a segment, what a staged or held one waits for, and what a
contribution to an all-gather sends down. -/

namespace Sys2Proof.Machine

open Sys2Proof.Safety

variable {s t : State} {j i l : Nat} {d : Desc} {p : Pkt} {a : Arrival}

/-! ### The refusal of a segment (R203, R208) -/

/-- A run number is not the next one's. -/
theorem run_ne_succ (r : BitVec 16) : r + 1 ≠ r := by bv_omega

theorem segRefusal_stale (hnext : sRun p ≠ d.run + 1) (hcur : d.triggered = false ∨ sRun p ≠ d.run) :
    segRefusal s d l p = some (rkCollStale, stStaleRun) := by
  have hcur' : (d.triggered && sRun p == d.run) = false := by rcases hcur with h | h <;> simp [h]
  simp only [segRefusal, hcur', bne_iff_ne.mpr hnext, Bool.not_false, Bool.and_self, if_true]

theorem segRefusal_current (htrig : d.triggered = true) (hrun : sRun p = d.run) :
    segRefusal s d l p =
      if segFault s d l d.prog p || seenSeg s d d.prog p || stagedSeg s d p then some (rkCollSegInvalid, stSegInvalid) else none := by
  simp only [segRefusal, htrig, hrun, beq_self_eq_true, Bool.and_self, Bool.not_true, Bool.false_and, Bool.false_eq_true, if_false, if_true,
    Bool.true_and]

/-- A segment of the next run is held to nothing that its run has yet to receive. -/
theorem segRefusal_next (hrun : sRun p = d.run + 1) (hfault : segFault s d l {} p = false) (hstaged : stagedSeg s d p = false) :
    segRefusal s d l p = none := by
  have hcur : (sRun p == d.run) = false := by rw [hrun]; exact beq_false_of_ne (run_ne_succ d.run)
  have hnext : (sRun p != d.run + 1) = false := by rw [hrun]; exact bne_self_eq_false _
  simp only [segRefusal, hcur, hnext, Bool.and_false, Bool.false_eq_true, if_false, hfault, hstaged, Bool.false_and, Bool.or_self]

theorem segReady_next (hrun : sRun p = d.run + 1) : segReady s d p = false := by
  have hcur : (sRun p == d.run) = false := by rw [hrun]; exact beq_false_of_ne (run_ne_succ d.run)
  simp only [segReady, hcur, Bool.and_false, Bool.false_and]

/-! ### A segment at ingress (R203, R207, R208) -/

theorem atIngress_gone (hdesc : descAt? s j i = none) : atIngress s j i l p a = freeRx s l p := by
  simp only [atIngress, acceptSeg, hdesc]

theorem atIngress_refused {k : RecKind} {st : U16} (hdesc : descAt? s j i = some d) (href : segRefusal s d l p = some (k, st)) :
    atIngress s j i l p a = freeRx (dropSeg s j k st p) l p := by
  simp only [atIngress, acceptSeg, hdesc, href]

theorem atIngress_run (hdesc : descAt? s j i = some d) (href : segRefusal s d l p = none) (hready : segReady s d p = true)
    (hrun : runSeg s j i l d p a = .ok t) : atIngress s j i l p a = freeRx t l p := by
  simp only [atIngress, acceptSeg, hdesc, href, hready, if_true, hrun]

theorem atIngress_staged {b : U32} (hdesc : descAt? s j i = some d) (href : segRefusal s d l p = none) (hready : segReady s d p = false)
    (hbuf : stageBuf s d = (t, some b)) :
    atIngress s j i l p a = freeRx (setDesc (fillBuf t b p.body) j i
      { d with early := d.early ++ [{ pkt := p, link := l, buf := b, arr := a }] }) l p := by
  simp only [atIngress, acceptSeg, hdesc, href, hready, Bool.false_eq_true, if_false, stageEarly, hbuf]

theorem atIngress_held (hdesc : descAt? s j i = some d) (href : segRefusal s d l p = none) (hready : segReady s d p = false)
    (hbuf : stageBuf s d = (t, none)) : atIngress s j i l p a = holdSeg t j i l p a := by
  simp only [atIngress, acceptSeg, hdesc, href, hready, Bool.false_eq_true, if_false, stageEarly, hbuf]

theorem provIngress_gone (hdesc : descAt? s j i = none) : provIngress s j i l p a = freeRx s l p := by
  simp only [provIngress, hdesc]

theorem provIngress_refused {k : RecKind} {st : U16} (hdesc : descAt? s j i = some d) (href : segRefusal s d l p = some (k, st)) :
    provIngress s j i l p a = freeRx (dropSeg s j k st p) l p := by
  simp only [provIngress, hdesc, href]

/-! ### A contribution to an all-gather (R195, R196) -/

/-- What a run notes of a contribution to an all-gather. -/
def noteGather (p : Pkt) (a : Arrival) (r : Run) : Run :=
  let r := { r with got := r.got ++ [segKey p], nOffsched := r.nOffsched + bit a.off }
  if p.vc = 2 then noteArrival r (sRank p) a else r

/-- It goes down once on every link of a member, its own sender's too (log entry 28). -/
theorem runSeg_gather (hdop : dDop d = 3) (hkind : sKind p = 0) :
    runSeg s j i l d p a = .ok (modRun
      (sendDown s j i d (fun _ => true) none (segOp (sEoff p) (sRank p) (sNel p) d.run.toNat 1 0 0) p.body (sEoff p, sRank p)) j i
      (noteGather p a)) := by
  have hrecv : passesTo s d p = fun _ => true := funext (fun m => by simp only [passesTo, hdop, beq_self_eq_true, Bool.true_or])
  have hrank (u : State) : senderRank u d p = sRank p := by
    simp only [senderRank, hdop, hkind, Nat.reduceBEq, Bool.false_and, Bool.false_eq_true, if_false]
  simp only [runSeg, denseSeg, noteSeg, passThrough, hdop, hkind, Nat.reduceLeDiff, Nat.reduceEqDiff, if_false, zero_ne_one, hrecv, namedRank,
    dataRank, if_true, hrank, beq_iff_eq]
  rfl

/-! ### The row of a segment -/

/-- A packet of which every flit has come is not still coming. -/
theorem arriving_of_passes (h : passes s l p) : arriving s l p = false := by
  obtain ⟨-, harrived, -⟩ := h
  simp only [arrived, Bool.and_eq_true] at harrived
  obtain ⟨⟨hspells, -⟩, -⟩ := harrived
  have hlen : ¬ (headFlits (linkAt s l) p).length ≤ p.len.toNat := by
    cases hf : headFlits (linkAt s l) p with
    | nil => simp [hf, spells] at hspells
    | cons h r =>
      rw [hf] at hspells
      simp only [spells, Bool.and_eq_true, beq_iff_eq] at hspells
      obtain ⟨⟨⟨-, hr⟩, -⟩, -⟩ := hspells
      simp [hr]
  simp only [arriving, decide_eq_false hlen, Bool.and_false, Bool.false_and]

/-- Where SECDED finds nothing, a command's memory words are as they were. -/
theorem segUpset_nothing (s : State) (j : Nat) : segUpset s j {} = s := rfl

theorem exec_seg_passes (hpass : passes s l p) (hopc : p.opc = opSeg) (cycle : BitVec 16) :
    exec (.seg l p { cycle := cycle }) s = .next (settle (
      if endsHere s l p then segHere (opened s l p) l p cycle else switchPkt (opened s l p) l p)) := by
  have hin : [opSeg].contains p.opc = true := by rw [hopc]; rfl
  show execSeg l p { cycle := cycle } s = _
  rw [execSeg, arriving_of_passes hpass, if_neg Bool.false_ne_true, onPacket_passes _ hpass hin, endsHere_opened]
  cases endsHere s l p with
  | false => rfl
  | true =>
    cases hfind : findDesc (opened s l p) (linkDie l) p.plot.toNat p.tag with
    | none => simp only [Bool.not_true, Bool.false_eq_true, if_false, if_true, segUpset_nothing, hfind]; rfl
    | some e => simp only [Bool.not_true, Bool.false_eq_true, if_false, if_true, segUpset_nothing, hfind, Bool.false_and]; rfl

theorem segHere_none {cycle : BitVec 16} (hfind : findDesc s (linkDie l) p.plot.toNat p.tag = none) :
    segHere s l p cycle = freeRx (dropSeg s (linkDie l) rkCollSegInvalid stNoDescriptor p) l p := by
  simp only [segHere, hfind]

/-- With no provisional copy about, a confirmed segment is taken at ingress. -/
theorem segHere_confirmed {cycle : BitVec 16} (hfind : findDesc s (linkDie l) p.plot.toNat p.tag = some (i, d))
    (hdesc : descAt? s (linkDie l) i = some d) (hprov : p.prov = false) (hin : d.provIn = []) (hout : d.provOut = []) :
    segHere s l p cycle = atIngress s (linkDie l) i l p (arrivalOf s d l p cycle) := by
  have hvoid : voidProv s (linkDie l) i p = s := by simp only [voidProv, hdesc, hin, List.filter_nil, List.isEmpty_nil, if_true]
  simp only [segHere, hfind, hprov, Bool.false_eq_true, if_false, hvoid, hout, List.find?_nil]

/-! ### Segments held at ingress (R207, R224) -/

/-- A segment of the next run stays staged when those that may be processed are. -/
theorem drainEarly_next {e : EarlySeg} (hdesc : descAt? s j i = some d) (hearly : d.early = [e]) (hrun : sRun e.pkt = d.run + 1) :
    drainEarly s j i = s := by
  simp only [drainEarly, hdesc, hearly, List.foldl_cons, List.foldl_nil, segReady_next hrun, Bool.false_eq_true, if_false]

/-- What one held segment does when it retries. -/
def retryHeld (s : State) (j : Nat) (h : HeldSeg) : State :=
  if h.pkt.prov then provIngress s j h.idx h.link h.pkt h.arr else atIngress s j h.idx h.link h.pkt h.arr

/-- The segments staged on the descriptors of a die are processed, where they may be. -/
def drainDie (s : State) (j : Nat) : State :=
  ((dieAt s j).descs.filter (fun e => !e.2.early.isEmpty)).foldl (fun s e => drainEarly s j e.1) s

theorem drainDie_idle (h : ∀ e ∈ (dieAt s j).descs, e.2.early ≠ [] → drainEarly s j e.1 = s) : drainDie s j = s := by
  refine List.foldlRecOn (motive := fun t : State => t = s) _ _ rfl (fun t ht e he => ?_)
  obtain ⟨hmem, hearly⟩ := List.mem_filter.mp he
  rw [ht]
  exact h e hmem (by simpa using hearly)

theorem exec_stagingRetry_none (hheld : (dieAt s j).held = []) (hearly : ∀ e ∈ (dieAt s j).descs, e.2.early = []) :
    exec (.stagingRetry j {}) s = .next (settle s) := by
  have hexec : exec (.stagingRetry j {}) s = done (drainDie s j) := by
    show execStagingRetry j {} s = _
    simp only [execStagingRetry, segUpset_nothing, Bool.false_eq_true, if_false, hheld, List.isEmpty_nil, if_true, List.foldl_nil]
    rfl
  rw [hexec, drainDie_idle (fun e he hne => absurd (hearly e he) hne)]
  rfl

/-- The one segment held retries, its stall counted before, and leaves staged only what may not be processed yet. -/
theorem exec_stagingRetry_one {h : HeldSeg} (hheld : (dieAt s j).held = [h])
    (hretry : retryHeld (setDie s j { dieAt s j with held := [] }) j h = t) (hstalls : t.coll.stalls = s.coll.stalls)
    (hidle : ∀ e ∈ (dieAt t j).descs, e.2.early ≠ [] → drainEarly t j e.1 = t) :
    exec (.stagingRetry j {}) s = .next (settle t) := by
  have hexec : exec (.stagingRetry j {}) s = done (drainDie { t with coll := { t.coll with stalls := s.coll.stalls } } j) := by
    show execStagingRetry j {} s = _
    simp only [execStagingRetry, segUpset_nothing, Bool.false_eq_true, if_false, hheld, List.isEmpty_cons, List.foldl_cons, List.foldl_nil]
    rw [← hretry]
    rfl
  rw [hexec, ← hstalls, drainDie_idle hidle]
  rfl

/-- One that leaves every descriptor as it was leaves nothing staged. -/
theorem exec_stagingRetry_kept {h : HeldSeg} (hheld : (dieAt s j).held = [h]) (hearly : ∀ e ∈ (dieAt s j).descs, e.2.early = [])
    (hretry : retryHeld (setDie s j { dieAt s j with held := [] }) j h = t) (hkept : descsKept s t) :
    exec (.stagingRetry j {}) s = .next (settle t) := by
  obtain ⟨hdescs, hstalls⟩ := hkept
  exact exec_stagingRetry_one hheld hretry hstalls (fun e he hne => absurd (hearly e (hdescs j ▸ he)) hne)

/-- One of the next run that a buffer takes stays staged. -/
theorem exec_stagingRetry_staged {h : HeldSeg} {u : State} {e : EarlySeg} (hheld : (dieAt s j).held = [h])
    (hearly : ∀ e ∈ (dieAt s j).descs, e.2.early = [])
    (hretry : retryHeld (setDie s j { dieAt s j with held := [] }) j h = freeRx (setDesc u j i d) l p) (hkept : descsKept s u)
    (hstaged : d.early = [e]) (hrun : sRun e.pkt = d.run + 1) : exec (.stagingRetry j {}) s = .next (settle (freeRx (setDesc u j i d) l p)) := by
  obtain ⟨hdescs, hstalls⟩ := hkept
  obtain ⟨hdescs', hstalls'⟩ := descsKept_freeRx (l := l) (p := p) (descsKept_refl (setDesc u j i d))
  refine exec_stagingRetry_one hheld hretry (hstalls'.trans hstalls) (fun e he hne => ?_)
  rw [hdescs' j, setDesc, dieAt_modDie_same, hdescs j] at he
  rcases mem_tblSet he with heq | hmem
  · have hdesc : descAt? (freeRx (setDesc u j i d) l p) j i = some d := by
      rw [descAt?, hdescs' j]
      exact descAt?_setDesc_same u j i d
    rw [heq]
    exact drainEarly_next hdesc hstaged hrun
  · exact absurd (hearly e hmem) hne

/-! ### The obligation -/

theorem retryHeld_gone {h : HeldSeg} (hdesc : descAt? s j h.idx = none) : retryHeld s j h = freeRx s h.link h.pkt := by
  unfold retryHeld
  split
  · exact provIngress_gone hdesc
  · exact atIngress_gone hdesc

theorem retryHeld_refused {h : HeldSeg} {k : RecKind} {st : U16} (hdesc : descAt? s j h.idx = some d)
    (href : segRefusal s d h.link h.pkt = some (k, st)) : retryHeld s j h = freeRx (dropSeg s j k st h.pkt) h.link h.pkt := by
  unfold retryHeld
  split
  · exact provIngress_refused hdesc href
  · exact atIngress_refused hdesc href

/-- Taking the held segments off a die leaves its descriptors. -/
theorem descsKept_unheld (s : State) (j : Nat) : descsKept s (setDie s j { dieAt s j with held := [] }) :=
  descsKept_modDie j (f := fun x => { x with held := [] }) (fun _ => rfl) (descsKept_refl s)

/-- Settles O33: the refusal of a segment, or what its run, a buffer or the lack of one makes of it, at ingress and when a held one retries. -/
theorem segments : Obligations.Segments := by
  unfold Obligations.Segments
  refine ⟨?arrives, ?retries⟩
  case arrives =>
    intro s l p cycle hpass hopc j o on
    have hexec := exec_seg_passes hpass hopc cycle
    obtain ⟨w, ho⟩ : ∃ w, o = { s with net := w } := opened_net s l p
    refine ⟨fun k hroute htakes => ?out, fun hends => ⟨fun hfind => ?none, fun i d hfind hdesc hprov hin hout => ?found⟩⟩
    case out =>
      rw [endsHere_of_routeOf_out hroute, if_neg Bool.false_ne_true, switchPkt_opened_out hroute htakes] at hexec
      exact hexec
    case none =>
      have hfind' : findDesc o j p.plot.toNat p.tag = none := by rw [ho]; exact hfind
      rw [hends, if_pos rfl, segHere_none hfind'] at hexec
      exact hexec
    case found =>
      have hfind' : findDesc o j p.plot.toNat p.tag = some (i, d) := by rw [ho]; exact hfind
      have hdesc' : descAt? o j i = some d := by rw [ho]; exact hdesc
      rw [hends, if_pos rfl, segHere_confirmed hfind' hdesc' hprov hin hout] at hexec
      intro arr staged
      have hon {t : State} (h : atIngress o j i l p arr = t) : on t := h ▸ hexec
      refine ⟨fun hnext hcur => ?stale, fun htrig hrun hfault => ?invalid,
        fun hrun hfault hstaged => ⟨fun s' hbuf => ?held, fun s' b hbuf => ?staged⟩,
        fun htrig hrun hdop hkind hfault hseen hstaged hready => ?gather⟩
      case stale => exact hon (atIngress_refused hdesc' (segRefusal_stale hnext hcur))
      case invalid => exact hon (atIngress_refused hdesc' (by rw [segRefusal_current htrig hrun, hfault]; rfl))
      case held => exact hon (atIngress_held hdesc' (segRefusal_next hrun hfault hstaged) (segReady_next hrun) hbuf)
      case staged => exact hon (atIngress_staged hdesc' (segRefusal_next hrun hfault hstaged) (segReady_next hrun) hbuf)
      case gather =>
        have href : segRefusal o d l p = none := by rw [segRefusal_current htrig hrun, hfault, hseen, hstaged]; rfl
        exact hon (atIngress_run hdesc' href hready (runSeg_gather hdop hkind))
  case retries =>
    intro s j hearly
    refine ⟨fun hheld => exec_stagingRetry_none hheld hearly, fun h hheld => ?_⟩
    intro s1
    have hkept : descsKept s s1 := descsKept_unheld s j
    have hat : descAt? s1 j h.idx = descAt? s j h.idx := descsKept_descAt? hkept j h.idx
    refine ⟨fun hnone => ?gone, fun d hdesc hnext hcur => ?stale, fun d s' b hdesc hprov hrun hfault hstaged hbuf => ?staged⟩
    case gone => exact exec_stagingRetry_kept hheld hearly (retryHeld_gone (hat.trans hnone)) (descsKept_freeRx hkept)
    case stale =>
      exact exec_stagingRetry_kept hheld hearly (retryHeld_refused (hat.trans hdesc) (segRefusal_stale hnext hcur))
        (descsKept_freeRx hkept)
    case staged =>
      let e : EarlySeg := { pkt := h.pkt, link := h.link, buf := b, arr := h.arr }
      have hretry : retryHeld s1 j h = freeRx (setDesc (fillBuf s' b h.pkt.body) j h.idx { d with early := d.early ++ [e] }) h.link h.pkt := by
        rw [retryHeld, hprov, if_neg Bool.false_ne_true]
        exact atIngress_staged (hat.trans hdesc) (segRefusal_next hrun hfault hstaged) (segReady_next hrun) hbuf
      have hnone : d.early = [] := by
        obtain ⟨e, hfind, rfl⟩ := Option.map_eq_some_iff.mp hdesc
        exact hearly e (List.mem_of_find?_eq_some hfind)
      have hpools : poolsOnly s1 s' := by
        have := poolsOnly_stageBuf s1 d
        rwa [hbuf] at this
      have hfilled : descsKept s (fillBuf s' b h.pkt.body) := descsKept_fillBuf (descsKept_of_poolsOnly hpools hkept)
      exact exec_stagingRetry_staged (e := e) hheld hearly hretry hfilled (by rw [hnone]; rfl) hrun

end Sys2Proof.Machine
end

section
/-! PROOF. The run of a descriptor (R204, R205, R206, R208, R209, R412): its trigger, the feed of a staged chunk, the release of a result and
its completion. -/

namespace Sys2Proof.Machine

open Sys2Proof.Safety

variable {s t : State} {die idx : Nat} {d : Desc}

/-! ### The trigger (R206, R208, R412) -/

/-- The descriptor as its next run starts: it notes the tick and the step latched (R80, R208). -/
def startedDesc (s : State) (d : Desc) : Desc :=
  { d with triggered := true, run := d.run + 1, prog := { startTick := s.sd.ticks, step := (plotAt s d.plot).stepLatched } }

/-- The trigger counter less TTHR, where TDEC says so (R206). -/
def tdecTaken (s : State) (die : Nat) (d : Desc) (c : TrigCtr) : State :=
  if dTdec d then setTrig s die d.plot (dTctr d) { c.ctr with value := c.ctr.value - BitVec.ofNat 16 (dTthr d) } else s

theorem startedDesc_tdecTaken (s : State) (die : Nat) (d : Desc) (c : TrigCtr) : startedDesc (tdecTaken s die d c) d = startedDesc s d := by
  unfold tdecTaken
  split <;> rfl

theorem triggerDesc_bad {a : Nat} (hbad : tablesBad (setDesc s die idx (startedDesc s d)) (startedDesc s d) = some a) :
    triggerDesc s die idx d =
      modRun (hbmUncorrected (setDesc s die idx (startedDesc s d)) a true) die idx (fun r => { r with stuck := true }) := by
  unfold startedDesc at *
  simp only [triggerDesc, hbad]

theorem triggerDesc_broken (hbad : tablesBad (setDesc s die idx (startedDesc s d)) (startedDesc s d) = none)
    (hok : tablesOk (setDesc s die idx (startedDesc s d)) (startedDesc s d) = false) :
    triggerDesc s die idx d = runFault (setDesc s die idx (startedDesc s d)) die idx stVerifyFail := by
  unfold startedDesc at *
  simp only [triggerDesc, hbad, hok, Bool.false_eq_true, if_false]

/-- Nothing is due at once but for an all-to-all and a row gather (R220, R245). -/
theorem startWork_idle (h : emptyColl d = true ∨ (dDop d ≠ 5 ∧ dDop d ≠ 10)) : startWork s die idx d = s := by
  unfold startWork
  split
  · rfl
  · next hempty =>
    obtain ⟨h5, h10⟩ := h.resolve_left hempty
    simp only [h5, h10, false_and, if_false]

theorem drainEarly_none (hdesc : descAt? s die idx = some d) (hearly : d.early = []) : drainEarly s die idx = s := by
  simp only [drainEarly, hdesc, hearly, List.foldl_nil]

theorem triggerDesc_started (hbad : tablesBad (setDesc s die idx (startedDesc s d)) (startedDesc s d) = none)
    (hok : tablesOk (setDesc s die idx (startedDesc s d)) (startedDesc s d) = true) (hwork : emptyColl d = true ∨ (dDop d ≠ 5 ∧ dDop d ≠ 10))
    (hearly : d.early = []) : triggerDesc s die idx d = setDesc s die idx (startedDesc s d) := by
  have hidle : startWork (setDesc s die idx (startedDesc s d)) die idx (startedDesc s d) = setDesc s die idx (startedDesc s d) :=
    startWork_idle hwork
  have hdrain : drainEarly (setDesc s die idx (startedDesc s d)) die idx = setDesc s die idx (startedDesc s d) :=
    drainEarly_none (descAt?_setDesc_same ..) hearly
  unfold startedDesc at *
  simp only [triggerDesc, hbad, hok, if_true, hidle, hdrain]

section Trigger

variable (hdesc : descAt? s die idx = some d) (hb2 : d.b2 = none)
include hdesc hb2

theorem exec_descriptorTrigger_triggered (htrig : d.triggered = true) : exec (.descriptorTrigger die idx) s = .next (settle s) := by
  show execDescriptorTrigger die idx s = _
  unfold execDescriptorTrigger
  simp only [hdesc, hb2, htrig, Option.isSome_none, Bool.false_eq_true, if_false, Bool.true_or, if_true]
  cases trigAt? s die d.plot (dTctr d) with
  | none => rfl
  | some c => rfl

variable {c : TrigCtr} (hctr : trigAt? s die d.plot (dTctr d) = some c)
include hctr

theorem exec_descriptorTrigger_waiting (hwait : waitHolds c.ctr (dTthr d) = false) :
    exec (.descriptorTrigger die idx) s = .next (settle s) := by
  show execDescriptorTrigger die idx s = _
  simp only [execDescriptorTrigger, hdesc, hb2, hctr, hwait, Option.isSome_none, Bool.false_eq_true, if_false, Bool.not_false, Bool.or_true, if_true]
  rfl

theorem exec_descriptorTrigger_reached (htrig : d.triggered = false) (hruns : plotRuns s d.plot = true)
    (hwait : waitHolds c.ctr (dTthr d) = true) :
    exec (.descriptorTrigger die idx) s = .next (settle (triggerDesc (tdecTaken s die d c) die idx d)) := by
  show execDescriptorTrigger die idx s = _
  simp only [execDescriptorTrigger, hdesc, hb2, hctr, htrig, hruns, hwait, Option.isSome_none, Bool.false_eq_true, if_false,
    Bool.not_true, Bool.or_self]
  rfl

end Trigger

/-! ### The feed (R204) -/

theorem exec_chunkFeed_none (hdesc : descAt? s die idx = some d) (hstaged : d.prog.staged = []) :
    exec (.chunkFeed die idx {}) s = .next (settle s) := by
  show execChunkFeed die idx {} s = _
  simp only [execChunkFeed, hdesc, hstaged]
  rfl

theorem exec_chunkFeed_dense {g : StagedChunk} {r : List StagedChunk} {p : Nat} (hdesc : descAt? s die idx = some d)
    (hruns : plotRuns s d.plot = true) (hstuck : d.prog.stuck = false) (hstaged : d.prog.staged = g :: r) (htrig : d.triggered = true)
    (hdop : dDop d ≠ 6) (hpav : pavOfRel s d.plot (homeEntry s d g.chunk).hpav = some p) :
    exec (.chunkFeed die idx {}) s = .next (settle (feedChunk s die idx d g)) := by
  show execChunkFeed die idx {} s = _
  simp only [execChunkFeed, hdesc, hstaged, htrig, hstuck, hruns, hpav, hdop, Bool.not_true, Bool.or_self, Bool.false_eq_true, if_false]
  rfl

/-- The state once a staged chunk has left its buffer. -/
def chunkTaken (s : State) (die idx : Nat) (g : StagedChunk) : State :=
  freeBufs (modRun s die idx (fun r => { r with staged := r.staged.erase g })) [g.handle]

/-- The slots of a chunk's home, as many as it has elements (R204). -/
def feedSlots (s : State) (d : Desc) (g : StagedChunk) : List Nat :=
  slotRange (homeEntry s d g.chunk).slot (g.data.length * 8 / fmtBits (dIfmt d))

/-- Taking the chunk off its buffer moves no pavilion and no plot. -/
theorem chunkTaken_data (s : State) (die idx : Nat) (g : StagedChunk) :
    (chunkTaken s die idx g).pavs = s.pavs ∧ (chunkTaken s die idx g).plots = s.plots := by
  obtain ⟨-, hpavs, hplots, -⟩ :=
    poolsOnly_data (poolsOnly_freeBufs (modRun s die idx (fun r => { r with staged := r.staged.erase g })) [g.handle])
  rw [chunkTaken, hpavs, hplots]
  unfold modRun
  split <;> exact ⟨rfl, rfl⟩

section Feed

variable {g : StagedChunk} {p : Nat} {bs : List Byte} (hpav : pavOfRel s d.plot (homeEntry s d g.chunk).hpav = some p)
  (hbytes : stagedBytes s d.plot g = (s, some bs))
include hpav hbytes

/-- A chunk read from its buffer goes into its home's slots if each of them agrees with it, and otherwise ends the run (R204, R61). -/
theorem feedChunk_home :
    feedChunk s die idx d g =
      if (feedSlots s d g).all (fun k => feedOk d (slotAt (pavAt s p) k)) then
        chunkDone (contribute ⟨p, 1⟩ (chunkTaken s die idx g) ((feedSlots s d g).zip (decodeArr (dIfmt d) (g.data.length * 8 / fmtBits (dIfmt d))
          (bs.take g.data.length) (bs.drop g.data.length)))) die idx g.chunk g.rank
      else runFault (chunkTaken s die idx g) die idx stVerifyFail := by
  obtain ⟨hpavs, hplots⟩ := chunkTaken_data s die idx g
  have hpav' : pavOfRel (chunkTaken s die idx g) d.plot (homeEntry s d g.chunk).hpav = some p := by
    rwa [pavOfRel, pavsOfPlot, plotAt, hplots]
  have hat : pavAt (chunkTaken s die idx g) p = pavAt s p := by rw [pavAt, pavAt, hpavs]
  unfold feedSlots
  rw [← hat]
  unfold chunkTaken at *
  simp only [feedChunk, hbytes, hpav', Bool.not_eq_true', Bool.eq_false_iff, ne_eq, ite_not]

theorem feedChunk_agree (hall : ∀ k ∈ feedSlots s d g, feedOk d (slotAt (pavAt s p) k) = true) :
    feedChunk s die idx d g =
      chunkDone (contribute ⟨p, 1⟩ (chunkTaken s die idx g) ((feedSlots s d g).zip (decodeArr (dIfmt d) (g.data.length * 8 / fmtBits (dIfmt d))
        (bs.take g.data.length) (bs.drop g.data.length)))) die idx g.chunk g.rank :=
  (feedChunk_home hpav hbytes).trans (if_pos (List.all_eq_true.mpr hall))

theorem feedChunk_differ (hno : ∃ k ∈ feedSlots s d g, feedOk d (slotAt (pavAt s p) k) = false) :
    feedChunk s die idx d g = runFault (chunkTaken s die idx g) die idx stVerifyFail := by
  obtain ⟨k, hk, hno⟩ := hno
  refine (feedChunk_home hpav hbytes).trans (if_neg (fun hall => ?_))
  exact Bool.false_ne_true (hno.symm.trans (List.all_eq_true.mp hall k hk))

end Feed

/-! ### The release (R205) -/

theorem exec_resultRelease_none (hdesc : descAt? s die idx = some d) (hnone : releasable s die d = []) :
    exec (.resultRelease die idx {}) s = .next (settle s) := by
  show execResultRelease die idx {} s = _
  simp only [execResultRelease, hdesc, hnone, List.findSome?_nil]
  split <;> rfl

/-- The chunk is read from its home and sent down by the lead, less the increment that released it. -/
theorem exec_resultRelease_dense {h c p : Nat} {t : TrigCtr} (hdesc : descAt? s die idx = some d) (hruns : plotRuns s d.plot = true)
    (hstuck : d.prog.stuck = false) (htrig : d.triggered = true) (hlead : dLead d = true) (hdeliv : dDeliv d = 0 ∨ dDeliv d = 1)
    (hempty : emptyColl d = false) (hdop : dDop d ≤ 4)
    (hnext : (releasable s die d).findSome? (fun h => (nextChunk s d h).map (fun c => (h, c))) = some (h, c))
    (hpav : pavOfRel s d.plot h = some p) (hctr : trigAt? s die d.plot (dRctr d + h) = some t) :
    exec (.resultRelease die idx {}) s = .next (settle
      (releaseDense (setTrig s die d.plot (dRctr d + h) { t.ctr with value := t.ctr.value - 1 }) die idx d c p)) := by
  show execResultRelease die idx {} s = _
  have hdeliv' : (dDeliv d != 0 && dDeliv d != 1 && dDop d != 10) = false := by rcases hdeliv with h | h <;> simp [h]
  simp only [execResultRelease, hdesc, htrig, hstuck, hlead, hruns, hdeliv', hempty, hnext, hpav, hctr, Bool.not_true, Bool.or_self,
    Bool.false_eq_true, if_false, List.isEmpty_nil, if_true]
  have hcases : dDop d = 0 ∨ dDop d = 1 ∨ dDop d = 2 ∨ dDop d = 3 ∨ dDop d = 4 := by omega
  rcases hcases with h | h | h | h | h <;> rw [h] <;> rfl

theorem releaseDense_read {c p : Nat} (hbad : sramBad (pavAt s p) (homeEntry s d c).raddr (dataBytes (dOfmt d) (chunkLen d (xBlock s d) c)) = none) :
    releaseDense s die idx d c p =
      let bs := sramRead (pavAt s p) (homeEntry s d c).raddr (dataBytes (dOfmt d) (chunkLen d (xBlock s d) c))
      sendChunk s die idx c (bs.take (fmtSize (dOfmt d) (chunkLen d (xBlock s d) c))) (bs.drop (fmtSize (dOfmt d) (chunkLen d (xBlock s d) c))) := by
  simp only [releaseDense, homeRead, hbad]

/-! ### The completion (R209) -/

section Complete

variable (hdesc : descAt? s die idx = some d)
include hdesc

theorem exec_runComplete_idle (htrig : d.triggered = false) : exec (.runComplete die idx) s = .next (settle s) := by
  show execRunComplete die idx s = _
  simp only [execRunComplete, hdesc, htrig, Bool.not_false, Bool.true_or, if_true]
  rfl

theorem exec_runComplete_due (hruns : plotRuns s d.plot = true) (hstuck : d.prog.stuck = false) (htrig : d.triggered = true)
    (hdue : if emptyColl d then d.prog.startTick.toNat < s.sd.ticks.toNat else workDone s die d = true ∧ allConfirmed s die d = true) :
    exec (.runComplete die idx) s = .next (settle (completeRun s die idx d)) := by
  show execRunComplete die idx s = _
  simp only [execRunComplete, hdesc, htrig, hstuck, hruns, Bool.not_true, Bool.or_self, Bool.false_eq_true, if_false]
  split at hdue
  · next hempty => rw [if_pos hempty, if_pos hdue]; rfl
  · next hempty =>
    obtain ⟨hwork, hconfirmed⟩ := hdue
    rw [if_neg hempty, hwork, hconfirmed, Bool.and_self, if_pos rfl]
    rfl

/-- A run without a drop ends OK, or with a signal clamped: its record is written and it is armed again (R176, R209, R221). -/
theorem completeRun_ok (hb2 : d.b2 = none) (hdop : dDop d ≠ 10) (hdeliv : dDeliv d ≠ 3 ∨ dLead d = false) (hdrops : d.prog.nDrops = 0)
    (hbad : d.prog.nBad = 0) :
    let r := endSignals s die d
    let st := if r.2 then stCtrSaturated else stOk
    completeRun s die idx d = setDesc (writeRecord r.1 d st) die idx { d with
      triggered := false, laggard := laggardOf d, prog := { d.prog with status := st } } := by
  have hkept := descsKept_endSignals (j := die) (d := d) (descsKept_refl s)
  generalize hsignals : endSignals s die d = r at hkept
  intro _ st
  have hstatus : endStatus d = stOk := by simp only [endStatus, hdrops, hbad, bne_self_eq_false, Bool.or_self, Bool.false_eq_true, if_false]
  have hsums : (dDeliv d == 3 && dLead d && (emptyColl d || !(homeChunks s d (xBlock s d)).isEmpty)) = false := by
    rcases hdeliv with h | h <;> simp [h]
  have hst : (if (stOk == stOk && r.2) = true then stCtrSaturated else stOk) = st := by simp only [beq_self_eq_true, Bool.true_and]; rfl
  have hnodrop : (st == stCapacityDrop) = false := by
    simp only [st]
    cases r.2 <;> decide
  have hat : descAt? (writeRecord r.1 d st) die idx = some d := (descsKept_descAt? (descsKept_writeRecord hkept) die idx).trans hdesc
  simp only [completeRun, hdop, false_and, if_false, hsums, hstatus, Bool.false_eq_true, hsignals, hst, hat, hnodrop, hb2]
  rfl

end Complete

/-- Settles O35: each row of a run by its law, and what the trigger, the feed and the completion then make of the state. -/
theorem descriptorRuns : Obligations.DescriptorRuns := by
  unfold Obligations.DescriptorRuns
  intro s die idx d hdesc hruns hstuck hb2
  refine ⟨fun c hctr htrig => ?trigger, exec_descriptorTrigger_triggered hdesc hb2, ?feed, exec_chunkFeed_none hdesc, ?release,
    exec_resultRelease_none hdesc, fun htrig hdue => ⟨exec_runComplete_due hdesc hruns hstuck htrig hdue, completeRun_ok hdesc hb2⟩,
    exec_runComplete_idle hdesc⟩
  case trigger =>
    intro s1 d' s2
    have hs1 : tdecTaken s die d c = s1 := rfl
    have hd' : d' = startedDesc s1 d := (startedDesc_tdecTaken s die d c).symm
    clear_value s1 d'
    subst hd'
    have hon {t : State} (hwait : waitHolds c.ctr (dTthr d) = true) (h : triggerDesc s1 die idx d = t) :
        exec (.descriptorTrigger die idx) s = .next (settle t) :=
      h ▸ hs1 ▸ exec_descriptorTrigger_reached hdesc hb2 hctr htrig hruns hwait
    exact ⟨exec_descriptorTrigger_waiting hdesc hb2 hctr, fun a hwait hbad => hon hwait (triggerDesc_bad hbad),
      fun hwait hbad hok => hon hwait (triggerDesc_broken hbad hok),
      fun hwait hbad hok hwork hearly => hon hwait (triggerDesc_started hbad hok hwork hearly)⟩
  case feed =>
    intro g r p bs hstaged htrig hdop hpav hbytes f n js s1
    have hon {t : State} (h : feedChunk s die idx d g = t) : exec (.chunkFeed die idx {}) s = .next (settle t) :=
      h ▸ exec_chunkFeed_dense hdesc hruns hstuck hstaged htrig hdop hpav
    exact ⟨fun hall => hon (feedChunk_agree hpav hbytes hall), fun hno => hon (feedChunk_differ hpav hbytes hno)⟩
  case release =>
    intro h c p t htrig hlead hdeliv hempty hdop hnext hpav hctr s1 n len bs hbad
    have hread : releaseDense s1 die idx d c p = _ := releaseDense_read (s := s1) hbad
    rw [exec_resultRelease_dense hdesc hruns hstuck htrig hlead hdeliv hempty hdop hnext hpav hctr, hread]
    rfl

end Sys2Proof.Machine
end

section
/-! PROOF. The relay of a segment that is still arriving (R214), on a die whose table lists one descriptor index twice: the descriptor that the
segment's plot and TAG name is not the one that its index names. -/

namespace Sys2Proof.Machine

open Sys2Proof.Safety

/-- A segment that is still arriving for this module is relayed and has no other effect (R214). -/
theorem exec_seg_arriving {s : State} {l : Nat} {p : Pkt} (x : SegIn) (harriving : arriving s l p = true) (hends : endsHere s l p = true) :
    exec (.seg l p x) s = .next (settle (relayOwn s l p)) := by
  show execSeg l p x s = _
  rw [execSeg, if_pos harriving, if_pos hends]
  rfl

/-! ### A die with one index twice -/

/-- Run 1 of an all-gather of plot 0 with TAG 5: one FP32 element from one member, passed through (DOP 3, DELIV 2), its extension block at
0x800 and its member table in HBM that reads 0. -/
def gatherDesc : Desc :=
  { plot := 0, rel := 0, triggered := true, run := 1, img := BitVec.ofNat 512
      (3 * 2 ^ 504 + 2 ^ 496 + 2 ^ 492 + 2 * 2 ^ 484 + 5 * 2 ^ 399 + 2 ^ 381 + 2 ^ 333 + 0xFFFF * 2 ^ 317 + 0x400 * 2 ^ 237 + 0x800 * 2 ^ 161) }

/-- That member's segment, of two flits. -/
def gatherSeg1 : Pkt :=
  { vc := 2, cls := 0, dest := 0xFFFFFE, opc := opSeg, tag := 5, len := 1, op := segOp 0 0 1 1 0 0 0, body := [0, 0, 0x80, 0x3F] }

/-- Its header flit (Table 12.1). -/
def gatherHead : List Byte := natLe 16 (2 ^ 126 + hdrWord gatherSeg1 * 2 ^ 32) ++ natLe 32 gatherSeg1.op.toNat

/-- A descriptor of plot 1 with a segment relayed and not confirmed. -/
def otherDesc : Desc :=
  { plot := 1, rel := 0, img := 0, provOut := [{ key := segKey gatherSeg1, run := 1, pkt := gatherSeg1, link := 0, frame := 0, outLinks := [] }] }

/-- Plot 0 runs with port 0 and provisional relaying, the header flit stands confirmed on link 0, and die 0 lists both descriptors at
index 0. -/
def twiceState : State :=
  let s := setPlot State.reset 0 { state := 2, portMask := 1, region := 2 ^ 56 + 2 ^ 38 }
  let s := setLink s 0 { state := 6, rx := [(2, [gatherHead])] }
  { s with
    hbm := { s.hbm with mem := [(0x83E, 1)] }
    coll := { s.coll with relayEff := 1, dies := [(0, { descs := [(0, otherDesc), (0, gatherDesc)] })] } }

/-- Refutes O34: where a die lists index 0 twice, the first time for plot 1, the segment of plot 0 finds its descriptor by plot and TAG, and
what is relayed of it is noted with the one that index 0 reads: that has then two segments relayed, where the statement has one. The
statement asks of no state that a die lists an index once. -/
theorem not_provisionalSegments : ¬ Obligations.ProvisionalSegments := by
  intro h
  obtain ⟨-, harriving, -⟩ := h
  have hat : arriving twiceState 0 gatherSeg1 = true := by decide +kernel
  have hends : endsHere twiceState 0 gatherSeg1 = true := rfl
  obtain ⟨-, hhere⟩ := harriving twiceState 0 gatherSeg1 {} hat
  obtain ⟨-, hrelay⟩ := hhere hends
  obtain ⟨t, hexec, -, -, hnoted⟩ := hrelay 0 gatherDesc (by decide +kernel) (by decide +kernel) (by decide +kernel) (by decide +kernel)
    (by decide +kernel)
  obtain rfl := Host.Outcome.next.inj ((exec_seg_arriving {} hat hends).symm.trans hexec)
  have hone := congrArg (Option.map List.length) (hnoted (by decide +kernel))
  exact absurd hone (by decide +kernel)

end Sys2Proof.Machine
end

section
/-! PROOF. The objects of the parameter service: the shard entry, the shard commands, the norm configuration and the step counter, each condition
met in the order in which the model tests it (R250, R254, R264, R265, R269; log entries 58, 62, 71). -/

namespace Sys2Proof.Machine

open Sys2Proof.Safety

/-! ### The conditions -/

/-- The shard that an accepted valid entry makes: idle at step `t` of its plot, with nothing of the entry before it (R250). -/
def entered (h : Shard) (e : BitVec 512) (t : BitVec 64) : Shard :=
  { h with
    entry := e, state := 1, gen := t.toNat % 2, step := t, cur := t, blocks := 0, local_ := [], twin := [], twinHdr := none,
    nextHdr := none, nextList := [], todo := none, cmds := [] }

/-- SHARD_ENTRY_WRITE's own condition and effect on shard `n` (R250). -/
def shardEntryCondition (x : Session) (n : Nat) (all : List Byte) (s : State) : Except U16 State :=
  let h := shardAt s n
  let e := BitVec.ofNat 512 (leNat all)
  if all.length ≠ 64 then .error stKioskRange
  else if !(ownsPlot x (ePlot e) && (!shardValid h || ownsPlot x (ePlot h.entry))) then .error stKioskAccess
  else if field e 0 194 ≠ 0 then .error stKioskRange
  else if !entryInRange e then .error stKioskRange
  else if 1 < h.state then .error stKioskState
  else if !entryFits s n e then .error stKioskState
  else if eNparam e = 0 then .ok (setShard s n { h with entry := e, state := 0, todo := none })
  else .ok (setShard s n (entered h e (plotAt s (ePlot e)).step))

/-- The condition and effect of shard command `k`: it waits for step 5 of the tick (R265; log entry 62). -/
def shardCommandCondition (x : Session) (n k : Nat) (s : State) : Except U16 State :=
  let h := shardAt s n
  if shardValid h && !ownsPlot x (ePlot h.entry) then .error stKioskAccess
  else if !shardCmdOk h k then .error stShardState
  else .ok (setShard s n { h with cmds := h.cmds ++ [k], cmdStatus := stOk })

/-- NORM_CONFIG_WRITE's own condition and effect on plot `n` (R254, R269). -/
def normConfigCondition (x : Session) (n : Nat) (all : List Byte) (s : State) : Except U16 State :=
  let c := BitVec.ofNat 512 (leNat all)
  if all.length ≠ 64 then .error stKioskRange
  else if !ownsPlot x n then .error stKioskAccess
  else if field c 0 312 ≠ 0 then .error stKioskRange
  else if xNmod c ≠ 0 ∧ (65536 < xNmod c ∨ xTthr c = 0 ∨ xRaddr c % 4 ≠ 0 ∨ xRinc c = 0) then .error stKioskRange
  else if (normAt s n).collecting then .error stKioskState
  else .ok (setNorm s n { normAt s n with config := c })

/-- A shard of the plot has a step in progress, which bars a write of the step counter (R264). -/
def stepBarred (s : State) (n : Nat) : Bool :=
  s.shards.any (fun e => ePlot e.2.entry == n && (decide (2 ≤ e.2.state) && decide (e.2.state ≤ 8) && e.2.state != 6))

/-- STEP_COUNTER_WRITE's own condition and effect (R264). -/
def stepCounterCondition (n : Nat) (v : BitVec 64) (s : State) : Except U16 State :=
  if stepBarred s n then .error stKioskState else .ok (setPlot s n { plotAt s n with step := v })

theorem conditionApart_shardEntry (x : Session) (n : Nat) (all : List Byte) : conditionApart (shardEntryCondition x n all) := by
  intro s k
  simp only [shardEntryCondition, apply_ite (Except.map _)]
  rfl

theorem conditionApart_shardCommand (x : Session) (n k : Nat) : conditionApart (shardCommandCondition x n k) := by
  intro s κ
  simp only [shardCommandCondition, apply_ite (Except.map _)]
  rfl

theorem conditionApart_normConfig (x : Session) (n : Nat) (all : List Byte) : conditionApart (normConfigCondition x n all) := by
  intro s k
  simp only [normConfigCondition, apply_ite (Except.map _)]
  rfl

theorem conditionApart_stepCounter (n : Nat) (v : BitVec 64) : conditionApart (stepCounterCondition n v) := by
  intro s k
  simp only [stepCounterCondition, apply_ite (Except.map _)]
  rfl

/-! ### The shard entry (R250) -/

section ShardEntry

variable {s : State} {x : Session} {n : Nat} {all : List Byte} {e : BitVec 512} (hlen : all.length = 64)
  (he : BitVec.ofNat 512 (leNat all) = e)

include hlen he

theorem shardEntryCondition_foreign
    (hforeign : ownsPlot x (ePlot e) = false ∨ shardValid (shardAt s n) = true ∧ ownsPlot x (ePlot (shardAt s n).entry) = false) :
    shardEntryCondition x n all s = .error stKioskAccess := by
  have hno : (ownsPlot x (ePlot e) && (!shardValid (shardAt s n) || ownsPlot x (ePlot (shardAt s n).entry))) = false := by
    rcases hforeign with h | ⟨hvalid, h⟩
    · rw [h, Bool.false_and]
    · rw [h, hvalid]; exact Bool.and_false _
  simp only [shardEntryCondition, hlen, he, hno, ne_eq, not_true_eq_false, if_false, Bool.not_false, if_true]

variable (hnew : ownsPlot x (ePlot e) = true)
  (hold : shardValid (shardAt s n) = true → ownsPlot x (ePlot (shardAt s n).entry) = true)

include hnew hold

/-- The session may write the shard: what remains are the tests of the entry and of the state. -/
theorem shardEntryCondition_owned :
    shardEntryCondition x n all s =
      if field e 0 194 ≠ 0 then .error stKioskRange
      else if !entryInRange e then .error stKioskRange
      else if 1 < (shardAt s n).state then .error stKioskState
      else if !entryFits s n e then .error stKioskState
      else if eNparam e = 0 then .ok (setShard s n { shardAt s n with entry := e, state := 0, todo := none })
      else .ok (setShard s n (entered (shardAt s n) e (plotAt s (ePlot e)).step)) := by
  have hmay : (!shardValid (shardAt s n) || ownsPlot x (ePlot (shardAt s n).entry)) = true := by
    cases h : shardValid (shardAt s n)
    · rfl
    · exact hold h
  simp only [shardEntryCondition, hlen, he, hnew, hmay, Bool.and_self, Bool.not_true, ne_eq, not_true_eq_false, Bool.false_eq_true, if_false]

theorem shardEntryCondition_range (hrange : field e 0 194 ≠ 0 ∨ entryInRange e = false) :
    shardEntryCondition x n all s = .error stKioskRange := by
  rw [shardEntryCondition_owned hlen he hnew hold]
  split
  · rfl
  · next hzero => rw [hrange.resolve_left hzero]; rfl

variable (hzero : field e 0 194 = 0) (hin : entryInRange e = true)

include hzero hin

theorem shardEntryCondition_state (hstate : 1 < (shardAt s n).state ∨ entryFits s n e = false) :
    shardEntryCondition x n all s = .error stKioskState := by
  rw [shardEntryCondition_owned hlen he hnew hold, if_neg (not_not_intro hzero), hin]
  rcases hstate with h | h
  · simp only [Bool.not_true, Bool.false_eq_true, if_false, if_pos h]
  · simp only [Bool.not_true, Bool.false_eq_true, if_false, h, Bool.not_false, if_true, ite_self]

theorem shardEntryCondition_fits (hstate : (shardAt s n).state ≤ 1) (hfits : entryFits s n e = true) :
    shardEntryCondition x n all s =
      if eNparam e = 0 then .ok (setShard s n { shardAt s n with entry := e, state := 0, todo := none })
      else .ok (setShard s n (entered (shardAt s n) e (plotAt s (ePlot e)).step)) := by
  rw [shardEntryCondition_owned hlen he hnew hold, if_neg (not_not_intro hzero), hin, hfits]
  simp only [Bool.not_true, Bool.false_eq_true, if_false, if_neg (Nat.not_lt.mpr hstate)]

end ShardEntry

/-! ### The shard commands (R265, Table 10.10) -/

/-- The states in which Table 10.10 lists command `k`, for a valid shard. -/
def cmdStates (k : Nat) : List Nat :=
  match k with
  | 1 => [5]
  | 2 => [5]
  | 3 => [5, 6]
  | 4 => [1, 6]
  | 5 => [1, 5, 6]
  | 6 => [3]
  | _ => []

theorem shardCmdOk_of_valid {h : Shard} (k : Nat) (hvalid : shardValid h = true) : shardCmdOk h k = true ↔ h.state ∈ cmdStates k := by
  have hstate : h.state ≠ 0 := by simpa only [shardValid, bne_iff_ne] using hvalid
  unfold shardCmdOk cmdStates
  split <;> simp [hstate, or_assoc]

/-- A shard command is refused to a foreign session and in a state that does not list it; else it waits (R265, R269). RESTORE is also taken for an
invalid shard that has an entry, whoever owns it. -/
theorem shardCommand_answers {s : State} {q : KReq} {c : Instr} {k : Nat} (hadmits : admits s q 0x6000 0x08 true)
    (hexec : exec c s = done (shardCommand s q k)) :
    let x := sessAt s q.slot
    let n := x.shardSel.toNat
    let h := shardAt s n
    let w := setShard s n { h with cmds := h.cmds ++ [k], cmdStatus := stOk }
    (shardValid h = true → ownsPlot x (ePlot h.entry) = false → notOk s c q stKioskAccess) ∧
    (shardValid h = true → ownsPlot x (ePlot h.entry) = true → h.state ∉ cmdStates k → notOk s c q stShardState) ∧
    (shardValid h = true → ownsPlot x (ePlot h.entry) = true → h.state ∈ cmdStates k → okWith s c q w) ∧
    (h.state = 0 → k = 4 → eNparam h.entry ≠ 0 → okWith s c q (setShard s n { h with cmds := h.cmds ++ [4], cmdStatus := stOk })) := by
  intro x n h w
  have hcmd : exec c s = done (kioskCmd s q 0x6000 0x08 true (fun s x => shardCommandCondition x x.shardSel.toNat k s)) := hexec
  have hf := fun x : Session => conditionApart_shardCommand x x.shardSel.toNat k
  have hcond : shardCommandCondition x n k s =
      if shardValid h && !ownsPlot x (ePlot h.entry) then .error stKioskAccess
      else if !shardCmdOk h k then .error stShardState
      else .ok w := rfl
  have hno {st : U16} : shardCommandCondition x n k s = .error st → st ≠ stOk → notOk s c q st := notOk_of_kioskCmd hcmd hadmits hf
  have hyes : shardCommandCondition x n k s = .ok w → okWith s c q w := okWith_of_kioskCmd hcmd hadmits hf
  refine ⟨?foreign, ?unlisted, ?listed, ?entry⟩
  case foreign =>
    intro hvalid howns
    exact hno (by rw [hcond, hvalid, howns]; rfl) (by decide)
  case unlisted =>
    intro hvalid howns hstate
    have hunlisted : shardCmdOk h k = false := Bool.eq_false_iff.mpr (mt (shardCmdOk_of_valid k hvalid).mp hstate)
    exact hno (by rw [hcond, howns, hunlisted, Bool.not_true, Bool.and_false]; rfl) (by decide)
  case listed =>
    intro hvalid howns hstate
    have hlisted : shardCmdOk h k = true := (shardCmdOk_of_valid k hvalid).mpr hstate
    exact hyes (by rw [hcond, howns, hlisted, Bool.not_true, Bool.and_false]; rfl)
  case entry =>
    rintro hstate rfl hentry
    have hvalid : shardValid h = false := by rw [shardValid, hstate]; rfl
    have hlisted : shardCmdOk h 4 = true := by simp [shardCmdOk, hstate, hentry]
    exact hyes (by rw [hcond, hvalid, hlisted]; rfl)

/-- The rows of the shard commands: the instruction, its number and the states of Table 10.10. -/
def shardCommandRows (q : KReq) : List (Instr × Nat × List Nat) :=
  [(.adoptLocal q, 1, [5]), (.adoptTwin q, 2, [5]), (.abandon q, 3, [5, 6]), (.restore q, 4, [1, 6]), (.invalidate q, 5, [1, 5, 6]),
   (.commitDegraded q, 6, [3])]

theorem shardCommandRows_exec (s : State) (q : KReq) :
    ∀ ck ∈ shardCommandRows q, exec ck.1 s = done (shardCommand s q ck.2.1) ∧ ck.2.2 = cmdStates ck.2.1 := by
  simp only [shardCommandRows, List.forall_mem_cons, List.not_mem_nil, false_implies, implies_true, and_true]
  exact ⟨⟨rfl, rfl⟩, ⟨rfl, rfl⟩, ⟨rfl, rfl⟩, ⟨rfl, rfl⟩, ⟨rfl, rfl⟩, ⟨rfl, rfl⟩⟩

/-! ### The norm configuration and the step counter (R254, R264) -/

/-- A configuration that is well formed is taken unless the norm is collecting (R254, R269). -/
theorem normConfigCondition_formed {s : State} {x : Session} {n : Nat} {all : List Byte} {e : BitVec 512} (hlen : all.length = 64)
    (he : BitVec.ofNat 512 (leNat all) = e) (howns : ownsPlot x n = true) (hzero : field e 0 312 = 0)
    (hrange : xNmod e = 0 ∨ (xNmod e ≤ 65536 ∧ xTthr e ≠ 0 ∧ xRaddr e % 4 = 0 ∧ xRinc e ≠ 0)) :
    normConfigCondition x n all s =
      if (normAt s n).collecting then .error stKioskState else .ok (setNorm s n { normAt s n with config := e }) := by
  have hin : ¬ (xNmod e ≠ 0 ∧ (65536 < xNmod e ∨ xTthr e = 0 ∨ xRaddr e % 4 ≠ 0 ∨ xRinc e = 0)) := by
    rintro ⟨hmod, hbad⟩
    obtain ⟨hmax, hthr, haddr, hinc⟩ := hrange.resolve_left hmod
    rcases hbad with h | h | h | h
    · exact Nat.not_lt.mpr hmax h
    · exact hthr h
    · exact h haddr
    · exact hinc h
  simp only [normConfigCondition, hlen, he, howns, hzero, if_neg hin, ne_eq, not_true_eq_false, if_false, Bool.not_true, Bool.false_eq_true]

/-- The states 2 to 5, 7 and 8 are those of a step in progress (R264, Table 10.6). -/
theorem stepBarred_iff {s : State} {n : Nat} :
    stepBarred s n = true ↔ ∃ o ∈ s.shards, ePlot o.2.entry = n ∧ o.2.state ∈ [2, 3, 4, 5, 7, 8] := by
  have hstate (k : Nat) : (2 ≤ k ∧ k ≤ 8) ∧ k ≠ 6 ↔ k ∈ [2, 3, 4, 5, 7, 8] := by
    simp only [List.mem_cons, List.not_mem_nil, or_false]
    omega
  simp only [stepBarred, List.any_eq_true, Bool.and_eq_true, beq_iff_eq, bne_iff_ne, decide_eq_true_eq, hstate]

/-! ### The obligation -/

/-- Settles O36: each write's condition is met in the order of the model's tests, and a command's states are those of Table 10.10. -/
theorem shardObjects : Obligations.ShardObjects := by
  unfold Obligations.ShardObjects
  intro s q d all x n h e m
  refine ⟨?entry, ?commands, ?norm, ?counter⟩
  case entry =>
    intro hadmits hwhole hlen c
    have hf := fun x : Session => conditionApart_shardEntry x x.shardSel.toNat all
    have hno {st : U16} : shardEntryCondition x n all s = .error st → st ≠ stOk → domNotOk s c q st :=
      domNotOk_of_kioskDom (f := fun s x all => shardEntryCondition x x.shardSel.toNat all s) rfl hadmits hwhole hf
    have hyes {w : State} : shardEntryCondition x n all s = .ok w → domOk s c q 0x6000 0x02 w :=
      domOk_of_kioskDom (f := fun s x all => shardEntryCondition x x.shardSel.toNat all s) rfl hadmits hwhole hf
    refine ⟨fun hforeign => hno (shardEntryCondition_foreign hlen rfl (.inl hforeign)) (by decide),
      fun hvalid hforeign => hno (shardEntryCondition_foreign hlen rfl (.inr ⟨hvalid, hforeign⟩)) (by decide),
      fun hnew hold => ⟨fun hrange => hno (shardEntryCondition_range hlen rfl hnew hold hrange) (by decide), fun hzero hin => ⟨?_, ?_⟩⟩⟩
    · exact fun hstate => hno (shardEntryCondition_state hlen rfl hnew hold hzero hin hstate) (by decide)
    · intro hstate hfits
      have hcond := shardEntryCondition_fits hlen rfl hnew hold hzero hin hstate hfits
      exact ⟨fun hnone => hyes (hcond.trans (if_pos hnone)), fun hsome => hyes (hcond.trans (if_neg hsome))⟩
  case commands =>
    intro hadmits ck hck
    obtain ⟨hexec, hstates⟩ := shardCommandRows_exec s q ck hck
    rw [hstates]
    exact shardCommand_answers hadmits hexec
  case norm =>
    intro hadmits hwhole hlen howns hzero hrange
    have hf := fun x : Session => conditionApart_normConfig x x.normSel.toNat all
    have hcond : normConfigCondition x m all s = _ := normConfigCondition_formed (s := s) hlen rfl howns hzero hrange
    refine ⟨fun hbusy => ?_, fun hidle => ?_⟩
    · exact domNotOk_of_kioskDom (f := fun s x all => normConfigCondition x x.normSel.toNat all s) rfl hadmits hwhole hf
        (hcond.trans (if_pos hbusy)) (by decide)
    · exact domOk_of_kioskDom (f := fun s x all => normConfigCondition x x.normSel.toNat all s) rfl hadmits hwhole hf
        (hcond.trans (if_neg (Bool.eq_false_iff.mp hidle)))
  case counter =>
    intro k v hadmits
    have hf := fun _ : Session => conditionApart_stepCounter k v
    refine ⟨fun hbusy => ?_, fun hfree => ?_⟩
    · exact notOk_of_kioskCmd (f := fun s _ => stepCounterCondition k v s) rfl hadmits hf (if_pos (stepBarred_iff.mpr hbusy)) (by decide)
    · have hno : ¬ stepBarred s k = true := by
        rw [stepBarred_iff]
        rintro ⟨o, ho, hplot, hstate⟩
        exact hfree o ho hplot hstate
      exact okWith_of_kioskCmd (f := fun s _ => stepCounterCondition k v s) rfl hadmits hf (if_neg hno)

end Sys2Proof.Machine
end

section
/-! PROOF. A step of a shard: its trigger, its digest, the comparison of Table 10.7 and its commit (R259–R264). An event whose condition does not
hold changes nothing (log entry 2). -/

namespace Sys2Proof.Machine

open Sys2Proof.Safety

section Events

variable {s : State} {n : Nat}

/-! ### What the digest of a block leaves alone -/

/-- What SECDED finds in HBM words touches HBM, its stacks and the Belvedere. -/
theorem hbmUpset_rest (s : State) (x : Upset) : hbmUpset s x = { s with hbm := (hbmUpset s x).hbm, tele := (hbmUpset s x).tele } := by
  unfold hbmUpset
  generalize x.hbmCorrected = corrected, x.hbmOnDie = onDie, x.hbmBad = bad
  cases corrected <;> cases onDie <;> cases bad <;> rfl

theorem shardAt_hbmUpset (s : State) (x : Upset) (n : Nat) : shardAt (hbmUpset s x) n = shardAt s n := by
  rw [hbmUpset_rest]; rfl

theorem hbmUpset_sd (s : State) (x : Upset) : (hbmUpset s x).sd = s.sd := by
  rw [hbmUpset_rest]

/-- The blocks served in a frame depend on the tick count alone (R259). -/
theorem quotaOf_congr {t : State} (h : t.sd = s.sd) (x : Shard) : quotaOf t x = quotaOf s x := by
  simp only [quotaOf, h]

/-! ### A shard without a twin sends nothing (R261) -/

theorem toTwin_none (htwin : eTwin (shardAt s n).entry = 0xFFFFFF) (kind : Nat) (step : BitVec 64) (pos nel : Nat) (status : BitVec 16)
    (body : List Byte) : toTwin s n kind step pos nel status body = s := by
  simp only [toTwin, if_pos htwin]

theorem sendHeader_none (htwin : eTwin (shardAt s n).entry = 0xFFFFFF) (step : BitVec 64) (status : BitVec 16) :
    sendHeader s n step status = s := toTwin_none htwin ..

theorem sendList_none (htwin : eTwin (shardAt s n).entry = 0xFFFFFF) (step : BitVec 64) (l : List (BitVec 64)) : sendList s n step l = s :=
  List.foldl_fixed' (fun _ => toTwin_none htwin ..) _

/-! ### The comparison (R261, Table 10.7) -/

/-- The blocks at which the local and the twin's digest list differ, ascending. -/
def diffBlocks (h : Shard) : List Nat := (h.local_.zipIdx.filter (fun d => d.1 != tblGet 0 h.twin d.2)).map (·.2)

theorem compareShard_idle (hstate : (shardAt s n).state ≠ 3) : compareShard s n = s := by
  simp only [compareShard, if_pos hstate]

section Awaiting

variable (hstate : (shardAt s n).state = 3)

include hstate

theorem compareShard_absent {fl : BitVec 8} (habsent : twinAbsent s (shardAt s n) = some fl) :
    compareShard s n = setShard s n { shardAt s n with state := 4, todo := some (stDegradedCommit, fl) } := by
  simp only [compareShard, hstate, habsent, ne_eq, not_true_eq_false, if_false]
  rfl

variable {cfg : BitVec 512} {st : BitVec 16} (hpresent : twinAbsent s (shardAt s n) = none)
  (hstep : (shardAt s n).hdrStep = (shardAt s n).cur) (hhdr : (shardAt s n).twinHdr = some (cfg, st))

include hpresent hstep hhdr

/-- The twin is there and its header of this step is held. -/
theorem compareShard_held : compareShard s n =
    if (shardAt s n).twin.length < nBlocks cfg then s
    else if cfg != eConfig (shardAt s n).entry then diverged s n rkPsTwinMismatch stTwinConfig 0xFFFFFFFF 0
    else match diffBlocks (shardAt s n) with
      | [] => commitDue s n stOk 0
      | b :: _ => diverged s n rkPsDivergence stDivergence b (diffBlocks (shardAt s n)).length := by
  simp only [compareShard, hstate, hpresent, hstep, hhdr, ne_eq, not_true_eq_false, if_false, beq_self_eq_true, if_true]
  rfl

theorem compareShard_waiting (hlist : (shardAt s n).twin.length < nBlocks cfg) : compareShard s n = s := by
  rw [compareShard_held hstate hpresent hstep hhdr, if_pos hlist]

variable (hlist : nBlocks cfg ≤ (shardAt s n).twin.length)

include hlist

theorem compareShard_config (hcfg : cfg ≠ eConfig (shardAt s n).entry) :
    compareShard s n = diverged s n rkPsTwinMismatch stTwinConfig 0xFFFFFFFF 0 := by
  rw [compareShard_held hstate hpresent hstep hhdr, if_neg (Nat.not_lt.mpr hlist), if_pos (bne_iff_ne.mpr hcfg)]

variable (hcfg : cfg = eConfig (shardAt s n).entry)

include hcfg

theorem compareShard_equal (hdiff : diffBlocks (shardAt s n) = []) :
    compareShard s n = setShard s n { shardAt s n with state := 4, todo := some (stOk, 0) } := by
  rw [compareShard_held hstate hpresent hstep hhdr, if_neg (Nat.not_lt.mpr hlist), hcfg, bne_self_eq_false, if_neg Bool.false_ne_true, hdiff]
  rfl

theorem compareShard_differ {b : Nat} {r : List Nat} (hdiff : diffBlocks (shardAt s n) = b :: r) :
    compareShard s n = diverged s n rkPsDivergence stDivergence b (diffBlocks (shardAt s n)).length := by
  rw [compareShard_held hstate hpresent hstep hhdr, if_neg (Nat.not_lt.mpr hlist), hcfg, bne_self_eq_false, if_neg Bool.false_ne_true, hdiff]

end Awaiting

/-- A shard without a twin is due to commit degraded as soon as it compares (R261, Table 10.7). -/
theorem compareShard_noTwin (hstate : (shardAt s n).state = 3) (htwin : eTwin (shardAt s n).entry = 0xFFFFFF) :
    compareShard s n = setShard s n { shardAt s n with state := 4, todo := some (stDegradedCommit, 0x80) } :=
  compareShard_absent hstate (if_pos htwin)

/-! ### The trigger (R259) -/

theorem exec_digestTrigger_idle
    (h : trigReady s (eTdie (shardAt s n).entry) (ePlot (shardAt s n).entry) (eTctr (shardAt s n).entry) (eTthr (shardAt s n).entry) = none ∨
      (shardAt s n).state ≠ 1) : exec (.digestTrigger n) s = .next (settle s) := by
  show execDigestTrigger n s = _
  simp only [execDigestTrigger]
  split
  · rfl
  · next c hready =>
    have hstate : (shardAt s n).state ≠ 1 := h.resolve_left (by rw [hready]; exact Option.some_ne_none c)
    rw [if_pos hstate]
    rfl

/-- The shard as its digest begins, at step `t` of its plot: what its twin has sent of that step is kept (R259, R262). -/
def digesting (h : Shard) (t : BitVec 64) : Shard :=
  { h with
    state := 2, cur := t, blocks := 0, local_ := [], waitTicks := 0, lateSaid := false, todo := none,
    twinHdr := if h.hdrStep = t then h.twinHdr else none, twin := if h.hdrStep = t then h.twin else [] }

theorem exec_digestTrigger_reached {e : BitVec 512} {c : Counter} (he : (shardAt s n).entry = e)
    (hready : trigReady s (eTdie e) (ePlot e) (eTctr e) (eTthr e) = some c) (hstate : (shardAt s n).state = 1) :
    exec (.digestTrigger n) s =
      .next (settle (setShard (trigTake s (eTdie e) (ePlot e) (eTctr e) (eTthr e) c) n
        (digesting (shardAt s n) (plotAt s (ePlot e)).step))) := by
  subst he
  have hplot : plotAt (trigTake s (eTdie (shardAt s n).entry) (ePlot (shardAt s n).entry) (eTctr (shardAt s n).entry)
      (eTthr (shardAt s n).entry) c) (ePlot (shardAt s n).entry) = plotAt s (ePlot (shardAt s n).entry) := rfl
  show execDigestTrigger n s = _
  simp only [execDigestTrigger, hready, hstate, hplot, ne_eq, not_true_eq_false, if_false, beq_iff_eq]
  rfl

/-! ### The digest (R259–R261) -/

theorem exec_digestBlock_idle (x : Upset) (h : mayDigest s n = false) : exec (.digestBlock n x) s = .next (settle s) := by
  show execDigestBlock n x s = _
  simp only [execDigestBlock, h, Bool.not_false, if_true]
  rfl

section DigestBlock

variable {x : Upset} {h : Shard} (hmay : mayDigest s n = true) (hshard : shardAt s n = h)

include hmay hshard

theorem exec_digestBlock_bad {a : Nat} (hbad : blockBad (hbmUpset s x) h.entry (newGen h) h.blocks = some a) :
    exec (.digestBlock n x) s = .next (settle (damaged (hbmUpset s x) n a)) := by
  show execDigestBlock n x s = _
  simp only [execDigestBlock, hmay, Bool.not_true, Bool.false_eq_true, if_false, shardAt_hbmUpset, hshard, hbad]
  rfl

theorem exec_digestBlock_good (hgood : blockBad (hbmUpset s x) h.entry (newGen h) h.blocks = none) :
    let d := blockDigest (hbmUpset s x) h.entry (newGen h) h.blocks
    exec (.digestBlock n x) s = .next (settle (setShard
      (regWrite (hbmUpset s x) (ePlot h.entry) (dlstOff h.entry (newGen h) h.blocks) (natLe 8 d.toNat)) n { h with
        blocks := h.blocks + 1, local_ := h.local_ ++ [d], quotaTick := s.sd.ticks, quotaUsed := quotaOf s h + 1 })) := by
  intro d
  have hsd (off : Nat) (bs : List Byte) : (regWrite (hbmUpset s x) (ePlot h.entry) off bs).sd = s.sd :=
    (regWrite_sd ..).trans (hbmUpset_sd s x)
  show execDigestBlock n x s = _
  simp only [execDigestBlock, hmay, Bool.not_true, Bool.false_eq_true, if_false, shardAt_hbmUpset, hshard, hgood, hsd, quotaOf_congr (hsd _ _)]
  rfl

end DigestBlock

theorem exec_digestComplete_idle (h : (shardAt s n).state ≠ 2 ∨ (shardAt s n).blocks < nBlocks (shardAt s n).entry) :
    exec (.digestComplete n) s = .next (settle s) := by
  show execDigestComplete n s = _
  simp only [execDigestComplete, if_pos h]
  rfl

section DigestComplete

variable {h : Shard} (hshard : shardAt s n = h) (hstate : h.state = 2) (hblocks : nBlocks h.entry ≤ h.blocks)

include hshard hstate hblocks

/-- The digest is complete: header and list leave, and the shard awaits and compares (R261). -/
theorem exec_digestComplete_whole :
    exec (.digestComplete n) s = .next (settle (compareShard
      (modShard (sendList (sendHeader s n h.cur stOk) n h.cur h.local_) n (fun y => { y with state := 3, waitTicks := 0 })) n)) := by
  have hwhole : ¬ (h.state ≠ 2 ∨ h.blocks < nBlocks h.entry) := not_or.mpr ⟨not_not_intro hstate, Nat.not_lt.mpr hblocks⟩
  show execDigestComplete n s = _
  simp only [execDigestComplete, hshard, if_neg hwhole]
  rfl

theorem exec_digestComplete_noTwin (htwin : eTwin h.entry = 0xFFFFFF) :
    exec (.digestComplete n) s =
      .next (settle (setShard s n { h with state := 4, waitTicks := 0, todo := some (stDegradedCommit, 0x80) })) := by
  have hnone : eTwin (shardAt s n).entry = 0xFFFFFF := hshard ▸ htwin
  rw [exec_digestComplete_whole hshard hstate hblocks, sendHeader_none hnone, sendList_none hnone, modShard,
    compareShard_noTwin (by rw [shardAt_setShard_same]) (by rw [shardAt_setShard_same]; exact hnone), shardAt_setShard_same,
    setShard_setShard, hshard]

end DigestComplete

/-! ### The commit (R263, R264) -/

theorem exec_shardCommit_idle (h : (shardAt s n).todo = none ∨ (shardAt s n).state ≠ 4 ∨ mayCommit s (ePlot (shardAt s n).entry) = false) :
    exec (.shardCommit n) s = .next (settle s) := by
  show execShardCommit n s = _
  simp only [execShardCommit]
  split
  · next st fl htodo =>
    have hno : ¬ ((shardAt s n).state = 4 ∧ mayCommit s (ePlot (shardAt s n).entry) = true) := by
      rintro ⟨hstate, hmay⟩
      rcases h with h | h | h
      · exact Option.some_ne_none _ (htodo.symm.trans h)
      · exact h hstate
      · exact Bool.false_ne_true (h.symm.trans hmay)
    rw [if_neg hno]
    rfl
  · rfl

theorem exec_shardCommit_due {h : Shard} {st : BitVec 16} {fl : BitVec 8} (hshard : shardAt s n = h) (htodo : h.todo = some (st, fl))
    (hstate : h.state = 4) (hmay : mayCommit s (ePlot h.entry) = true) : exec (.shardCommit n) s = .next (settle (commitShard s n st fl)) := by
  show execShardCommit n s = _
  simp only [execShardCommit, hshard, htodo, if_pos (And.intro hstate hmay)]
  rfl

/-- The four things of R264: the generation and the step, the signal, the record, and the plot's step counter. -/
theorem commitShard_eq {h : Shard} (hshard : shardAt s n = h) (st : BitVec 16) (fl : BitVec 8) :
    let p := ePlot h.entry
    let s1 := setShard s n (promote { h with
      gen := newGen h, step := h.cur + 1, state := 1, todo := none, record := commitRecord s h.cur 0xFFFFFFFF 0 st fl,
      commits := h.commits + 1, degraded := if st = stDegradedCommit then h.degraded + 1 else h.degraded })
    let s2 := signalRel s1 p (eCpav h.entry) (eCctr h.entry) (eCinc h.entry) ⟨4, n⟩
    commitShard s n st fl =
      advanceStep (emit s2 (if st = stDegradedCommit then rkPsDegraded else rkPsCommit) (srcShard n) (some p) []) p := by
  simp only [commitShard, hshard, beq_iff_eq]

theorem exec_psTwinLate_due (hstate : (shardAt s n).state = 3) (hwait : 4096 ≤ (shardAt s n).waitTicks) (hsaid : (shardAt s n).lateSaid = false) :
    exec (.psTwinLate n) s = .next (settle (emit (setShard s n { shardAt s n with lateSaid := true }) rkPsTwinLate (srcShard n)
      (some (ePlot (shardAt s n).entry)) [])) := by
  have hdue : ¬ ((shardAt s n).state ≠ 3 ∨ (shardAt s n).waitTicks < 4096 ∨ (shardAt s n).lateSaid = true) :=
    not_or.mpr ⟨not_not_intro hstate, not_or.mpr ⟨Nat.not_lt.mpr hwait, Bool.eq_false_iff.mp hsaid⟩⟩
  show execPsTwinLate n s = _
  simp only [execPsTwinLate, if_neg hdue]
  rfl

theorem exec_psTwinLate_idle (h : (shardAt s n).state ≠ 3 ∨ (shardAt s n).waitTicks < 4096 ∨ (shardAt s n).lateSaid = true) :
    exec (.psTwinLate n) s = .next (settle s) := by
  show execPsTwinLate n s = _
  simp only [execPsTwinLate, if_pos h]
  rfl

end Events

/-! ### The obligation -/

/-- Settles O37: each event by its law, the comparison in the order of Table 10.7. -/
theorem shardSteps : Obligations.ShardSteps := by
  unfold Obligations.ShardSteps
  intro s n h e p t
  refine ⟨exec_digestTrigger_idle, fun c hready hstate => exec_digestTrigger_reached rfl hready hstate,
    fun x => ⟨exec_digestBlock_idle x, fun hmay => ⟨fun a hbad => exec_digestBlock_bad hmay rfl hbad, exec_digestBlock_good hmay rfl⟩⟩,
    exec_digestComplete_idle,
    fun hstate hblocks => ⟨exec_digestComplete_noTwin rfl hstate hblocks, exec_digestComplete_whole rfl hstate hblocks⟩,
    fun hstate => ?compare, exec_shardCommit_idle, fun st fl htodo hstate hmay => ?commit, exec_psTwinLate_due, exec_psTwinLate_idle⟩
  case compare =>
    exact ⟨fun fl => compareShard_absent hstate, fun hpresent hstep cfg st hhdr =>
      ⟨compareShard_waiting hstate hpresent hstep hhdr, compareShard_config hstate hpresent hstep hhdr,
        compareShard_equal hstate hpresent hstep hhdr, fun hlist hcfg b r => compareShard_differ hstate hpresent hstep hhdr hlist hcfg⟩⟩
  case commit =>
    have hcommit : commitShard s n st fl = _ := commitShard_eq (h := h) rfl st fl
    exact (exec_shardCommit_due rfl htodo hstate hmay).trans (congrArg done hcommit)

end Sys2Proof.Machine
end

section
/-! PROOF. A message of the parameter service at its row: switched, kept waiting for its CONFIRM, or taken here (R216, R257, R261, R290, R314). -/

namespace Sys2Proof.Machine

open Sys2Proof.Safety

variable {s t : State} {l k : Nat} {p : Pkt} {c : Instr}

/-- The state with a provisional copy of the message waiting for its CONFIRM (R216). -/
def psHeld (t : State) (p : Pkt) : State := { t with coll := { t.coll with psWait := t.coll.psWait ++ [p] } }

/-- The state with the provisional copies of the message void, as a copy with PROV clear leaves them (R216, R261). -/
def psVoided (t : State) (p : Pkt) : State :=
  { t with coll := { t.coll with psWait := t.coll.psWait.filter (fun q => !(q.plot == p.plot && q.op == p.op)) } }

theorem shardAt_opened (s : State) (l : Nat) (p : Pkt) (n : Nat) : shardAt (opened s l p) n = shardAt s n := by
  unfold opened
  split <;> rfl

theorem normAt_opened (s : State) (l : Nat) (p : Pkt) (n : Nat) : normAt (opened s l p) n = normAt s n := by
  unfold opened
  split <;> rfl

/-! ### Where the message goes -/

section Row

variable (hexec : exec c s = done (onPs s l p k))

include hexec

theorem exec_ps_other (hkind : mKind p ≠ k) : exec c s = .next (settle s) := by
  rw [hexec, onPs, if_pos hkind]
  rfl

variable (hpass : passes s l p) (hopc : p.opc = opPsmsg) (hkind : mKind p = k)

include hpass hopc hkind

theorem exec_ps_passes : exec c s =
    done (if endsHere s l p then freeRx (psTake (opened s l p) p) l p else switchPkt (opened s l p) l p) := by
  have hrow : [opPsmsg].contains p.opc = true := by rw [hopc]; rfl
  rw [hexec, onPs, if_neg (not_not_intro hkind), onPacket_passes _ hpass hrow, endsHere_opened]

theorem exec_ps_out {j : Nat} (hroute : routeOf s (some l) p = .out j) (htakes : takes s j p) :
    exec c s = .next (settle (freeRx (queuedOn (opened s l p) j l p) l p)) := by
  rw [exec_ps_passes hexec hpass hopc hkind, endsHere_of_routeOf_out hroute, switchPkt_opened_out hroute htakes]
  rfl

theorem exec_ps_waits (hends : endsHere s l p = true) (hprov : p.prov = true) :
    exec c s = .next (settle (freeRx (psHeld (opened s l p) p) l p)) := by
  rw [exec_ps_passes hexec hpass hopc hkind, if_pos hends, psTake, if_pos hprov]
  rfl

theorem exec_ps_here (hends : endsHere s l p = true) (hprov : p.prov = false) :
    exec c s = .next (settle (freeRx (psEffect (psVoided (opened s l p) p) p) l p)) := by
  rw [exec_ps_passes hexec hpass hopc hkind, if_pos hends, psTake, hprov, if_neg Bool.false_ne_true]
  rfl

end Row

/-! ### What a message does to the shard that it names -/

/-- A message of the twin acts by its KIND (Table 10.9). -/
theorem psEffect_twin (htwin : fromTwin (shardAt t (mShard p)) p = true) :
    (mKind p = 2 → psEffect t p = takeHeader t p) ∧ (mKind p = 3 → psEffect t p = takeList t p) ∧
    (mKind p = 4 → psEffect t p = takeRequest t p) ∧ (mKind p = 5 → psEffect t p = takeData t p) ∧
    (mKind p = 6 → psEffect t p = takeAbort t p) ∧ (mKind p = 7 → psEffect t p = takeRefusal t p) := by
  refine ⟨?_, ?_, ?_, ?_, ?_, ?_⟩ <;> intro hkind <;> simp only [psEffect, hkind, htwin, if_true]

/-- A message to a shard that does not come from its twin changes nothing (log entry 59). -/
theorem psEffect_foreign (hkind : 2 ≤ mKind p) (hforeign : fromTwin (shardAt t (mShard p)) p = false) : psEffect t p = t := by
  simp only [psEffect, hforeign, Bool.false_eq_true, if_false]
  split
  case h_1 hzero => omega
  case h_2 hone => omega
  all_goals rfl

end Sys2Proof.Machine
end

section
/-! PROOF. Messages of a shard's twin: where R262 puts them, and what a restore makes of them (R262, R266–R268; log entries 59, 60, 61). -/

namespace Sys2Proof.Machine

open Sys2Proof.Safety

/-! ### Where a message of a step goes (R262) -/

section Twin

variable {h : Shard} {step : BitVec 64}

theorem twinMsg_drop (hstate : h.state = 0) : twinMsg h step = .drop := if_pos hstate

theorem twinMsg_valid (hvalid : h.state ≠ 0) : twinMsg h step =
    if step.toNat < (stepNow h).toNat then .stale
    else if step = stepNow h then (if h.state = 5 ∨ h.state = 6 then .next else .present)
    else if h.state = 4 ∧ step.toNat = (stepNow h).toNat + 1 then .next
    else .skew := if_neg hvalid

variable (hvalid : h.state ≠ 0)

include hvalid

theorem twinMsg_stale (hpast : step.toNat < (stepNow h).toNat) : twinMsg h step = .stale := by
  rw [twinMsg_valid hvalid, if_pos hpast]

theorem twinMsg_now (hnow : step = stepNow h) : twinMsg h step = if h.state = 5 ∨ h.state = 6 then .next else .present := by
  rw [twinMsg_valid hvalid, if_neg (by rw [hnow]; exact Nat.lt_irrefl _), if_pos hnow]

/-- Past the present step a message is kept one deep in commit pending, and is otherwise a skew. -/
theorem twinMsg_ahead (hahead : (stepNow h).toNat < step.toNat) :
    twinMsg h step = if h.state = 4 ∧ step.toNat = (stepNow h).toNat + 1 then .next else .skew := by
  have hne : step ≠ stepNow h := by rintro rfl; exact Nat.lt_irrefl _ hahead
  rw [twinMsg_valid hvalid, if_neg (Nat.lt_asymm hahead), if_neg hne]

end Twin

section TwinTake

variable {t : State} {n : Nat} {h : Shard} {step : BitVec 64} {keep : Shard → Bool → Shard} (hshard : shardAt t n = h)

include hshard

theorem twinTake_drop (hmsg : twinMsg h step = .drop) : twinTake t n step keep = t := by
  simp only [twinTake, hshard, hmsg]

theorem twinTake_stale (hmsg : twinMsg h step = .stale) :
    twinTake t n step keep = emit (setShard t n { h with stale := h.stale + 1 }) rkPsStale (srcShard n) (some (ePlot h.entry)) [] := by
  simp only [twinTake, hshard, hmsg, modShard, shardAt_setShard_same]

theorem twinTake_present (hmsg : twinMsg h step = .present) : twinTake t n step keep = compareShard (setShard t n (keep h false)) n := by
  simp only [twinTake, hshard, hmsg, modShard]

theorem twinTake_next (hmsg : twinMsg h step = .next) : twinTake t n step keep = setShard t n (keep h true) := by
  simp only [twinTake, hshard, hmsg, modShard]

theorem twinTake_skew (hmsg : twinMsg h step = .skew) : twinTake t n step keep = twinSkew t n := by
  simp only [twinTake, hshard, hmsg]

/-- What R262 makes of a message that a valid shard keeps: dropped as stale, kept for the present step and compared, kept one deep, or a skew. -/
theorem twinTake_cases (hvalid : h.state ≠ 0) (hkeep : (keep h false).state = h.state) :
    let now := stepNow h
    let r := twinTake t n step keep
    (step.toNat < now.toNat →
      r = emit (setShard t n { h with stale := h.stale + 1 }) rkPsStale (srcShard n) (some (ePlot h.entry)) []) ∧
    (step = now → h.state ≠ 3 → h.state ≠ 5 → h.state ≠ 6 → r = setShard t n (keep h false)) ∧
    (step = now → h.state = 3 → r = compareShard (setShard t n (keep h false)) n) ∧
    (step = now → h.state = 5 ∨ h.state = 6 → r = setShard t n (keep h true)) ∧
    (h.state = 4 → step.toNat = now.toNat + 1 → r = setShard t n (keep h true)) ∧
    (now.toNat < step.toNat → (h.state ≠ 4 ∨ step.toNat ≠ now.toNat + 1) → r = twinSkew t n) := by
  intro now r
  have hpresent (hnow : step = now) (h5 : h.state ≠ 5) (h6 : h.state ≠ 6) : r = compareShard (setShard t n (keep h false)) n :=
    twinTake_present hshard ((twinMsg_now hvalid hnow).trans (if_neg (not_or.mpr ⟨h5, h6⟩)))
  refine ⟨fun hpast => twinTake_stale hshard (twinMsg_stale hvalid hpast), fun hnow h3 h5 h6 => ?now, fun hnow h3 => ?compare,
    fun hnow h56 => twinTake_next hshard ((twinMsg_now hvalid hnow).trans (if_pos h56)), fun h4 hnext => ?next, fun hahead hfar => ?skew⟩
  case now =>
    rw [hpresent hnow h5 h6]
    exact compareShard_idle (by rw [shardAt_setShard_same, hkeep]; exact h3)
  case compare => exact hpresent hnow (by rw [h3]; decide) (by rw [h3]; decide)
  case next =>
    have hahead : now.toNat < step.toNat := by rw [hnext]; exact Nat.lt_succ_self _
    exact twinTake_next hshard ((twinMsg_ahead hvalid hahead).trans (if_pos ⟨h4, hnext⟩))
  case skew =>
    have hno : ¬ (h.state = 4 ∧ step.toNat = now.toNat + 1) := fun ⟨h4, hnext⟩ => hfar.elim (· h4) (· hnext)
    exact twinTake_skew hshard ((twinMsg_ahead hvalid hahead).trans (if_neg hno))

end TwinTake

/-! ### What is kept of a header and of a list -/

/-- The configuration that a digest header carries (R261). -/
def digestConfig (p : Pkt) : BitVec 512 := BitVec.ofNat 512 (leNat p.body)

/-- The entries that a digest list message carries (R261, Table 10.9). -/
def digestEntries (p : Pkt) : List (BitVec 64) := ((pieces 8 p.body).take (mNel p)).map (fun b => BitVec.ofNat 64 (leNat b))

/-- What a shard keeps of a digest header, of the present step or one deep. -/
def headerKept (p : Pkt) (h : Shard) (next : Bool) : Shard := keepHeader h next (mStep p) (digestConfig p) (mStatus p)

/-- What it keeps of a digest list. -/
def listKept (p : Pkt) (h : Shard) (next : Bool) : Shard := keepList h next (mStep p) (mPos p) (digestEntries p)

/-- What it keeps of an abort notice (R266). -/
def abortKept (p : Pkt) (h : Shard) (next : Bool) : Shard := keepHeader h next (mStep p) 0 (mStatus p)

/-! ### Messages of each KIND (R261, R266–R268) -/

section Kinds

variable {t : State} {p : Pkt} {h : Shard} (hshard : shardAt t (mShard p) = h)

include hshard

theorem endRestore_eq (st : U16) : endRestore t (mShard p) st =
    setShard t (mShard p) { h with state := h.backState, cmdStatus := st, restoreStep := none, got := [] } := by
  simp only [endRestore, modShard, hshard]

theorem takeHeader_step (hstate : h.state ≠ 7) : takeHeader t p = twinTake t (mShard p) (mStep p) (headerKept p) := by
  simp only [takeHeader, hshard, if_neg hstate]
  rfl

theorem takeList_step (hstate : h.state ≠ 7) : takeList t p = twinTake t (mShard p) (mStep p) (listKept p) := by
  simp only [takeList, hshard, if_neg hstate]
  rfl

omit hshard in
theorem takeAbort_step : takeAbort t p = twinTake t (mShard p) (mStep p) (abortKept p) := rfl

section Restoring

variable (hstate : h.state = 7)

include hstate

theorem takeHeader_restoring : takeHeader t p =
    if digestConfig p != eConfig h.entry then endRestore t (mShard p) stTwinConfig
    else if h.restoreNew && mStep p != h.cur + 1 then endRestore t (mShard p) stTwinSkew
    else checkBlocks (setShard t (mShard p) { h with
      restoreStep := some (mStep p), twinHdr := some (digestConfig p, mStatus p), hdrStep := mStep p }) (mShard p) := by
  simp only [takeHeader, hshard, if_pos hstate, modShard]
  rfl

theorem takeHeader_config (hcfg : digestConfig p ≠ eConfig h.entry) :
    takeHeader t p = endRestore t (mShard p) stTwinConfig := by
  rw [takeHeader_restoring hshard hstate, if_pos (bne_iff_ne.mpr hcfg)]

variable (hcfg : digestConfig p = eConfig h.entry)

include hcfg

theorem takeHeader_skew (hnew : h.restoreNew = true) (hstep : mStep p ≠ h.cur + 1) :
    takeHeader t p = endRestore t (mShard p) stTwinSkew := by
  rw [takeHeader_restoring hshard hstate, hcfg, bne_self_eq_false, if_neg Bool.false_ne_true, hnew, bne_iff_ne.mpr hstep]
  rfl

theorem takeHeader_opens (hstep : h.restoreNew = false ∨ mStep p = h.cur + 1) :
    takeHeader t p = checkBlocks (setShard t (mShard p) { h with
      restoreStep := some (mStep p), twinHdr := some (digestConfig p, mStatus p), hdrStep := mStep p }) (mShard p) := by
  have hfits : (h.restoreNew && mStep p != h.cur + 1) = false := by
    rcases hstep with hold | hnext
    · rw [hold, Bool.false_and]
    · rw [hnext, bne_self_eq_false, Bool.and_false]
  rw [takeHeader_restoring hshard hstate, hcfg, bne_self_eq_false, hfits, if_neg Bool.false_ne_true, if_neg Bool.false_ne_true]

end Restoring

theorem takeList_restoring (hstate : h.state = 7) : takeList t p =
    checkBlocks (setShard t (mShard p) { h with twin := putEntries h.twin (mPos p) (digestEntries p) }) (mShard p) := by
  simp only [takeList, digestEntries, hshard, if_pos hstate, modShard]

theorem takeRequest_served {st : BitVec 64} (hserve : serveFrom t h (bitAt (p.body.getD 0 0) 0) (mStep p) = .ok st) :
    takeRequest t p = serve t (mShard p) st (if mNel p = 0 then none else some (mPos p)) := by
  simp only [takeRequest, hshard, hserve]

theorem takeRequest_refused {st : U16} (hserve : serveFrom t h (bitAt (p.body.getD 0 0) 0) (mStep p) = .error st) :
    takeRequest t p = toTwin t (mShard p) 7 (mStep p) 0 0 st [] := by
  simp only [takeRequest, hshard, hserve]

theorem takeData_restoring (hstate : h.state = 7) :
    takeData t p = takeRestore t (mShard p) (mStep p) (mPos p) (p.body.take (mNel p)) := by
  simp only [takeData, hshard, if_pos hstate]

theorem takeData_idle (hstate : h.state ≠ 7) : takeData t p = t := by
  simp only [takeData, hshard, if_neg hstate]

theorem takeRefusal_restoring (hstate : h.state = 7) : takeRefusal t p = endRestore t (mShard p) (mStatus p) := by
  simp only [takeRefusal, hshard, if_pos hstate]

theorem takeRefusal_idle (hstate : h.state ≠ 7) : takeRefusal t p = t := by
  simp only [takeRefusal, hshard, if_neg hstate]

end Kinds

/-! ### The rows -/

/-- The rows of the messages of a shard's twin, by KIND. -/
def twinRows (l : Nat) (p : Pkt) : List (Nat × Instr) :=
  [(2, .digestHeader l p), (3, .digestList l p), (4, .restoreRequest l p), (5, .restoreData l p), (6, .abortNotice l p), (7, .restoreRefusal l p)]

theorem twinRows_exec (s : State) (l : Nat) (p : Pkt) : ∀ r ∈ twinRows l p, 2 ≤ r.1 ∧ exec r.2 s = done (onPs s l p r.1) := by
  simp only [twinRows, List.forall_mem_cons, List.not_mem_nil, false_implies, implies_true, and_true]
  exact ⟨⟨by decide, rfl⟩, ⟨by decide, rfl⟩, ⟨by decide, rfl⟩, ⟨by decide, rfl⟩, ⟨by decide, rfl⟩, ⟨by decide, rfl⟩⟩

section Answers

variable {s : State} {l : Nat} {p : Pkt} (hpass : passes s l p) (hopc : p.opc = opPsmsg)

include hpass hopc

/-- Every row of the twin's messages: another KIND, a packet that is routed on, one that is provisional, one that is not the twin's. -/
theorem twinRows_answers : ∀ r ∈ twinRows l p,
    (mKind p ≠ r.1 → exec r.2 s = .next (settle s)) ∧
    (mKind p = r.1 →
      (∀ k, routeOf s (some l) p = .out k → takes s k p → exec r.2 s = .next (settle (freeRx (queuedOn (opened s l p) k l p) l p))) ∧
      (endsHere s l p = true → p.prov = true → exec r.2 s = .next (settle (freeRx (psHeld (opened s l p) p) l p))) ∧
      (endsHere s l p = true → p.prov = false → fromTwin (shardAt s (mShard p)) p = false →
        exec r.2 s = .next (settle (freeRx (psVoided (opened s l p) p) l p)))) := by
  intro r hr
  obtain ⟨htwo, hexec⟩ := twinRows_exec s l p r hr
  refine ⟨exec_ps_other hexec, fun hkind => ⟨fun k => exec_ps_out hexec hpass hopc hkind, exec_ps_waits hexec hpass hopc hkind, ?_⟩⟩
  intro hends hprov hforeign
  have hsame : psEffect (psVoided (opened s l p) p) p = psVoided (opened s l p) p :=
    psEffect_foreign (hkind ▸ htwo) ((congrArg (fromTwin · p) (shardAt_opened s l p _)).trans hforeign)
  rw [exec_ps_here hexec hpass hopc hkind hends hprov, hsame]

variable (hends : endsHere s l p = true) (hprov : p.prov = false)

include hends hprov

/-- A message that a shard keeps, with what it has by its KIND to do with the step that it is of. -/
theorem exec_kept {c : Instr} {k : Nat} {keep : Shard → Bool → Shard} (hexec : exec c s = done (onPs s l p k)) (hkind : mKind p = k)
    (hkeep : (keep (shardAt s (mShard p)) false).state = (shardAt s (mShard p)).state)
    (htake : psEffect (psVoided (opened s l p) p) p = twinTake (psVoided (opened s l p) p) (mShard p) (mStep p) keep)
    (hvalid : (shardAt s (mShard p)).state ≠ 0) :
    let n := mShard p
    let h := shardAt s n
    let step := mStep p
    let now := stepNow h
    let b := psVoided (opened s l p) p
    let after (t : State) : Host.Outcome State Fault Refusal := .next (settle (freeRx t l p))
    (step.toNat < now.toNat →
      exec c s = after (emit (setShard b n { h with stale := h.stale + 1 }) rkPsStale (srcShard n) (some (ePlot h.entry)) [])) ∧
    (step = now → h.state ≠ 3 → h.state ≠ 5 → h.state ≠ 6 → exec c s = after (setShard b n (keep h false))) ∧
    (step = now → h.state = 3 → exec c s = after (compareShard (setShard b n (keep h false)) n)) ∧
    (step = now → h.state = 5 ∨ h.state = 6 → exec c s = after (setShard b n (keep h true))) ∧
    (h.state = 4 → step.toNat = now.toNat + 1 → exec c s = after (setShard b n (keep h true))) ∧
    (now.toNat < step.toNat → (h.state ≠ 4 ∨ step.toNat ≠ now.toNat + 1) → exec c s = after (twinSkew b n)) := by
  intro n h step now b after
  have hon {t : State} (ht : twinTake b n step keep = t) : exec c s = after t := by
    rw [exec_ps_here hexec hpass hopc hkind hends hprov, htake, ht]
  have hshard : shardAt b n = h := shardAt_opened s l p n
  obtain ⟨hstale, hpresent, hcompare, hagain, hnext, hskew⟩ := twinTake_cases (step := step) hshard hvalid hkeep
  exact ⟨fun hpast => hon (hstale hpast), fun hnow h3 h5 h6 => hon (hpresent hnow h3 h5 h6), fun hnow h3 => hon (hcompare hnow h3),
    fun hnow h56 => hon (hagain hnow h56), fun h4 hone => hon (hnext h4 hone), fun hahead hfar => hon (hskew hahead hfar)⟩

end Answers

/-! ### The obligation -/

/-- Settles O38: a message's row, its twin and its step decide what becomes of it, and a restore has what its KIND gives it. -/
theorem twinMessages : Obligations.TwinMessages := by
  unfold Obligations.TwinMessages
  intro s l p hpass hopc n h step now o b after cfg ds ended rows keeping
  refine ⟨twinRows_answers hpass hopc, fun hends hprov htwin => ?_⟩
  have hshard : shardAt b n = h := shardAt_opened s l p n
  obtain ⟨hheader, hlist, hrequest, hdata, habort, hrefusal⟩ :=
    psEffect_twin (t := b) (p := p) ((congrArg (fromTwin · p) hshard).trans htwin)
  have hon {c : Instr} {k : Nat} {t : State} (hexec : exec c s = done (onPs s l p k)) (hkind : mKind p = k) (heffect : psEffect b p = t) :
      exec c s = after t := by
    rw [exec_ps_here hexec hpass hopc hkind hends hprov]
    exact congrArg after heffect
  have hended (st : U16) : endRestore b n st = ended st := endRestore_eq hshard st
  refine ⟨?kept, ?none, fun hkind h7 => ⟨?config, ?skew, ?opens⟩, ?entries, fun hkind => ⟨?serve, ?refuse⟩,
    fun hkind => ⟨?data, ?noData⟩, fun hkind => ⟨?refused, ?notRefused⟩⟩
  case kept =>
    refine List.forall_mem_cons.mpr ⟨?header, List.forall_mem_cons.mpr ⟨?list, List.forall_mem_singleton.mpr ?abort⟩⟩
    case header =>
      intro hkind hvalid h7
      have hrow := exec_kept (c := .digestHeader l p) (keep := headerKept p) hpass hopc hends hprov rfl hkind rfl
        ((hheader hkind).trans (takeHeader_step hshard (h7.resolve_right (show (2 : Nat) ≠ 6 by decide)))) hvalid
      exact hrow
    case list =>
      intro hkind hvalid h7
      have hrow := exec_kept (c := .digestList l p) (keep := listKept p) hpass hopc hends hprov rfl hkind rfl
        ((hlist hkind).trans (takeList_step hshard (h7.resolve_right (show (3 : Nat) ≠ 6 by decide)))) hvalid
      exact hrow
    case abort =>
      intro hkind hvalid h7
      have hrow := exec_kept (c := .abortNotice l p) (keep := abortKept p) hpass hopc hends hprov rfl hkind rfl
        ((habort hkind).trans takeAbort_step) hvalid
      exact hrow
  case none =>
    intro h0
    have h7 : h.state ≠ 7 := by rw [h0]; decide
    refine List.forall_mem_cons.mpr ⟨?header, List.forall_mem_cons.mpr ⟨?list, List.forall_mem_singleton.mpr ?abort⟩⟩
    case header =>
      intro hkind
      exact hon rfl hkind (((hheader hkind).trans (takeHeader_step hshard h7)).trans (twinTake_drop hshard (twinMsg_drop h0)))
    case list =>
      intro hkind
      exact hon rfl hkind (((hlist hkind).trans (takeList_step hshard h7)).trans (twinTake_drop hshard (twinMsg_drop h0)))
    case abort =>
      intro hkind
      exact hon rfl hkind (((habort hkind).trans takeAbort_step).trans (twinTake_drop hshard (twinMsg_drop h0)))
  case config =>
    intro hcfg
    exact hon rfl hkind (((hheader hkind).trans (takeHeader_config hshard h7 hcfg)).trans (hended _))
  case skew =>
    intro hcfg hnew hstep
    exact hon rfl hkind (((hheader hkind).trans (takeHeader_skew hshard h7 hcfg hnew hstep)).trans (hended _))
  case opens =>
    intro hcfg hstep
    exact hon rfl hkind ((hheader hkind).trans (takeHeader_opens hshard h7 hcfg hstep))
  case entries => exact fun hkind h7 => hon rfl hkind ((hlist hkind).trans (takeList_restoring hshard h7))
  case serve => exact fun st hserve => hon rfl hkind ((hrequest hkind).trans (takeRequest_served hshard hserve))
  case refuse => exact fun st hserve => hon rfl hkind ((hrequest hkind).trans (takeRequest_refused hshard hserve))
  case data => exact fun h7 => hon rfl hkind ((hdata hkind).trans (takeData_restoring hshard h7))
  case noData => exact fun h7 => hon rfl hkind ((hdata hkind).trans (takeData_idle hshard h7))
  case refused => exact fun h7 => hon rfl hkind (((hrefusal hkind).trans (takeRefusal_restoring hshard h7)).trans (hended _))
  case notRefused => exact fun h7 => hon rfl hkind ((hrefusal hkind).trans (takeRefusal_idle hshard h7))

end Sys2Proof.Machine
end

section
/-! PROOF. The global norm: its trigger, the partials at the root and the result at a member (R254–R257, R262, R269; log entries 2, 63, 112). -/

namespace Sys2Proof.Machine

open Sys2Proof.Safety

/-! ### The partial (R255) -/

/-- Collecting the listed slots changes the pavilions alone. -/
theorem collectPartial_pavs (s : State) (ks : List (Option Nat × Nat)) : ∃ v, (collectPartial s ks).1 = { s with pavs := v } := by
  refine List.foldlRecOn (motive := fun r : State × Partial => ∃ v, r.1 = { s with pavs := v }) ks _ ⟨s.pavs, rfl⟩ ?_
  rintro ⟨t, a⟩ ⟨v, rfl⟩ ⟨i, j⟩ -
  cases i with
  | none => exact ⟨v, rfl⟩
  | some i => exact ⟨_, rfl⟩

theorem isRoot_collectPartial (s : State) (ks : List (Option Nat × Nat)) (c : BitVec 512) : isRoot (collectPartial s ks).1 c = isRoot s c := by
  obtain ⟨v, h⟩ := collectPartial_pavs s ks
  rw [h]
  rfl

theorem selfId_collectPartial (s : State) (ks : List (Option Nat × Nat)) : selfId (collectPartial s ks).1 = selfId s := by
  obtain ⟨v, h⟩ := collectPartial_pavs s ks
  rw [h]
  rfl

theorem psPkt_collectPartial (s : State) (ks : List (Option Nat × Nat)) (n : Nat) (dest : BitVec 24) (dplot kind shard : Nat) (step : BitVec 64)
    (pos nel : Nat) (status : BitVec 16) (body : List Byte) :
    psPkt (collectPartial s ks).1 n dest dplot kind shard step pos nel status body = psPkt s n dest dplot kind shard step pos nel status body := by
  obtain ⟨v, h⟩ := collectPartial_pavs s ks
  rw [h]
  rfl

theorem normAt_writeNorm (s : State) (n : Nat) (c : BitVec 512) (bits m : Nat) : normAt (writeNorm s n c bits) m = normAt s m := by
  unfold writeNorm
  split <;> rfl

/-! ### The trigger (R255, R256) -/

/-- The norm has taken its trigger and collects at the plot's step. -/
def normStarted (s : State) (n : Nat) (k : Counter) : State :=
  let x := normAt s n
  setNorm (trigTake s (xTdie x.config) n (xTctr x.config) (xTthr x.config) k) n { x with collecting := true, step := (plotAt s n).step }

section Started

variable {s : State} {n : Nat} {c : BitVec 512} (k : Counter)

theorem normStarted_eq (hc : (normAt s n).config = c) :
    modNorm (trigTake (hbmUpset s {}) (xTdie c) n (xTctr c) (xTthr c) k) n (fun x => { x with
      collecting := true, step := (plotAt s n).step }) = normStarted s n k := by
  subst hc
  rfl

/-- Nothing that the trigger takes, and nothing that is found in no word, moves the step of a plot. -/
theorem plotAt_trigTaken (die m rel thr i : Nat) : plotAt (trigTake (hbmUpset s {}) die m rel thr k) i = plotAt s i := rfl

theorem modNorm_normStarted (bits : Nat) (done : Option (BitVec 64)) :
    modNorm (writeNorm (normStarted s n k) n c bits) n (fun x => { x with collecting := false, doneStep := done }) =
      setNorm (writeNorm (normStarted s n k) n c bits) n
        { normAt s n with collecting := false, step := (plotAt s n).step, doneStep := done } := by
  simp only [modNorm, normAt_writeNorm, normStarted, normAt_setNorm_same]

theorem regBad_normStarted (m off len : Nat) : regBad (normStarted s n k) m off len = regBad s m off len := rfl
theorem normSlots_normStarted (m : Nat) : normSlots (normStarted s n k) m c = normSlots s m c := rfl
theorem normSlotOk_normStarted : normSlotOk (normStarted s n k) = normSlotOk s := rfl
theorem isRoot_normStarted : isRoot (normStarted s n k) c = isRoot s c := rfl
theorem selfId_normStarted : selfId (normStarted s n k) = selfId s := rfl

theorem psPkt_normStarted (m : Nat) (dest : BitVec 24) (dplot kind shard : Nat) (step : BitVec 64) (pos nel : Nat) (status : BitVec 16)
    (body : List Byte) :
    psPkt (normStarted s n k) m dest dplot kind shard step pos nel status body = psPkt s m dest dplot kind shard step pos nel status body := rfl

end Started

/-- A norm that has started ends for want of a slot that R255 allows: a NaN, PS_NORM_FAULT, and the hold of its plot. -/
def normFaulted (s : State) (n : Nat) (k : Counter) : State :=
  let x := normAt s n
  let step := (plotAt s n).step
  let t := setNorm (writeNorm (normStarted s n k) n x.config (nanBits fFP32)) n { x with collecting := false, step := step, doneStep := some step }
  containedHold (emit t rkPsNormFault (srcHub (n % 4)) (some n) []) [n] hcShard

/-- A norm that has started has its partial, which the root holds and another module sends to the root. -/
def normCollected (s : State) (n : Nat) (k : Counter) : State :=
  let c := (normAt s n).config
  let step := (plotAt s n).step
  let got := collectPartial (normStarted s n k) (normSlots s n c)
  if isRoot s c then finishNorm (holdPartial got.1 n step (selfId s) n got.2) n
  else sendOut got.1 none (psPkt s n (xRootId c) (xRplot c) 0 0 step 0 0 0 (partialBytes got.2))

section Trigger

variable {s : State} {n slot : Nat} {c : BitVec 512} {k : Counter} (hc : (normAt s n).config = c)

include hc

theorem exec_normTrigger_idle
    (h : trigReady s (xTdie c) n (xTctr c) (xTthr c) = none ∨ xNmod c = 0 ∨ (normAt s n).collecting = true) :
    exec (.normTrigger ⟨n, {}, slot⟩) s = .next (settle s) := by
  show execNormTrigger ⟨n, {}, slot⟩ s = _
  simp only [execNormTrigger, hc]
  split
  · rfl
  · next k hready => 
    rw [if_pos (h.resolve_left (by rw [hready]; exact Option.some_ne_none k))]
    rfl

variable (hready : trigReady s (xTdie c) n (xTctr c) (xTthr c) = some k) (hmod : xNmod c ≠ 0) (hidle : (normAt s n).collecting = false)

include hready hmod hidle

theorem exec_normTrigger_bad {a : Nat} (hbad : regBad s n (xSlist c) (4 * xNslot c) = some a) :
    exec (.normTrigger ⟨n, {}, slot⟩) s = .next (settle (hbmUncorrected (normStarted s n k) a true)) := by
  have hgo : ¬ (xNmod c = 0 ∨ (normAt s n).collecting = true) := not_or.mpr ⟨hmod, Bool.eq_false_iff.mp hidle⟩
  show execNormTrigger ⟨n, {}, slot⟩ s = _
  simp only [execNormTrigger, hc, hready, if_neg hgo, plotAt_trigTaken, normStarted_eq k hc, regBad_normStarted, hbad]
  rfl

theorem exec_normTrigger_good (hgood : regBad s n (xSlist c) (4 * xNslot c) = none) :
    exec (.normTrigger ⟨n, {}, slot⟩) s = .next (settle
      (if (normSlots s n c).all (normSlotOk s) then normCollected s n k else normFaulted s n k)) := by
  have hgo : ¬ (xNmod c = 0 ∨ (normAt s n).collecting = true) := not_or.mpr ⟨hmod, Bool.eq_false_iff.mp hidle⟩
  show execNormTrigger ⟨n, {}, slot⟩ s = _
  simp only [execNormTrigger, hc, hready, if_neg hgo, normStarted_eq k hc, regBad_normStarted, hgood, normSlots_normStarted, Bool.false_and,
    Bool.false_eq_true, if_false, plotAt_trigTaken]
  cases (normSlots s n c)[slot]?.bind (fun x => x.1)
  all_goals
    simp only [normSlotOk_normStarted, isRoot_collectPartial, isRoot_normStarted, selfId_collectPartial, selfId_normStarted,
      psPkt_collectPartial, psPkt_normStarted, modNorm_normStarted, normFaulted, normCollected, hc]
    cases (normSlots s n c).all (normSlotOk s)
    · rfl
    · cases isRoot s c <;> rfl

theorem exec_normTrigger_fault (hgood : regBad s n (xSlist c) (4 * xNslot c) = none) (hslots : (normSlots s n c).all (normSlotOk s) = false) :
    exec (.normTrigger ⟨n, {}, slot⟩) s = .next (settle (normFaulted s n k)) := by
  rw [exec_normTrigger_good hc hready hmod hidle hgood, hslots]
  rfl

theorem exec_normTrigger_partial (hgood : regBad s n (xSlist c) (4 * xNslot c) = none) (hslots : (normSlots s n c).all (normSlotOk s) = true) :
    exec (.normTrigger ⟨n, {}, slot⟩) s = .next (settle (normCollected s n k)) := by
  rw [exec_normTrigger_good hc hready hmod hidle hgood, hslots]
  rfl

end Trigger

theorem normCollected_sent {s : State} {n : Nat} (k : Counter) (hroot : isRoot s (normAt s n).config = false) :
    let c := (normAt s n).config
    let step := (plotAt s n).step
    let got := collectPartial (normStarted s n k) (normSlots s n c)
    normCollected s n k = sendOut got.1 none (psPkt s n (xRootId c) (xRplot c) 0 0 step 0 0 0 (partialBytes got.2)) := by
  simp only [normCollected, hroot, Bool.false_eq_true, if_false]

theorem normCollected_held {s : State} {n : Nat} (k : Counter) (hroot : isRoot s (normAt s n).config = true) :
    let step := (plotAt s n).step
    let got := collectPartial (normStarted s n k) (normSlots s n (normAt s n).config)
    normCollected s n k = finishNorm (holdPartial got.1 n step (selfId s) n got.2) n := by
  simp only [normCollected, hroot, if_true]

/-! ### The messages (R256, R257, R262) -/

section Messages

variable {t : State} {n : Nat} {p : Pkt} {y : Norm} (hnorm : normAt t n = y)

theorem psEffect_partial (hkind : mKind p = 0) : psEffect t p = takePartial t p := by
  simp only [psEffect, hkind]

theorem psEffect_result (hkind : mKind p = 1) : psEffect t p = takeResult t p := by
  simp only [psEffect, hkind]

include hnorm

section Collecting

variable {step : BitVec 64} {act : State → State} (hcollecting : y.collecting = true)

include hcollecting

theorem normTake_stale (hpast : step.toNat < y.step.toNat) : normTake t n step act =
    emit (setNorm t n { y with stale := y.stale + 1 }) rkPsStale (srcHub (n % 4)) (some n) [] := by
  simp only [normTake, modNorm, hnorm, hcollecting, if_true, if_pos hpast]

theorem normTake_now (hnow : step = y.step) : normTake t n step act = act t := by
  simp only [normTake, hnorm, hcollecting, hnow, if_true, Nat.lt_irrefl, if_false]

end Collecting

/-- The result at a member: written, signalled and kept, and no partial of its step is held any longer (R256). -/
theorem deliverNorm_eq (bits : Nat) : deliverNorm t n bits =
    modNorm (signalRel (writeNorm t n y.config bits) n (xRpav y.config) (xRctr y.config) (xRinc y.config) ⟨4, n⟩) n (fun z => { z with
      collecting := false, last := BitVec.ofNat 32 bits, doneStep := some y.step,
      held := z.held.filter (fun e => decide (y.step.toNat < e.1.toNat)) }) := by
  simp only [deliverNorm, hnorm]

end Messages

section Taken

variable {t : State} {p : Pkt} {y : Norm} (hnorm : normAt t p.plot.toNat = y)

include hnorm

theorem takePartial_other (h : xNmod y.config = 0 ∨ isRoot t y.config = false) : takePartial t p = t := by
  simp only [takePartial, hnorm, if_pos h]

theorem takePartial_root (hmod : xNmod y.config ≠ 0) (hroot : isRoot t y.config = true) :
    takePartial t p = normTake t p.plot.toNat (mStep p) (fun s =>
      finishNorm (holdPartial s p.plot.toNat (mStep p) (mSrc p) (mSplot p) (partialOf p.body)) p.plot.toNat) := by
  have hmay : ¬ (xNmod y.config = 0 ∨ isRoot t y.config = false) := not_or.mpr ⟨hmod, by rw [hroot]; decide⟩
  simp only [takePartial, hnorm, if_neg hmay]

theorem takeResult_other (h : xNmod y.config = 0 ∨ mSrc p ≠ xRootId y.config ∨ mSplot p ≠ xRplot y.config) : takeResult t p = t := by
  simp only [takeResult, hnorm, if_pos h]

theorem takeResult_now (hmod : xNmod y.config ≠ 0) (hsrc : mSrc p = xRootId y.config) (hplot : mSplot p = xRplot y.config)
    (hcollecting : y.collecting = true) (hnow : mStep p = y.step) :
    takeResult t p = deliverNorm t p.plot.toNat (fieldN (leNat p.body) 0 32) := by
  have hmay : ¬ (xNmod y.config = 0 ∨ mSrc p ≠ xRootId y.config ∨ mSplot p ≠ xRplot y.config) :=
    not_or.mpr ⟨hmod, not_or.mpr ⟨not_not_intro hsrc, not_not_intro hplot⟩⟩
  simp only [takeResult, hnorm, if_neg hmay, normTake_now hnorm hcollecting hnow, if_pos (And.intro hcollecting hnow)]

end Taken

theorem isRoot_opened (s : State) (l : Nat) (p : Pkt) (c : BitVec 512) : isRoot (opened s l p) c = isRoot s c := by
  unfold opened
  split <;> rfl

/-! ### The obligation -/

/-- Settles O39: the trigger in the order of its tests, and each message where its row, its root and its step put it. -/
theorem globalNorm : Obligations.GlobalNorm := by
  unfold Obligations.GlobalNorm
  intro s n l slot p x c step ks y o b after
  refine ⟨exec_normTrigger_idle rfl, fun k hready hmod hidle => ⟨?bad, ?fault, ?sent, ?held⟩,
    fun hpass hopc => ⟨?waits, ?partials, ?results, ?out⟩⟩
  case bad => exact fun a => exec_normTrigger_bad rfl hready hmod hidle
  case fault => exact exec_normTrigger_fault rfl hready hmod hidle
  case sent =>
    intro hgood hslots hroot
    have hsent : normCollected s n k = _ := normCollected_sent k hroot
    exact (exec_normTrigger_partial rfl hready hmod hidle hgood hslots).trans (congrArg done hsent)
  case held =>
    intro hgood hslots hroot
    have hheld : normCollected s n k = _ := normCollected_held k hroot
    exact (exec_normTrigger_partial rfl hready hmod hidle hgood hslots).trans (congrArg done hheld)
  case waits =>
    exact fun hends hprov => ⟨fun hkind => exec_ps_waits rfl hpass hopc hkind hends hprov,
      fun hkind => exec_ps_waits rfl hpass hopc hkind hends hprov⟩
  case out =>
    exact fun k hroute htakes => ⟨fun hkind => exec_ps_out rfl hpass hopc hkind hroute htakes,
      fun hkind => exec_ps_out rfl hpass hopc hkind hroute htakes⟩
  case partials =>
    intro hkind hends hprov
    have hnorm : normAt b p.plot.toNat = y := normAt_opened s l p _
    have hroot : isRoot b y.config = isRoot s y.config := isRoot_opened s l p y.config
    have hon {t : State} (ht : takePartial b p = t) : exec (.normPartial l p) s = after t :=
      (exec_ps_here rfl hpass hopc hkind hends hprov).trans (congrArg after ((psEffect_partial hkind).trans ht))
    refine ⟨fun h => hon (takePartial_other hnorm (hroot ▸ h)), fun hmod hr hcollecting hnow => ?_, fun hmod hr hcollecting hpast => ?_⟩
    · exact hon ((takePartial_root hnorm hmod (hroot.trans hr)).trans (normTake_now hnorm hcollecting hnow))
    · exact hon ((takePartial_root hnorm hmod (hroot.trans hr)).trans (normTake_stale hnorm hcollecting hpast))
  case results =>
    intro hkind hends hprov
    have hnorm : normAt b p.plot.toNat = y := normAt_opened s l p _
    have hon {t : State} (ht : takeResult b p = t) : exec (.normResult l p) s = after t :=
      (exec_ps_here rfl hpass hopc hkind hends hprov).trans (congrArg after ((psEffect_result hkind).trans ht))
    refine ⟨fun h => hon (takeResult_other hnorm h), fun hmod hsrc hplot hcollecting hnow => ?_⟩
    exact hon ((takeResult_now hnorm hmod hsrc hplot hcollecting hnow).trans (deliverNorm_eq hnorm _))

end Sys2Proof.Machine
end

section
/-! PROOF. HBM services: a region written, and what leaves it scrubbed; refresh, patrol scrub, pressure, failure and temperature of a stack
(R274–R276, R278, R280, R281, Table 11.3; log entries 64 and 65). An event whose condition does not hold changes nothing (log entry 2). -/

namespace Sys2Proof.Machine

open Sys2Proof.Safety

/-! ### The condition of a region (R274) -/

/-- REGION_WRITE's own condition and effect (R274–R276). -/
def regionCondition (n : Nat) (v : BitVec 64) (s : State) : Except U16 State :=
  if !regionInRange v then .error stKioskRange
  else if !regionFits s n v || s.gate.entropyFailed then .error stKioskState
  else
    let gone := (regUnits (plotAt s n).region).filter (fun u => !(regUnits v).contains u)
    .ok (drawIlv (modPlot (scrubUnits s gone) n (fun p => { p with region := v })) n)

theorem exec_regionWrite (q : KReq) (n : Nat) (v : BitVec 64) (s : State) :
    exec (.regionWrite q n v) s = done (kioskCmd s q (0x4000 + n) 0x04 false (fun s _ => regionCondition n v s)) := rfl

theorem scrubUnits_withKiosk (s : State) (k : Kiosk) (us : List (Nat × Nat)) : scrubUnits (withKiosk s k) us = withKiosk (scrubUnits s us) k :=
  foldl_withKiosk (fun _ _ => rfl) us s

theorem conditionApart_region (n : Nat) (v : BitVec 64) : conditionApart (regionCondition n v) := by
  intro s k
  have hfits : regionFits (withKiosk s k) n v = regionFits s n v := rfl
  simp only [regionCondition, hfits, plotAt_withKiosk, scrubUnits_withKiosk, modPlot_withKiosk, apply_ite (Except.map _)]
  rfl

theorem regionInRange_eq_false {v : BitVec 64} (h : field v 0 38 ≠ 0 ∨ 508 < regBase v + regSize v) : regionInRange v = false := by
  rcases h with h | h
  · simp [regionInRange, h]
  · simp [regionInRange, Nat.not_le.mpr h]

theorem regionFits_loaded {s : State} {n : Nat} (v : BitVec 64) (h : (plotAt s n).loadState ≠ 0) : regionFits s n v = false := by
  simp [regionFits, h]

theorem regionFits_taken {s : State} {n : Nat} {v : BitVec 64} (h : ∃ m ∈ allPlots, m ≠ n ∧ regionsMeet v (plotAt s m).region = true) :
    regionFits s n v = false := by
  have hmeets : allPlots.any (fun m => m != n && regionsMeet v (plotAt s m).region) = true := by
    obtain ⟨m, hm, hother, hmeet⟩ := h
    exact List.any_eq_true.mpr ⟨m, hm, by rw [bne_iff_ne.mpr hother, hmeet]; rfl⟩
  simp only [regionFits, hmeets, Bool.not_true, Bool.and_false, Bool.false_and]

theorem regionCondition_range {s : State} {n : Nat} {v : BitVec 64} (h : regionInRange v = false) :
    regionCondition n v s = .error stKioskRange := by
  simp only [regionCondition, h, Bool.not_false, if_true]

theorem regionCondition_state {s : State} {n : Nat} {v : BitVec 64} (hin : regionInRange v = true)
    (h : regionFits s n v = false ∨ s.gate.entropyFailed = true) : regionCondition n v s = .error stKioskState := by
  have hno : (!regionFits s n v || s.gate.entropyFailed) = true := by
    rcases h with h | h
    · rw [h]; rfl
    · rw [h]; exact Bool.or_true _
  simp only [regionCondition, hin, hno, Bool.not_true, Bool.false_eq_true, if_false, if_true]

/-! ### A region taken (R274–R276) -/

/-- Units put under scrub change nothing but their stacks. -/
theorem scrubUnits_eq (s : State) (us : List (Nat × Nat)) : scrubUnits s us = { s with hbm := (scrubUnits s us).hbm } :=
  List.foldlRecOn (motive := fun t : State => t = { s with hbm := t.hbm }) us _ rfl
    (fun t ht u _ => congrArg (fun w : State => { w with hbm := (modStack t u.1 (fun k => { k with scrubbing := addNew k.scrubbing u.2 })).hbm }) ht)

@[simp] theorem scrubUnits_gate (s : State) (us : List (Nat × Nat)) : (scrubUnits s us).gate = s.gate := by rw [scrubUnits_eq]
@[simp] theorem scrubUnits_sd (s : State) (us : List (Nat × Nat)) : (scrubUnits s us).sd = s.sd := by rw [scrubUnits_eq]
@[simp] theorem plotAt_scrubUnits (s : State) (us : List (Nat × Nat)) (n : Nat) : plotAt (scrubUnits s us) n = plotAt s n := by
  rw [scrubUnits_eq]
  rfl

/-- A plot's region and its key are written as one (R276). -/
theorem drawIlv_modPlot_region (s : State) (n : Nat) (v : BitVec 64) :
    drawIlv (modPlot s n (fun p => { p with region := v })) n =
      setPlot { s with gate := { s.gate with draws := s.gate.draws + 1 } } n { plotAt s n with
        region := v, ilvKey := Config.drbg s.gate.draws, ilvSerial := (plotAt s n).ilvSerial + 1, ilvTick := s.sd.ticks } := by
  simp only [drawIlv, modPlot, setPlot, plotAt, tblSet_tblSet, tblGet_tblSet_same]

theorem regionCondition_ok {s : State} {n : Nat} {v : BitVec 64} (hin : regionInRange v = true) (hfits : regionFits s n v = true)
    (hkey : s.gate.entropyFailed = false) :
    let s1 := scrubUnits s ((regUnits (plotAt s n).region).filter (fun u => !(regUnits v).contains u))
    regionCondition n v s = .ok (setPlot { s1 with gate := { s.gate with draws := s.gate.draws + 1 } } n { plotAt s n with
      region := v, ilvKey := Config.drbg s.gate.draws, ilvSerial := (plotAt s n).ilvSerial + 1, ilvTick := s.sd.ticks }) := by
  simp only [regionCondition, hin, hfits, hkey, Bool.not_true, Bool.or_false, Bool.false_eq_true, if_false, drawIlv_modPlot_region,
    scrubUnits_gate, scrubUnits_sd, plotAt_scrubUnits]

/-! ### What leaves a change of HBM: no record, or one -/

theorem done_hbm (s : State) (h : Hbm) : done { s with hbm := h } = .next { s with hbm := h, tele := quiet s } := rfl

theorem done_emit_hbm (s : State) (h : Hbm) (rk : RecKind) (src : Src) (pl : Option Nat) (args : List (Nat × Nat)) :
    done (emit { s with hbm := h } rk src pl args) = .next { s with hbm := h, tele := told s rk src pl args } := rfl

/-! ### Scrubbing (R274, R280) -/

section Scrub

variable {s : State} {stack unit : Nat}

theorem exec_scrubComplete_idle (h : unit ∉ (stackAt s stack).scrubbing) : exec (.scrubComplete stack unit) s = done s :=
  if_pos (by simpa using h)

/-- A unit under scrub is zero, and no word of it is uncorrectable any more (R274, R337). -/
theorem exec_scrubComplete_due (h : unit ∈ (stackAt s stack).scrubbing) :
    exec (.scrubComplete stack unit) s = done { s with hbm := { zeroUnit s.hbm stack unit with
      stks := tblSet s.hbm.stks stack { stackAt s stack with scrubbing := (stackAt s stack).scrubbing.filter (· != unit) } } } :=
  if_neg (by simpa using h)

end Scrub

/-- What patrol scrub makes of a word of a stack in service: what is known of the word goes before what is found (R280). -/
def patrolled (s : State) (addr : Nat) (o : ScrubObs) : State :=
  if s.hbm.badWords.contains (addr / 32) then hbmUncorrected s addr false
  else match o with
    | .clean => s
    | .corrected => hbmCorrectedAt s addr
    | .onDie => hbmOnDie s addr
    | .uncorrectable => hbmUncorrected { s with hbm := { s.hbm with badWords := addNew s.hbm.badWords (addr / 32) } } addr false

section Patrol

variable {s : State} {addr : Nat} (o : ScrubObs)

theorem exec_patrolScrub_off (h : (stackAt s (addr / 2 ^ 35)).state ≠ 1) : exec (.patrolScrub addr o) s = done s := if_pos h

theorem exec_patrolScrub_on (hon : (stackAt s (addr / 2 ^ 35)).state = 1) :
    exec (.patrolScrub addr o) s = done (patrolled s addr o) := by
  cases o <;> exact (if_neg (not_not_intro hon)).trans (apply_ite done _ _ _).symm

theorem patrolled_good (hgood : s.hbm.badWords.contains (addr / 32) = false) :
    patrolled s addr .clean = s ∧ patrolled s addr .onDie = hbmOnDie s addr ∧ patrolled s addr .corrected = hbmCorrectedAt s addr := by
  simp only [patrolled, hgood, Bool.false_eq_true, if_false, and_self]

/-- An uncorrectable word, known or new, is counted and reported, and holds no plot (R280, Table 11.3). -/
theorem patrolled_bad (hbad : o = .uncorrectable ∨ s.hbm.badWords.contains (addr / 32) = true) :
    patrolled s addr o = hbmUncorrected { s with hbm := { s.hbm with
      badWords := if s.hbm.badWords.contains (addr / 32) then s.hbm.badWords else addNew s.hbm.badWords (addr / 32) } } addr false := by
  by_cases hknown : s.hbm.badWords.contains (addr / 32) = true
  · simp only [patrolled, if_pos hknown]
  · obtain rfl := hbad.resolve_right hknown
    simp only [patrolled, if_neg hknown]

end Patrol

/-- Outside the reserved region an uncorrectable word that no plot consumed is one record and two fields of its stack (Table 11.3). -/
theorem done_hbmUncorrected_unconsumed (s : State) {a : Nat} (h : inReserved a = false) :
    let x := stackAt s (a / 2 ^ 35)
    done (hbmUncorrected s a false) = .next { s with
      hbm := { s.hbm with stks := tblSet s.hbm.stks (a / 2 ^ 35) { x with
        uncorrected := x.uncorrected + 1, lastError := BitVec.ofNat 64 (2 ^ 56 + a) } }
      tele := told s rkHbmUncorrected (srcStack (a / 2 ^ 35)) (plotOfAddr s a) [] } := by
  simp only [hbmUncorrected, h, Bool.false_eq_true, if_false]
  exact done_emit_hbm s _ _ _ _ _

/-! ### The obligation -/

/-- Settles O40: the region's condition in the order of the model's tests, and each upkeep event as the change of HBM that it is. -/
theorem memoryServices : Obligations.MemoryServices := by
  unfold Obligations.MemoryServices
  intro s q n stack v t
  refine ⟨?region, ?scrub, ?refresh, ?patrol, ?calm, ?pressure, ?failed, ?fails, ?temperature⟩
  case region =>
    intro hadmits c gone s1
    have hno {st : U16} : regionCondition n v s = .error st → st ≠ stOk → notOk s c q st :=
      notOk_of_kioskCmd (exec_regionWrite q n v s) hadmits (fun _ => conditionApart_region n v)
    refine ⟨fun h => hno (regionCondition_range (regionInRange_eq_false h)) (by decide), fun hin h => ?_, fun hin h => ?_,
      fun hin _ h => ?_, fun hin hfits hkey => ?_⟩
    · exact hno (regionCondition_state hin (.inl (regionFits_loaded v h))) (by decide)
    · exact hno (regionCondition_state hin (.inl (regionFits_taken h))) (by decide)
    · exact hno (regionCondition_state hin (.inr h)) (by decide)
    · exact okWith_of_kioskCmd (exec_regionWrite q n v s) hadmits (fun _ => conditionApart_region n v) (regionCondition_ok hin hfits hkey)
  case scrub =>
    exact fun unit => ⟨exec_scrubComplete_idle, fun h => (exec_scrubComplete_due h).trans (done_hbm s _)⟩
  case refresh => exact fun channel bank => ⟨fun h => if_pos h, fun h => if_neg (not_not_intro h)⟩
  case patrol =>
    intro addr o y
    refine ⟨exec_patrolScrub_off o, fun hon hgood => ?good, fun hon hbad hplain => ?bad⟩
    case good =>
      obtain ⟨hclean, honDie, hcorrected⟩ := patrolled_good hgood
      exact ⟨(exec_patrolScrub_on .clean hon).trans (congrArg done hclean),
        (exec_patrolScrub_on .onDie hon).trans ((congrArg done honDie).trans (done_hbm s _)),
        (exec_patrolScrub_on .corrected hon).trans ((congrArg done hcorrected).trans (done_emit_hbm s _ _ _ _ _))⟩
    case bad =>
      exact (exec_patrolScrub_on o hon).trans
        ((congrArg done (patrolled_bad o hbad)).trans (done_hbmUncorrected_unconsumed _ hplain))
  case calm => exact fun h => if_pos h
  case pressure =>
    intro hmany harmed
    have hdue : ¬ (t.above < 4096 ∨ t.armed = false) := not_or.mpr ⟨Nat.not_lt.mpr hmany, by rw [harmed]; decide⟩
    exact (if_neg hdue).trans (done_emit_hbm s _ _ _ _ _)
  case failed => exact fun h => if_pos h
  case fails => exact fun h => if_neg (not_not_intro h)
  case temperature => exact fun mC => done_hbm s _

end Sys2Proof.Machine
end

section
/-! PROOF. The checks of R290 on a packet that stands whole at ingress: a check is met once those before it have passed, and what it does to
the packet that fails it is all that the packet's row does (R289, R290, R300, R301; log entries 2 and 19). -/

namespace Sys2Proof.Machine

open Sys2Proof.Safety

variable {s t : State} {l : Nat} {p : Pkt}

/-! ### The checks, each in its turn -/

/-- A packet of another epoch is counted in its plot's domain and reported once for the port (R290, R384). -/
def epochDropped (s : State) (l : Nat) (p : Pkt) : State :=
  sayOncePort (setDom (opened s l p) p.plot.toNat { domAt s p.plot.toNat with drops := (domAt s p.plot.toNat).drops + 1 }) l
    rkEpochDrop (srcLink l) (some p.plot.toNat) []

/-- A packet of a plot that does not own the port is counted at the link and at the Gatehouse, and reported once for the port (R290, R335). -/
def foreignDropped (s : State) (l : Nat) (p : Pkt) : State :=
  sayOncePort { dropAt (opened s l p) l with gate := { s.gate with foreign := s.gate.foreign + 1 } } l
    rkPlotForeign (srcLink l) (some p.plot.toNat) []

theorem ingress_poisoned (h : p.poison = true) : ingress s l p = (freeRx (dropAt s l) l p, false) := if_pos h

theorem ingress_malformed (hpoison : p.poison = false)
    (h : ¬ (flitsOk (encrypted (linkAt s l) p) (headFlits (linkAt s l) p) = true ∧ headerOk p = true)) :
    ingress s l p = (freeRx (emit (dropAt s l) rkLinkHeader (srcLink l) (some p.plot.toNat) []) l p, false) := by
  have hbad : (!(flitsOk (encrypted (linkAt s l) p) (headFlits (linkAt s l) p) && headerOk p)) = true := by
    simpa only [Bool.not_eq_true', ← Bool.not_eq_true, Bool.and_eq_true] using h
  rw [ingress, hpoison, if_neg Bool.false_ne_true, if_pos hbad]

section Formed

variable (hpoison : p.poison = false) (hflits : flitsOk (encrypted (linkAt s l) p) (headFlits (linkAt s l) p) = true)
  (hheader : headerOk p = true)

include hpoison hflits hheader

theorem ingress_unauthentic (henc : encrypted (linkAt s l) p = true) (hauth : authentic (linkAt s l) p = false) :
    ingress s l p = (freeRx (containedHold (emit (setLink s l { linkAt s l with authFails := (linkAt s l).authFails + 1 })
      rkLinkAuthFail (srcLink l) (some p.plot.toNat) []) [p.plot.toNat] hcLink) l p, false) := by
  have hformed : (!(flitsOk (encrypted (linkAt s l) p) (headFlits (linkAt s l) p) && headerOk p)) = false := by rw [hflits, hheader]; rfl
  have hfailed : (encrypted (linkAt s l) p && !authentic (linkAt s l) p) = true := by rw [henc, hauth]; rfl
  rw [ingress, hpoison, hformed, hfailed]
  rfl

variable (hauth : encrypted (linkAt s l) p = true → authentic (linkAt s l) p = true)

include hauth

/-- Once flits, header and tag have passed, the generation is accepted, and the epoch and the owner of the port are left to check (R301, R335). -/
theorem ingress_clear : ingress s l p =
    if p.vc != 0 && p.vc != 6 && p.epoch != (plotAt s p.plot.toNat).epoch then
      (freeRx (if (plotAt s p.plot.toNat).epoch.toNat < p.epoch.toNat then sendPull (epochDropped s l p) l p.plot.toNat
        else epochDropped s l p) l p, false)
    else if !(plotAt s p.plot.toNat).portMask.getLsbD (linkPort l) then (freeRx (foreignDropped s l p) l p, false)
    else (opened s l p, true) := by
  have hformed : (!(flitsOk (encrypted (linkAt s l) p) (headFlits (linkAt s l) p) && headerOk p)) = false := by rw [hflits, hheader]; rfl
  have hverified : (encrypted (linkAt s l) p && !authentic (linkAt s l) p) = false := by
    cases henc : encrypted (linkAt s l) p with
    | false => rfl
    | true => rw [hauth henc]; rfl
  have hopened : (if encrypted (linkAt s l) p = true then modLink s l (fun x => acceptGen x p) else s) = opened s l p := rfl
  simp only [ingress, hpoison, hformed, hverified, hopened, plotAt_opened, Bool.false_eq_true, if_false]
  obtain ⟨w, hw⟩ := opened_net s l p
  rw [epochDropped, foreignDropped, hw]
  rfl

section OtherEpoch

variable (hvc : p.vc ≠ 0) (hvc' : p.vc ≠ 6)

include hvc hvc'

theorem ingress_oldEpoch (h : p.epoch.toNat < (plotAt s p.plot.toNat).epoch.toNat) :
    ingress s l p = (freeRx (epochDropped s l p) l p, false) := by
  have hstale : (p.vc != 0 && p.vc != 6 && p.epoch != (plotAt s p.plot.toNat).epoch) = true := by
    rw [bne_iff_ne.mpr hvc, bne_iff_ne.mpr hvc', bne_iff_ne.mpr (BitVec.toNat_ne_iff_ne.mp (Nat.ne_of_lt h))]
    rfl
  rw [ingress_clear hpoison hflits hheader hauth, if_pos hstale, if_neg (Nat.lt_asymm h)]

theorem ingress_newEpoch (h : (plotAt s p.plot.toNat).epoch.toNat < p.epoch.toNat) :
    ingress s l p = (freeRx (sendPull (epochDropped s l p) l p.plot.toNat) l p, false) := by
  have hstale : (p.vc != 0 && p.vc != 6 && p.epoch != (plotAt s p.plot.toNat).epoch) = true := by
    rw [bne_iff_ne.mpr hvc, bne_iff_ne.mpr hvc', bne_iff_ne.mpr (BitVec.toNat_ne_iff_ne.mp (Nat.ne_of_gt h))]
    rfl
  rw [ingress_clear hpoison hflits hheader hauth, if_pos hstale, if_pos h]

end OtherEpoch

theorem ingress_foreign (hepoch : p.vc = 0 ∨ p.vc = 6 ∨ p.epoch = (plotAt s p.plot.toNat).epoch)
    (hport : (plotAt s p.plot.toNat).portMask.getLsbD (linkPort l) = false) :
    ingress s l p = (freeRx (foreignDropped s l p) l p, false) := by
  have hcurrent : (p.vc != 0 && p.vc != 6 && p.epoch != (plotAt s p.plot.toNat).epoch) = false := by
    rcases hepoch with h | h | h <;> simp [h]
  rw [ingress_clear hpoison hflits hheader hauth, hcurrent, if_neg Bool.false_ne_true, hport, if_pos Bool.not_false]

end Formed

/-! ### The row of a packet -/

theorem onPacket_absent {opcs : List (BitVec 8)} (act : State → State) (h : active s l = false ∨ arrived s l p = false) :
    onPacket s l p opcs act = s := by
  rcases h with h | h <;> simp [onPacket, h]

/-- A packet that a check drops comes to nothing but the drop. -/
theorem onPacket_dropped {opcs : List (BitVec 8)} (act : State → State) (hactive : active s l = true) (harrived : arrived s l p = true)
    (hopc : opcs.contains p.opc = true) (hdrop : ingress s l p = (t, false)) : onPacket s l p opcs act = t := by
  simp only [onPacket, hactive, harrived, hopc, hdrop, Bool.not_true, Bool.and_false, Bool.or_false, Bool.false_eq_true, if_false]

/-- A packet of which every flit has come is not still coming, whatever the checks make of it. -/
theorem arriving_of_arrived (h : arrived s l p = true) : arriving s l p = false := by
  simp only [arrived, Bool.and_eq_true] at h
  obtain ⟨⟨hspells, -⟩, -⟩ := h
  have hlen : ¬ (headFlits (linkAt s l) p).length ≤ p.len.toNat := by
    cases hf : headFlits (linkAt s l) p with
    | nil => simp [hf, spells] at hspells
    | cons h r =>
      rw [hf] at hspells
      simp only [spells, Bool.and_eq_true, beq_iff_eq] at hspells
      obtain ⟨⟨⟨-, hr⟩, -⟩, -⟩ := hspells
      simp [hr]
  simp only [arriving, decide_eq_false hlen, Bool.and_false, Bool.false_and]

theorem arriving_of_down (h : active s l = false) : arriving s l p = false := by
  simp only [arriving, h, Bool.false_and]

/-- Each row of `packetRows` meets its packet in the same way, SEG once its packet is not still coming (R214, R290). -/
theorem exec_packetRow {row : BitVec 8 × (Nat → Pkt → Instr)} (hrow : row ∈ packetRows) (s : State) (l : Nat) (p : Pkt)
    (hseg : row.1 = opSeg → arriving s l p = false) : ∃ act, exec (row.2 l p) s = done (onPacket s l p [row.1] act) := by
  simp only [packetRows, List.mem_cons, List.not_mem_nil, or_false] at hrow
  rcases hrow with rfl | rfl | rfl | rfl | rfl | rfl | rfl | rfl | rfl | rfl
  case inl => exact ⟨_, if_neg (by rw [hseg rfl]; exact Bool.false_ne_true)⟩
  all_goals exact ⟨_, rfl⟩

/-- Settles O28: the row of each opcode is its checks, and a packet that fails one is dropped as that check says. -/
theorem packetChecks : Obligations.PacketChecks := by
  unfold Obligations.PacketChecks
  intro s l p row hrow hopc n x e o whole clear
  refine ⟨fun h => ?absent, fun hactive harrived => ?checks⟩
  case absent =>
    have hcoming : row.1 = opSeg → arriving s l p = false := fun hseg =>
      h.elim arriving_of_down (fun h => h.2 (hopc.trans hseg))
    obtain ⟨act, hexec⟩ := exec_packetRow hrow s l p hcoming
    rw [hexec, onPacket_absent act (h.imp_right And.left)]
    rfl
  case checks =>
    have hdrop {t : State} (h : ingress s l p = (t, false)) : exec (row.2 l p) s = .next (settle t) := by
      obtain ⟨act, hexec⟩ := exec_packetRow hrow s l p (fun _ => arriving_of_arrived harrived)
      rw [hexec, onPacket_dropped act hactive harrived (by simp [hopc]) h]
      rfl
    refine ⟨fun hpoison => hdrop (ingress_poisoned hpoison), fun hpoison hbad => hdrop (ingress_malformed hpoison hbad),
      fun hpoison ⟨hflits, hheader⟩ henc hauth => hdrop (ingress_unauthentic hpoison hflits hheader henc hauth), ?_, ?_, ?_⟩
    · exact fun ⟨hpoison, ⟨hflits, hheader⟩, hauth⟩ hvc hvc' hold =>
        hdrop (ingress_oldEpoch hpoison hflits hheader hauth hvc hvc' hold)
    · exact fun ⟨hpoison, ⟨hflits, hheader⟩, hauth⟩ hvc hvc' hnew =>
        hdrop (ingress_newEpoch hpoison hflits hheader hauth hvc hvc' hnew)
    · exact fun ⟨hpoison, ⟨hflits, hheader⟩, hauth⟩ hepoch hport =>
        hdrop (ingress_foreign hpoison hflits hheader hauth hepoch hport)

end Sys2Proof.Machine
end

section
/-! PROOF. STREAM, TELEMETRY, KIOSK, B2_STATUS and E2E_ACK: a packet of these that passes the checks of R290 is switched, to the link that its
route names, to nowhere, or to this module itself (R292, R296, R304, R309, R314; log entries 19 and 20). -/

namespace Sys2Proof.Machine

open Sys2Proof.Safety

variable {s : State} {l k : Nat} {p : Pkt}

/-! ### What a switched packet comes to -/

theorem active_opened (s : State) (l : Nat) (p : Pkt) (k : Nat) : active (opened s l p) k = active s k := by
  unfold opened
  split
  · by_cases hk : k = l
    · rw [hk, active, linkAt_setLink_same]; rfl
    · rw [active, linkAt_setLink_ne _ _ hk]; rfl
  · rfl

theorem opened_route (s : State) (l : Nat) (p : Pkt) : (opened s l p).route = s.route := by
  obtain ⟨w, hw⟩ := opened_net s l p
  rw [hw]

/-- A link that is not ACTIVE discards what it is handed (R304). -/
theorem handOff_down (source : Nat) (h : active s k = false) : handOff s k source p = dropAt s k := by
  rw [handOff, h]
  rfl

theorem switchPkt_opened_down (hroute : routeOf s (some l) p = .out k) (hdown : active s k = false) :
    switchPkt (opened s l p) l p = freeRx (dropAt (opened s l p) k) l p := by
  simp only [switchPkt, sendOut, routeOf_opened, hroute, handOff_down _ ((active_opened s l p k).trans hdown)]

theorem switchPkt_opened_here (hroute : routeOf s (some l) p = .consume ∨ routeOf s (some l) p = .deliver) :
    switchPkt (opened s l p) l p = freeRx (opened s l p) l p :=
  switchPkt_here ((endsHere_opened s l p).trans (endsHere_iff.mpr hroute))

theorem switchPkt_opened_noRoute (hroute : routeOf s (some l) p = .noRoute) :
    switchPkt (opened s l p) l p = freeRx (sayOnce { opened s l p with route := { s.route with noRoute := s.route.noRoute + 1 } } l
      rkNoRoute (srcLink l) (some p.plot.toNat) []) l p := by
  simp only [switchPkt, sendOut, routeOf_opened, hroute, opened_route]

theorem switchPkt_opened_turn (hroute : routeOf s (some l) p = .turn) :
    switchPkt (opened s l p) l p = freeRx (sayOnce { opened s l p with route := { s.route with turns := s.route.turns + 1 } } l
      rkRouteTurn (srcLink l) (some p.plot.toNat) []) l p := by
  simp only [switchPkt, sendOut, routeOf_opened, hroute, opened_route]

/-! ### The rows -/

section Rows

variable (hpass : passes s l p)

include hpass

theorem exec_stream_passes (hopc : p.opc = opStream) : exec (.stream l p) s = .next (settle (switchPkt (opened s l p) l p)) :=
  congrArg done (onPacket_passes _ hpass (by rw [hopc]; rfl))

theorem exec_telemetry_passes (hopc : p.opc = opTelemetry) : exec (.telemetry l p) s = .next (settle (switchPkt (opened s l p) l p)) :=
  congrArg done (onPacket_passes _ hpass (by rw [hopc]; rfl))

/-- What a KIOSK packet for this module asks is another row's; here it only leaves ingress. -/
theorem exec_kiosk_passes (hopc : p.opc = opKiosk) : exec (.kiosk l p) s = .next (settle (switchPkt (opened s l p) l p)) := by
  have hsame : (if endsHere (opened s l p) l p then freeRx (opened s l p) l p else switchPkt (opened s l p) l p) = switchPkt (opened s l p) l p := by
    split
    · next hends => exact (switchPkt_here hends).symm
    · rfl
  exact (congrArg done (onPacket_passes _ hpass (by rw [hopc]; rfl))).trans (congrArg done hsame)

theorem exec_b2Status_passes (hopc : p.opc = opB2Status) (hext : p.ext ≠ stB2Mismatch) :
    exec (.b2Status l p) s = .next (settle (switchPkt (opened s l p) l p)) := by
  have hkept : (if p.ext == stB2Mismatch then
      dropDescs (opened s l p) ((collDescs (opened s l p) p.plot.toNat p.tag).filter (fun e => e.2.2.b2.isSome)) else opened s l p) = opened s l p :=
    if_neg (by simpa using hext)
  exact (congrArg done (onPacket_passes _ hpass (by rw [hopc]; rfl))).trans (congrArg (fun t => done (switchPkt t l p)) hkept)

theorem exec_e2eAck_passes (hopc : p.opc = opE2eAck) :
    exec (.e2eAck l p) s = .next (settle (match routeOf s (some l) p with
      | .out k => freeRx (ackPair (handOff (opened s l p) k l p) k p) l p
      | _ => switchPkt (opened s l p) l p)) := by
  rw [← routeOf_opened s l p]
  exact congrArg done (onPacket_passes _ hpass (by rw [hopc]; rfl))

end Rows

/-- Settles O29: each of the five rows switches its packet, and what becomes of it is its route's to say. -/
theorem packetsAreSwitched : Obligations.PacketsAreSwitched := by
  unfold Obligations.PacketsAreSwitched
  intro s l p hpass o
  refine ⟨?out, fun k hroute hdown hopc => ?down, fun hroute => ?here, fun hroute hopc => ?noRoute,
    fun hroute hopc => ?turn⟩
  case out =>
    intro k hroute htakes t
    have hswitched : switchPkt o l p = freeRx t l p := switchPkt_opened_out hroute htakes
    refine ⟨fun hopc => hswitched ▸ exec_stream_passes hpass hopc, fun hopc => hswitched ▸ exec_telemetry_passes hpass hopc,
      fun hopc => hswitched ▸ exec_kiosk_passes hpass hopc, fun hopc hext => hswitched ▸ exec_b2Status_passes hpass hopc hext, fun hopc => ?_⟩
    rw [exec_e2eAck_passes hpass hopc, hroute]
    dsimp only
    rw [handOff_takes (takes_opened htakes)]
  case down => rw [exec_stream_passes hpass hopc, switchPkt_opened_down hroute hdown]
  case here =>
    have hended : switchPkt o l p = freeRx o l p := switchPkt_opened_here hroute
    refine ⟨fun hopc => hended ▸ exec_stream_passes hpass hopc, fun hopc => hended ▸ exec_telemetry_passes hpass hopc,
      fun hopc => hended ▸ exec_kiosk_passes hpass hopc, fun hopc hext => hended ▸ exec_b2Status_passes hpass hopc hext, fun hopc => ?_⟩
    rw [exec_e2eAck_passes hpass hopc, ← hended]
    rcases hroute with h | h <;> rw [h]
  case noRoute => rw [exec_stream_passes hpass hopc, switchPkt_opened_noRoute hroute]
  case turn => rw [exec_stream_passes hpass hopc, switchPkt_opened_turn hroute]

end Sys2Proof.Machine
end

section
/-! PROOF. The drop of a packet beyond its window (R296): the model writes the count of window drops over the ports as they were before the
pair was noted as named, so that the note is lost. -/

namespace Sys2Proof.Machine

open Sys2Proof.Safety

/-! ### What a window drop leaves at its link -/

theorem windowSaid_freeRx (s : State) (l : Nat) (p : Pkt) : (linkAt (freeRx s l p) l).windowSaid = (linkAt s l).windowSaid := by
  unfold freeRx
  dsimp only
  split
  · rfl
  · rw [linkAt_modLink_same]

/-- In the model a window drop names no pair as reported in its frame. -/
theorem windowSaid_windowDrop (s : State) (l : Nat) (p : Pkt) : (linkAt (windowDrop s l p) l).windowSaid = (linkAt s l).windowSaid := by
  rw [windowDrop, windowSaid_freeRx]
  split <;> rfl

theorem exec_p2p_dropped {s : State} {l : Nat} {p : Pkt} (hpass : passes s l p) (hopc : p.opc = opP2p) (hwin : police s l p = .drop) :
    exec (.p2p l p) s = .next (settle (windowDrop (opened s l p) l p)) := by
  have hdrop : policed (opened s l p) l p (fun s => p2pPass s l p) = windowDrop (opened s l p) l p := by
    simp only [policed, police_opened, hwin]
  exact (congrArg done (onPacket_passes _ hpass (by rw [hopc]; rfl))).trans (congrArg done hdrop)

/-! ### A window of 0 -/

/-- A P2P packet of plot 0 for endpoint 0x20, of no bytes. -/
def shutPkt : Pkt := { vc := 4, cls := 1, dest := 0x20, opc := opP2p }

/-- Link 0 is ACTIVE with an endpoint, plot 0 owns its port and has a window of 0, and the packet's one flit stands confirmed. -/
def shutState : State :=
  setLink (setPlot State.reset 0 { portMask := 1, windowEff := 0 }) 0
    { state := 6, partner := 0x01000000, rx := [(4, [headerFlit shutPkt 0])] }

theorem passes_shutState : passes shutState 0 shutPkt := by
  unfold passes
  decide +kernel

/-- Refutes O30: `windowDrop` counts the drop in the ports as they were before it noted the pair, so the pair of a P2P packet that meets a
window of 0 is not among those that LINK_WINDOW has named in this frame, where the statement, as R296 does, has it named once. -/
theorem not_windowedPackets : ¬ Obligations.WindowedPackets := by
  intro h
  obtain ⟨hp2p, -⟩ := h shutState 0 shutPkt
  obtain ⟨-, -, -, hdrop⟩ := hp2p passes_shutState rfl
  have hexec := hdrop (by decide +kernel) (.inr (by decide +kernel))
  have hmodel := exec_p2p_dropped passes_shutState rfl (by decide +kernel)
  have hstates := Host.Outcome.next.inj (hmodel.symm.trans hexec)
  have hsaid := congrArg (fun t => (linkAt t 0).windowSaid) hstates
  simp only [linkAt_settle, windowSaid_windowDrop, windowSaid_freeRx] at hsaid
  exact absurd hsaid (by decide +kernel)

end Sys2Proof.Machine
end

section
/-! PROOF. Flits, LINK sets, replays and heartbeats on an ACTIVE link: what a flit is taken for, where it goes, and what each row then does (R288,
R292, R293, R297, R378, R384; log entries 2, 21 and 50). -/

namespace Sys2Proof.Machine

open Sys2Proof.Safety

variable {s : State} {l cycle v g n : Nat} {x : Link} {bs : List Byte}

/-! ### A NAK (R293) -/

/-- A NAK for the value expected has been sent in the 4 µs before `now`. -/
def nakAnswered (x : Link) (now : BitVec 64) : Prop := ∃ t, x.nakSaid = some (x.seqRx, t) ∧ (now - t).toNat < 7200

theorem nakSaid_iff (x : Link) (now : BitVec 64) :
    (match x.nakSaid with
      | some (v, t) => v == x.seqRx && decide ((now - t).toNat < nakCycles)
      | none => false) = true ↔ nakAnswered x now := by
  unfold nakAnswered nakCycles
  cases x.nakSaid with
  | none => simp
  | some e =>
    obtain ⟨v, t⟩ := e
    simp only [Bool.and_eq_true, beq_iff_eq, decide_eq_true_eq, Option.some.injEq, Prod.mk.injEq]
    constructor
    · rintro ⟨hv, ht⟩
      exact ⟨t, ⟨hv, rfl⟩, ht⟩
    · rintro ⟨t', ⟨hv, rfl⟩, ht⟩
      exact ⟨hv, ht⟩

theorem sendNak_answered (h : nakAnswered (linkAt s l) (s.sd.tickCycle + BitVec.ofNat 64 cycle)) : sendNak s l cycle = s :=
  if_pos ((nakSaid_iff _ _).mpr h)

theorem sendNak_due (h : ¬ nakAnswered (linkAt s l) (s.sd.tickCycle + BitVec.ofNat 64 cycle)) :
    sendNak s l cycle = setLink s l { linkAt s l with
      nakSaid := some ((linkAt s l).seqRx, s.sd.tickCycle + BitVec.ofNat 64 cycle)
      osq := (linkAt s l).osq ++ [orderedSet 2 (natLe 2 (linkAt s l).seqRx.toNat)] } :=
  if_neg (mt (nakSaid_iff _ _).mp h)

/-! ### What a flit is taken for (R288, R293, R297) -/

theorem exec_flitReceive_down (h : active s l = false) : exec (.flitReceive l ⟨bs, cycle⟩) s = .next (settle s) :=
  if_pos (by rw [h]; rfl)

section Active

variable (hactive : active s l = true) (hlen : bs.length = 256)

include hactive hlen

theorem exec_flitReceive_set (hft : fieldN (flitHead bs) 126 2 = 0) :
    exec (.flitReceive l ⟨bs, cycle⟩) s =
      if !flitCrcOk bs || decide (7 < fieldN (flitHead bs) 120 6) then done (emit s rkLinkOsError (srcLink l) none []) else done s := by
  show execFlitReceive l ⟨bs, cycle⟩ s = _
  simp only [execFlitReceive, hactive, hlen, hft, bne_self_eq_false, beq_self_eq_true, Bool.not_true, Bool.or_self, Bool.false_eq_true,
    if_false, if_true]

theorem exec_flitReceive_data (hft : fieldN (flitHead bs) 126 2 ≠ 0) :
    exec (.flitReceive l ⟨bs, cycle⟩) s =
      if !flitCrcOk bs || fieldN (flitHead bs) 126 2 == 3 || fieldN (flitHead bs) 112 14 != (linkAt s l).seqRx.toNat then
        done (sendNak s l cycle) else done (takeFlit s l bs) := by
  show execFlitReceive l ⟨bs, cycle⟩ s = _
  simp only [execFlitReceive, hactive, hlen, beq_eq_false_iff_ne.mpr hft, bne_self_eq_false, Bool.not_true, Bool.or_self, Bool.false_eq_true,
    if_false]

theorem exec_flitReceive_nak (hft : fieldN (flitHead bs) 126 2 ≠ 0)
    (h : flitCrcOk bs = false ∨ fieldN (flitHead bs) 126 2 = 3 ∨ fieldN (flitHead bs) 112 14 ≠ (linkAt s l).seqRx.toNat) :
    exec (.flitReceive l ⟨bs, cycle⟩) s = .next (settle (sendNak s l cycle)) := by
  rw [exec_flitReceive_data hactive hlen hft]
  exact if_pos (by simpa only [Bool.or_eq_true, Bool.not_eq_true', beq_iff_eq, bne_iff_ne, or_assoc] using h)

theorem exec_flitReceive_taken (hcrc : flitCrcOk bs = true) (hseq : fieldN (flitHead bs) 112 14 = (linkAt s l).seqRx.toNat)
    (hft : fieldN (flitHead bs) 126 2 = 1 ∨ fieldN (flitHead bs) 126 2 = 2) :
    exec (.flitReceive l ⟨bs, cycle⟩) s = .next (settle (takeFlit s l bs)) := by
  rw [exec_flitReceive_data hactive hlen (by omega)]
  refine if_neg ?_
  rcases hft with h | h <;> simp [hcrc, hseq, h]

end Active

/-! ### Where a confirmed flit goes (R291, R292) -/

/-- The receiver once a data flit in sequence is confirmed (R293). -/
def confirmed (x : Link) : Link := { x with seqRx := x.seqRx + 1, rxAny := true, nakSaid := none }

/-- As `confirmed`, with what a payload flit reports in its first 16 bytes: ACKSEQ, and RET of one VC (Table 12.2). -/
def payloadReported (x : Link) (h : Nat) : Link :=
  retReport (if fieldN h 97 1 = 1 then ackTo (confirmed x) (BitVec.ofNat 14 (fieldN h 98 14)) else confirmed x) (fieldN h 94 3)
    (BitVec.ofNat 16 (fieldN h 78 16))

/-- The receiver with a flit in the buffer of a VC. -/
def stored (x : Link) (v : Nat) (bs : List Byte) : Link :=
  { x with rx := tblSet x.rx v (tblGet [] x.rx v ++ [bs]), rcvd := tblMod 0 x.rcvd v (· + 1) }

/-- What becomes of a confirmed flit of a VC, `x` being the receiver that has confirmed it. -/
def placeFlit (s : State) (l : Nat) (bs : List Byte) (x : Link) (v : Nat) : State :=
  if rxRoom x v then
    match lastHeader (stored x v bs) v with
    | some h => movedBy (setLink s l (stored x v bs)) (fieldN h 96 5) (BitVec.ofNat 8 (fieldN h 48 8)) (BitVec.ofNat 16 (fieldN h 32 16))
    | none => setLink s l (stored x v bs)
  else linkDown (setLink s l x) l stCreditOverrun true false

theorem takeFlit_header (hft : fieldN (flitHead bs) 126 2 = 1) :
    takeFlit s l bs = placeFlit s l bs (confirmed (linkAt s l)) (fieldN (flitHead bs) 104 3) := by
  simp only [takeFlit, hft]
  rfl

theorem takeFlit_payload (hft : fieldN (flitHead bs) 126 2 = 2) (hv : payloadVc (linkAt s l) (fieldN (flitHead bs) 74 4) = some v) :
    takeFlit s l bs = placeFlit s l bs (payloadReported (linkAt s l) (flitHead bs)) v := by
  simp only [takeFlit, hft, hv, beq_self_eq_true, if_true, beq_iff_eq]
  rfl

theorem rxRoom_iff (x : Link) (v : Nat) : rxRoom x v = true ↔ (tblGet [] x.rx v).length < x.alloc.getD v 0 := decide_eq_true_iff

theorem placeFlit_room (hroom : (tblGet [] x.rx v).length < x.alloc.getD v 0) (hheader : lastHeader (stored x v bs) v = some g) :
    placeFlit s l bs x v =
      movedBy (setLink s l (stored x v bs)) (fieldN g 96 5) (BitVec.ofNat 8 (fieldN g 48 8)) (BitVec.ofNat 16 (fieldN g 32 16)) := by
  simp only [placeFlit, (rxRoom_iff x v).mpr hroom, if_true, hheader]

theorem placeFlit_full (hfull : ¬ (tblGet [] x.rx v).length < x.alloc.getD v 0) :
    placeFlit s l bs x v = linkDown (setLink s l x) l stCreditOverrun true false :=
  if_neg (mt (rxRoom_iff x v).mp hfull)

/-! ### The packet that a flit belongs to (R289) -/

theorem reverse_stored (x : Link) (v : Nat) (bs : List Byte) :
    (tblGet [] (stored x v bs).rx v).reverse = bs :: (tblGet [] x.rx v).reverse := by
  rw [stored, tblGet_tblSet_same, List.reverse_append]
  rfl

theorem lastHeader_stored_header (hft : fieldN (flitHead bs) 126 2 = 1) : lastHeader (stored x v bs) v = some (flitHead bs) := by
  rw [lastHeader, reverse_stored, List.find?_cons_of_pos (by simp [hft])]
  rfl

theorem lastHeader_stored_payload (hft : fieldN (flitHead bs) 126 2 = 2) : lastHeader (stored x v bs) v = lastHeader x v := by
  rw [lastHeader, reverse_stored, List.find?_cons_of_neg (by simp [hft])]
  rfl

theorem ackTo_rx (x : Link) (a : BitVec 14) : (ackTo x a).rx = x.rx := by
  simp only [ackTo]
  split <;> rfl

theorem retReport_rx (x : Link) (v : Nat) (r : BitVec 16) : (retReport x v r).rx = x.rx := by
  unfold retReport
  split <;> rfl

theorem lastHeader_payloadReported (x : Link) (h v : Nat) : lastHeader (payloadReported x h) v = lastHeader x v := by
  have hrx : (payloadReported x h).rx = x.rx := by
    rw [payloadReported, retReport_rx]
    split
    · exact ackTo_rx _ _
    · rfl
  rw [lastHeader, hrx]
  rfl

/-! ### Acknowledgement and replay (R292, R293) -/

/-- A LINK set is due: a confirmed flit is not acknowledged, or a RET count is not reported. -/
theorem linkSetDue_iff (x : Link) : (ackDue x || (List.range 8).any (fun v => tblGet 0 x.ret v != tblGet 0 x.retSaid v)) = true ↔
    (x.rxAny = true ∧ x.ackSaid ≠ some x.seqRx) ∨ (∃ v, v < 8 ∧ tblGet 0 x.ret v ≠ tblGet 0 x.retSaid v) := by
  simp only [ackDue, Bool.or_eq_true, Bool.and_eq_true, bne_iff_ne, List.any_eq_true, List.mem_range]

theorem exec_linkSetDue_due (hactive : active s l = true)
    (h : ((linkAt s l).rxAny = true ∧ (linkAt s l).ackSaid ≠ some (linkAt s l).seqRx) ∨
      (∃ v, v < 8 ∧ tblGet 0 (linkAt s l).ret v ≠ tblGet 0 (linkAt s l).retSaid v)) :
    exec (.linkSetDue l) s = .next (settle (setLink s l { linkAt s l with
      osq := (linkAt s l).osq ++ [linkSetBytes (linkAt s l)], retSaid := (linkAt s l).ret
      ackSaid := if (linkAt s l).rxAny then some (linkAt s l).seqRx else (linkAt s l).ackSaid })) :=
  if_pos (Bool.and_eq_true_iff.mpr ⟨hactive, (linkSetDue_iff _).mpr h⟩)

theorem exec_linkSetDue_idle (h : active s l = false ∨ ¬ (((linkAt s l).rxAny = true ∧ (linkAt s l).ackSaid ≠ some (linkAt s l).seqRx) ∨
      (∃ v, v < 8 ∧ tblGet 0 (linkAt s l).ret v ≠ tblGet 0 (linkAt s l).retSaid v))) :
    exec (.linkSetDue l) s = .next (settle s) := by
  refine if_neg (fun hsent => ?_)
  obtain ⟨hactive, hdue⟩ := Bool.and_eq_true_iff.mp hsent
  rcases h with h | h
  · exact Bool.false_ne_true (h.symm.trans hactive)
  · exact h ((linkSetDue_iff _).mp hdue)

theorem startReplay_again (h : (linkAt s l).replays < 8) :
    startReplay s l n = setLink s l { linkAt s l with replay := n, replays := (linkAt s l).replays + 1 } := if_neg (Nat.not_le.mpr h)

theorem startReplay_ninth (h : 8 ≤ (linkAt s l).replays) : startReplay s l n = linkDown s l stLinkRetryFail true false := if_pos h

/-- The place in the retry buffer of the flit that a NAK asks for; beyond its end where no such flit is kept (log entry 50). -/
def nakPlace (x : Link) (k : BitVec 14) : Nat := (k - (x.seqTx - BitVec.ofNat 14 x.retry.length)).toNat

theorem exec_nak_ignored {k : BitVec 14} (h : active s l = false ∨ (linkAt s l).retry.length ≤ nakPlace (linkAt s l) k) :
    exec (.nak l k) s = .next (settle s) := by
  refine if_neg (fun hkept => ?_)
  obtain ⟨hactive, hplace⟩ := Bool.and_eq_true_iff.mp hkept
  rcases h with h | h
  · exact Bool.false_ne_true (h.symm.trans hactive)
  · exact Nat.not_le.mpr (of_decide_eq_true hplace) h

theorem exec_nak_kept {k : BitVec 14} (hactive : active s l = true) (h : nakPlace (linkAt s l) k < (linkAt s l).retry.length) :
    exec (.nak l k) s = .next (settle (startReplay s l ((linkAt s l).retry.length - nakPlace (linkAt s l) k))) :=
  if_pos (Bool.and_eq_true_iff.mpr ⟨hactive, decide_eq_true h⟩)

theorem exec_replayTimeout_idle (h : active s l = false ∨ (linkAt s l).retry = []) : exec (.replayTimeout l) s = .next (settle s) :=
  if_neg (by rcases h with h | h <;> simp [h])

theorem exec_replayTimeout_due (hactive : active s l = true) (h : (linkAt s l).retry ≠ []) :
    exec (.replayTimeout l) s = .next (settle (startReplay s l (linkAt s l).retry.length)) :=
  if_pos (by simpa [hactive] using h)

/-! ### Heartbeats (R378, R384) -/

/-- The state in which a link's partner has been heard, and is no suspect. -/
def heartbeatHeard (s : State) (l : Nat) : State :=
  let t := setLink s l { linkAt s l with hbHeard := true, hbMissed := 0 }
  { t with lodge := { s.lodge with suspects := s.lodge.suspects.filter (· != (linkAt s l).partner.extractLsb' 0 24) } }

section Heartbeat

variable (b : HeartbeatBody) (hactive : active s l = true)

include hactive

theorem exec_heartbeat_active : exec (.heartbeat l b) s =
    match hbPlot s (linkPort l) with
    | none => .next (settle (heartbeatHeard s l))
    | some n => if (plotAt s n).epoch.toNat < b.epoch.toNat then .next (settle (sendPull (heartbeatHeard s l) l n))
      else .next (settle (heartbeatHeard s l)) := by
  show execHeartbeat l b s = _
  simp only [execHeartbeat, hactive, Bool.not_true, Bool.false_eq_true, if_false, linkAt_modLink_same]
  rfl

theorem exec_heartbeat_none (hnone : hbPlot s (linkPort l) = none) : exec (.heartbeat l b) s = .next (settle (heartbeatHeard s l)) := by
  rw [exec_heartbeat_active b hactive, hnone]

theorem exec_heartbeat_some (hsome : hbPlot s (linkPort l) = some n) :
    exec (.heartbeat l b) s = if (plotAt s n).epoch.toNat < b.epoch.toNat then .next (settle (sendPull (heartbeatHeard s l) l n))
      else .next (settle (heartbeatHeard s l)) := by
  rw [exec_heartbeat_active b hactive, hsome]

end Heartbeat

/-! ### The obligation -/

/-- Settles O41: a flit's type, CRC and sequence number say what it is taken for, its VC's room whether it stays, and each other row is one
test on the link. -/
theorem linkFlits : Obligations.LinkFlits := by
  unfold Obligations.LinkFlits
  intro s l x due put
  refine ⟨fun hdown => ?down, fun hactive => ⟨?flits, fun a v r => ?linkSet, ?due, ?nak, ?idle, ?again, ?ninth, ?heartbeat⟩⟩
  case down =>
    exact ⟨fun bs cycle => exec_flitReceive_down hdown, fun a v r => if_pos (by rw [hdown]; rfl), exec_linkSetDue_idle (.inl hdown),
      fun k => exec_nak_ignored (.inl hdown), exec_replayTimeout_idle (.inl hdown), fun b => if_pos (by rw [hdown]; rfl)⟩
  case flits =>
    intro bs cycle hlen c h type now answered room taken moved
    refine ⟨fun hft hcrc htype => ?good, fun hft hbad => ?bad, fun hft hout => ⟨fun hsaid => ?said, fun hsaid => ?unsaid⟩,
      fun hcrc hseq => ⟨fun hft => ?header, fun hft => ?payload⟩⟩
    case good =>
      rw [exec_flitReceive_set hactive hlen hft]
      have htype' : ¬ 7 < fieldN (flitHead bs) 120 6 := Nat.not_lt.mpr htype
      exact if_neg (by simp [hcrc, htype'])
    case bad =>
      rw [exec_flitReceive_set hactive hlen hft]
      exact if_pos (by simpa using hbad)
    case said => rw [exec_flitReceive_nak hactive hlen hft hout, sendNak_answered hsaid]
    case unsaid => rw [exec_flitReceive_nak hactive hlen hft hout, sendNak_due hsaid]
    case header =>
      have htakes {t : State} (ht : takeFlit s l bs = t) : exec c s = .next (settle t) :=
        ht ▸ exec_flitReceive_taken hactive hlen hcrc hseq (.inl hft)
      exact ⟨fun hroom => htakes ((takeFlit_header hft).trans (placeFlit_room hroom (lastHeader_stored_header hft))),
        fun hfull => htakes ((takeFlit_header hft).trans (placeFlit_full hfull))⟩
    case payload =>
      intro a z
      have htakes {t : State} (ht : takeFlit s l bs = t) : exec c s = .next (settle t) :=
        ht ▸ exec_flitReceive_taken hactive hlen hcrc hseq (.inr hft)
      refine ⟨fun v g hv hg hroom => ?_, fun v hv hfull => htakes ((takeFlit_payload hft hv).trans (placeFlit_full hfull))⟩
      have hlast : lastHeader (stored z v bs) v = some g :=
        (lastHeader_stored_payload hft).trans ((lastHeader_payloadReported x h v).trans hg)
      exact htakes ((takeFlit_payload hft hv).trans (placeFlit_room hroom hlast))
  case linkSet => exact if_neg (by rw [hactive]; exact Bool.false_ne_true)
  case due => exact ⟨exec_linkSetDue_due hactive, fun h => exec_linkSetDue_idle (.inr h)⟩
  case nak =>
    intro k i
    exact ⟨fun h => exec_nak_ignored (.inr h),
      fun h hfew => (exec_nak_kept hactive h).trans (congrArg done (startReplay_again hfew)),
      fun h hmany => (exec_nak_kept hactive h).trans (congrArg done (startReplay_ninth hmany))⟩
  case idle => exact fun h => exec_replayTimeout_idle (.inr h)
  case again => exact fun h hfew => (exec_replayTimeout_due hactive h).trans (congrArg done (startReplay_again hfew))
  case ninth => exact fun h hmany => (exec_replayTimeout_due hactive h).trans (congrArg done (startReplay_ninth hmany))
  case heartbeat =>
    intro b s1 s2
    refine ⟨exec_heartbeat_none b hactive, fun n hsome => ⟨fun h => ?_, fun h => ?_⟩⟩
    · exact (exec_heartbeat_some b hactive hsome).trans (if_neg (Nat.not_lt.mpr h))
    · exact (exec_heartbeat_some b hactive hsome).trans (if_pos h)

end Sys2Proof.Machine
end

section
/-! PROOF. Bring-up of a link, its lanes and its loss: what each event does in the state that it is an event of (R287, R302, R303, Table 12.8; log
entries 2, 54 and 95). -/

namespace Sys2Proof.Machine

open Sys2Proof.Safety

variable {s : State} {l a : Nat}

/-! ### From state to state (R302) -/

theorem bringOn_not {old new : Nat} (h : (linkAt s l).state ≠ old ∨ linkExists s l = false) : bringOn s l old new = s :=
  if_neg (fun ⟨hstate, hexists⟩ => h.elim (fun h => h hstate) (fun h => Bool.false_ne_true (h.symm.trans hexists)))

theorem bringOn_moves {old new : Nat} (hstate : (linkAt s l).state = old) (hexists : linkExists s l = true) :
    bringOn s l old new = setLink s l { linkAt s l with state := new } := if_pos ⟨hstate, hexists⟩

/-- A port die that is failed or under self-test trains no link (R168, R345). -/
theorem exec_linkSignalDetect_unfit (h : (dieAt s (linkDie l)).failed = true ∨ (dieAt s (linkDie l)).testing = true) :
    exec (.linkSignalDetect l) s = .next (settle s) := if_pos (Bool.or_eq_true_iff.mpr h)

theorem exec_linkSignalDetect_fit (h : (dieAt s (linkDie l)).failed = false ∧ (dieAt s (linkDie l)).testing = false) :
    exec (.linkSignalDetect l) s = .next (settle (bringOn s l 1 2)) := if_neg (by rw [h.1, h.2]; exact Bool.false_ne_true)

/-- A link with no signal to detect, or that does not exist, stays as it is, fit or not. -/
theorem exec_linkSignalDetect_not (h : (linkAt s l).state ≠ 1 ∨ linkExists s l = false) : exec (.linkSignalDetect l) s = .next (settle s) := by
  show execLinkSignalDetect l s = _
  rw [execLinkSignalDetect, bringOn_not h]
  exact ite_self _

/-- A failed attempt puts the link back in DETECT and is reported with its cause. -/
theorem done_trainFail (s : State) (l : Nat) (cause : U16) : done (trainFail s l cause) = .next { s with
    net := { s.net with links := tblSet s.net.links l { linkAt s l with state := 1 } }
    tele := told s rkLinkTrainFail (srcLink l) none [(16, cause.toNat)] } := rfl

/-! ### Spares (R287) -/

/-- A spare of the link's die has taken a lane's position, and has been reported. -/
def laneSpared (s : State) (l a : Nat) : State :=
  emit (modLink { s with net := { s.net with sparesUsed := tblMod 0 s.net.sparesUsed (linkDie l) (· + 1) } } l
    (fun x => { x with spared := setBit x.spared a true })) rkLaneSpared (srcLink l) none []

theorem spareLane_none (h : freeSpares s (linkDie l) = 0) : spareLane s l a = none := if_pos h
theorem spareLane_some (h : freeSpares s (linkDie l) ≠ 0) : spareLane s l a = some (laneSpared s l a) := if_neg h

theorem spareLanes_none {as : List Nat} (has : as ≠ []) (h : freeSpares s (linkDie l) = 0) : spareLanes s l as = (s, true) := by
  cases as with
  | nil => exact absurd rfl has
  | cons a r => rw [spareLanes, spareLane_none h]

theorem spareLanes_one (h : freeSpares s (linkDie l) ≠ 0) : spareLanes s l [a] = (laneSpared s l a, false) := by
  rw [spareLanes, spareLane_some h]
  rfl

theorem sortNat_ne_nil {as : List Nat} (h : as ≠ []) : sortNat as ≠ [] :=
  fun hnil => h (List.nil_perm.mp (hnil ▸ sortBy_perm _ as))

/-- What a spared lane and a change of its link come to together: the spare counted, the link with both changes, and one record. -/
theorem modLink_laneSpared (s : State) (l a : Nat) (f : Link → Link) : modLink (laneSpared s l a) l f = { s with
    net := { s.net with
      sparesUsed := tblMod 0 s.net.sparesUsed (linkDie l) (· + 1)
      links := tblSet s.net.links l (f { linkAt s l with spared := setBit (linkAt s l).spared a true }) }
    tele := (emit s rkLaneSpared (srcLink l) none []).tele } := by
  have hlink : linkAt (laneSpared s l a) l = { linkAt s l with spared := setBit (linkAt s l).spared a true } := by
    rw [laneSpared, linkAt_emit, linkAt_modLink_same]
    rfl
  have hlinks : tblSet (laneSpared s l a).net.links l (f { linkAt s l with spared := setBit (linkAt s l).spared a true }) =
      tblSet s.net.links l (f { linkAt s l with spared := setBit (linkAt s l).spared a true }) := tblSet_tblSet ..
  rw [modLink, setLink, hlink, hlinks]
  rfl

/-! ### LANECHECK (R287, R302) -/

theorem exec_lanecheckDone_not {c : LaneCheck} (h : (linkAt s l).state ≠ 4) : exec (.lanecheckDone l c) s = .next (settle s) := if_pos h

section LaneCheck

variable {c : LaneCheck} (hstate : (linkAt s l).state = 4)

include hstate

/-- A fault of the channel ends the attempt, whatever the spares (log entry 95). -/
theorem exec_lanecheckDone_channel (h : c.channel ≠ []) :
    exec (.lanecheckDone l c) s = .next (settle (trainFail (spareLanes s l (sortNat c.serdes)).1 l stLaneChannel)) := by
  have hchannel : (!c.channel.isEmpty) = true := by simpa using h
  show execLanecheckDone l c s = _
  rw [execLanecheckDone, if_neg (not_not_intro hstate)]
  simp only [laneCheck, hchannel, if_true]
  rfl

variable (hchannel : c.channel = [])

include hchannel

theorem exec_lanecheckDone_spent (h : (spareLanes s l (sortNat c.serdes)).2 = true) :
    exec (.lanecheckDone l c) s = .next (settle (trainFail (spareLanes s l (sortNat c.serdes)).1 l stSpareNone)) := by
  show execLanecheckDone l c s = _
  rw [execLanecheckDone, if_neg (not_not_intro hstate)]
  simp only [laneCheck, hchannel, h, List.isEmpty_nil, Bool.not_true, Bool.false_eq_true, if_false, if_true]
  rfl

/-- The lanes pass, the link is in PARAM, and its PARAM set is on its way. -/
theorem exec_lanecheckDone_passed {t : State} (h : spareLanes s l (sortNat c.serdes) = (t, false)) :
    exec (.lanecheckDone l c) s =
      .next (settle (modLink { t with out := t.out ++ [.wire l (paramBytes t l)] } l (fun x => { x with state := 5 }))) := by
  show execLanecheckDone l c s = _
  rw [execLanecheckDone, if_neg (not_not_intro hstate)]
  simp only [laneCheck, hchannel, h, List.isEmpty_nil, Bool.not_true, Bool.false_eq_true, if_false]
  rfl

/-- One lane that failed is spared, and the link goes on. -/
theorem exec_lanecheckDone_one (hone : c.serdes = [a]) (hfree : freeSpares s (linkDie l) ≠ 0) :
    exec (.lanecheckDone l c) s = .next { s with
      net := { s.net with
        sparesUsed := tblMod 0 s.net.sparesUsed (linkDie l) (· + 1)
        links := tblSet s.net.links l { linkAt s l with spared := setBit (linkAt s l).spared a true, state := 5 } }
      out := s.out ++ [.wire l (paramBytes s l)]
      tele := told s rkLaneSpared (srcLink l) none [] } := by
  have hlanes : spareLanes s l (sortNat c.serdes) = (laneSpared s l a, false) := by
    rw [hone]
    exact spareLanes_one hfree
  rw [exec_lanecheckDone_passed hstate hchannel hlanes]
  exact congrArg (fun t : State => Host.Outcome.next (settle { t with out := s.out ++ [.wire l (paramBytes s l)] }))
    (modLink_laneSpared s l a (fun x => { x with state := 5 }))

end LaneCheck

/-! ### PARAM and ACTIVE (R302) -/

theorem exec_param_not (b : ParamBody) (h : (linkAt s l).state ≠ 5) : exec (.param l b) s = .next (settle s) := if_pos h

theorem exec_param_refused {b : ParamBody} (h : (linkAt s l).state = 5) (hbad : paramOk s l b = false) :
    exec (.param l b) s = done (trainFail s l stLinkPartner) :=
  (if_neg (not_not_intro h)).trans (if_neg (by rw [hbad]; exact Bool.false_ne_true))

theorem exec_param_agreed {b : ParamBody} (h : (linkAt s l).state = 5) (hgood : paramOk s l b = true) :
    exec (.param l b) s = .next (settle (linkActive s l b)) := (if_neg (not_not_intro h)).trans (if_pos hgood)

/-- The link as it enters ACTIVE (R292–R294). -/
def activeLink (s : State) (l : Nat) (b : ParamBody) : Link :=
  { clearLink (linkAt s l) with
    state := 6, partner := BitVec.ofNat 32 (b.epid.toNat % 2 ^ 24 + b.role.toNat % 2 * 2 ^ 24)
    capacity := BitVec.ofNat 32 (capacityOf (fullFrame s l) (linkAt s l).rtt.toNat)
    alloc := allocOf s l, init := b.init.map (·.toNat), encMask := maskOf s l, attempts := none, pairs := [], windowSaid := [], keys := [],
    keyx := .idle, hbHeard := true }

theorem maskOf_setLink (s : State) (k : Nat) (x : Link) (l : Nat) : maskOf (setLink s k x) l = maskOf s l := rfl

theorem maskOf_emit (s : State) (rk : RecKind) (src : Src) (pl : Option Nat) (args : List (Nat × Nat)) (l : Nat) :
    maskOf (emit s rk src pl args) l = maskOf s l := rfl

/-- Without encryption to agree on, the link stays as it entered ACTIVE. -/
theorem linkAt_linkActive (b : ParamBody) (hmask : maskOf s l = 0) : linkAt (linkActive s l b) l = activeLink s l b := by
  simp only [linkActive, apply_ite (fun t => maskOf t l), apply_ite (fun t => linkAt t l), maskOf_emit, maskOf_setLink, hmask, ite_self,
    if_true, linkAt_emit, linkAt_setLink_same]
  rw [activeLink, hmask]
  rfl

/-! ### Time-outs and attempts (R302, R303) -/

theorem exec_linkStateTimeout_over (h : 2 ≤ (linkAt s l).state ∧ (linkAt s l).state ≤ 5) :
    exec (.linkStateTimeout l) s = done (trainFail s l stOk) := if_pos h

theorem exec_linkStateTimeout_not (h : (linkAt s l).state < 2 ∨ 5 < (linkAt s l).state) : exec (.linkStateTimeout l) s = .next (settle s) :=
  if_neg (by omega)

section Reattempt

theorem exec_linkReattempt_none (h : (linkAt s l).attempts = none) : exec (.linkReattempt l) s = .next (settle s) := by
  show execLinkReattempt l s = _
  simp only [execLinkReattempt, h]
  rfl

/-- A link that is up, or on its way there, makes no attempt. -/
theorem exec_linkReattempt_up (h : 1 < (linkAt s l).state) : exec (.linkReattempt l) s = .next (settle s) := by
  have hup : ¬ ((linkAt s l).state = 0 ∨ (linkAt s l).state = 1) := by omega
  show execLinkReattempt l s = _
  simp only [execLinkReattempt, if_neg hup]
  split <;> rfl

variable (hdown : (linkAt s l).state ≤ 1)

include hdown

theorem exec_linkReattempt_last (h : (linkAt s l).attempts = some 0) :
    exec (.linkReattempt l) s = .next (settle (setLink s l { linkAt s l with state := 7, attempts := none })) := by
  show execLinkReattempt l s = _
  simp only [execLinkReattempt, h, if_pos (Nat.le_one_iff_eq_zero_or_eq_one.mp hdown)]
  rfl

theorem exec_linkReattempt_next {k : Nat} (h : (linkAt s l).attempts = some (k + 1)) :
    exec (.linkReattempt l) s = .next (settle (setLink s l { linkAt s l with state := 1, attempts := some k })) := by
  show execLinkReattempt l s = _
  simp only [execLinkReattempt, h, if_pos (Nat.le_one_iff_eq_zero_or_eq_one.mp hdown)]
  rfl

end Reattempt

/-! ### Lanes of an ACTIVE link, and its loss (R287, R303) -/

theorem exec_laneFail_down (lane : Nat) (pass : Bool) (h : active s l = false) : exec (.laneFail l lane pass) s = .next (settle s) :=
  if_pos (by rw [h]; rfl)

theorem exec_laneRetrainDone_none (h : (linkAt s l).retrain = none) : exec (.laneRetrainDone l) s = .next (settle s) := by
  show execLaneRetrainDone l s = _
  simp only [execLaneRetrainDone, h]
  rfl

theorem exec_laneRetrainDone_down (h : active s l = false) : exec (.laneRetrainDone l) s = .next (settle s) := by
  show execLaneRetrainDone l s = _
  simp only [execLaneRetrainDone, h, Bool.false_eq_true, if_false]
  split <;> rfl

theorem exec_spare_not {lane : BitVec 16} (phase : BitVec 8) (h : active s l = false ∨ 15 < lane.toNat) :
    exec (.spare l lane phase) s = .next (settle s) :=
  if_pos (by rcases h with h | h <;> simp [h])

theorem exec_signalLost_down (h : active s l = false) : exec (.signalLost l) s = .next (settle s) :=
  if_neg (by rw [h]; exact Bool.false_ne_true)

theorem exec_down_down (cause : BitVec 16) (h : active s l = false) : exec (.down l cause) s = .next (settle s) :=
  if_neg (by rw [h]; exact Bool.false_ne_true)

section Active

variable (hactive : active s l = true)

include hactive

/-- A lane that passes loopback fails for its channel. -/
theorem exec_laneFail_channel (lane : Nat) :
    exec (.laneFail l lane true) s = .next (settle (linkDown s l stLaneChannel true false)) :=
  if_neg (by rw [hactive]; exact Bool.false_ne_true)

theorem exec_laneFail_noSpare (lane : Nat) (h : freeSpares s (linkDie l) = 0) :
    exec (.laneFail l lane false) s = .next (settle (linkDown s l stSpareNone true false)) := by
  show execLaneFail l lane false s = _
  simp only [execLaneFail, hactive, spareLane_none h, Bool.not_true, Bool.false_eq_true, if_false]
  rfl

theorem exec_laneFail_spared (lane : Nat) (h : freeSpares s (linkDie l) ≠ 0) :
    exec (.laneFail l lane false) s = .next { s with
      net := { s.net with
        sparesUsed := tblMod 0 s.net.sparesUsed (linkDie l) (· + 1)
        links := tblSet s.net.links l { linkAt s l with
          spared := setBit (linkAt s l).spared lane true, retrain := some lane, osq := (linkAt s l).osq ++ [spareSet lane 0] } }
      tele := told s rkLaneSpared (srcLink l) none [] } := by
  show execLaneFail l lane false s = _
  simp only [execLaneFail, hactive, spareLane_some h, Bool.not_true, Bool.false_eq_true, if_false]
  exact congrArg done (modLink_laneSpared s l lane (fun x => { x with retrain := some lane, osq := x.osq ++ [spareSet lane 0] }))

theorem exec_laneRetrainDone_some (h : (linkAt s l).retrain = some a) : exec (.laneRetrainDone l) s =
    .next (settle (setLink s l { linkAt s l with
      retrain := none, replay := (linkAt s l).retry.length, osq := (linkAt s l).osq ++ [spareSet a 1] })) := by
  show execLaneRetrainDone l s = _
  simp only [execLaneRetrainDone, h, hactive, if_true]
  rfl

theorem exec_spare_active {lane : BitVec 16} (hlane : lane.toNat ≤ 15) :
    exec (.spare l lane 0) s = .next (settle (setLink s l { linkAt s l with stopped := true })) ∧
    exec (.spare l lane 1) s = .next (settle (setLink s l { linkAt s l with stopped := false })) := by
  have hin : ¬ (!active s l || decide (15 < lane.toNat)) = true := by simpa [hactive] using hlane
  exact ⟨if_neg hin, if_neg hin⟩

theorem exec_signalLost_active : exec (.signalLost l) s = .next (settle (linkDown s l stSignalLost true false)) := if_pos hactive

theorem exec_down_active (cause : BitVec 16) : exec (.down l cause) s = .next (settle (linkDown s l cause false false)) := if_pos hactive

end Active

end Sys2Proof.Machine
end

section
/-! PROOF. Link commands: a take-down of a link that carries no in-band session leaves the Kiosk alone, so that it comes to the same before the
request is heard and after (R302, R303, R356; log entry 55). -/

namespace Sys2Proof.Machine

open Sys2Proof.Safety

variable {s : State} {l n : Nat}

/-! ### The loss of a link apart from its sessions -/

theorem heardReq_eq_withKiosk (s : State) (q : KReq) : heardReq s q = withKiosk s (heardReq s q).kiosk := withinKiosk_heardReq q s s

section WithKiosk

variable (s : State) (k : Kiosk)

@[simp] theorem dropAt_withKiosk (l : Nat) : dropAt (withKiosk s k) l = withKiosk (dropAt s l) k := rfl
@[simp] theorem modLink_withKiosk (l : Nat) (f : Link → Link) : modLink (withKiosk s k) l f = withKiosk (modLink s l f) k := rfl
@[simp] theorem emit_withKiosk (rk : RecKind) (src : Src) (pl : Option Nat) (args : List (Nat × Nat)) :
    emit (withKiosk s k) rk src pl args = withKiosk (emit s rk src pl args) k := rfl

@[simp] theorem handOff_withKiosk (l source : Nat) (p : Pkt) : handOff (withKiosk s k) l source p = withKiosk (handOff s l source p) k := by
  have hviolation : ∀ t : State, containedHold (emit (withKiosk t k) rkPlotViolation (srcLink l) (some p.plot.toNat) []) [p.plot.toNat] hcIsolation =
      withKiosk (containedHold (emit t rkPlotViolation (srcLink l) (some p.plot.toNat) []) [p.plot.toNat] hcIsolation) k :=
    fun t => by rw [emit_withKiosk, containedHold_withKiosk]
  unfold handOff
  simp only [apply_ite (fun t => withKiosk t k), ← hviolation]
  rfl

@[simp] theorem completeCut_withKiosk (l : Nat) (fs : List (List Byte)) :
    completeCut (withKiosk s k) l fs = withKiosk (completeCut s l fs) k := by
  cases fs with
  | nil => rfl
  | cons h r =>
    have hroute : ∀ p, routeOf (withKiosk s k) (some l) p = routeOf s (some l) p := fun _ => rfl
    have hlink : linkAt (withKiosk s k) l = linkAt s l := rfl
    simp only [completeCut, hroute, hlink, plotAt_withKiosk, handOff_withKiosk]
    split
    · split
      · split <;> rfl
      · rfl
    · rfl

@[simp] theorem completeCuts_withKiosk (l : Nat) : completeCuts (withKiosk s k) l = withKiosk (completeCuts s l) k :=
  foldl_withKiosk (fun s fs => completeCut_withKiosk s k l fs) _ s

end WithKiosk

/-- The link has left ACTIVE, its cause sent where `tell`, kept and reported (R303, R304). -/
def linkDropped (s : State) (l : Nat) (cause : U16) (tell commanded : Bool) : State :=
  emit (setLink (if tell then { s with out := s.out ++ [.wire l (downSet cause)] } else s) l { clearLink (linkAt s l) with
    state := 0, downCause := cause, dropped := (linkAt s l).dropped + BitVec.ofNat 64 (linkAt s l).txq.length,
    attempts := if commanded then none else some 3, keyx := .idle, keys := [] }) rkLinkDown (srcLink l) none [(16, cause.toNat)]

/-- The loss of a link, its sessions still open: the plots concerned hold (R303). -/
def linkLost (s : State) (l : Nat) (cause : U16) (tell commanded : Bool) : State :=
  let t := linkDropped (completeCuts s l) l cause tell commanded
  containedHold t (plotsOnLink t l) hcLink

theorem linkDown_eq (s : State) (l : Nat) (cause : U16) (tell commanded : Bool) :
    linkDown s l cause tell commanded = closeLinkSessions (linkLost s l cause tell commanded) l := rfl

theorem linkDropped_withKiosk (s : State) (k : Kiosk) (l : Nat) (cause : U16) (tell commanded : Bool) :
    linkDropped (withKiosk s k) l cause tell commanded = withKiosk (linkDropped s l cause tell commanded) k := by
  cases tell <;> rfl

theorem plotsOnLink_withKiosk (s : State) (k : Kiosk) (l : Nat) : plotsOnLink (withKiosk s k) l = plotsOnLink s l := rfl

theorem linkLost_withKiosk (s : State) (k : Kiosk) (l : Nat) (cause : U16) (tell commanded : Bool) :
    linkLost (withKiosk s k) l cause tell commanded = withKiosk (linkLost s l cause tell commanded) k := by
  simp only [linkLost, completeCuts_withKiosk, linkDropped_withKiosk, plotsOnLink_withKiosk, containedHold_withKiosk]

theorem linkLost_kiosk (s : State) (l : Nat) (cause : U16) (tell commanded : Bool) :
    (linkLost s l cause tell commanded).kiosk = s.kiosk := by
  have hown : linkLost s l cause tell commanded = withKiosk (linkLost s l cause tell commanded) s.kiosk :=
    linkLost_withKiosk s s.kiosk l cause tell commanded
  rw [hown]
  rfl

/-- No session is in-band: none goes down with a link (R356). -/
def noInband (s : State) : Prop := ∀ k, (sessAt s k).transport ≠ .inband

theorem closeLinkSessions_noInband (l : Nat) (h : noInband s) : closeLinkSessions s l = s := by
  refine List.foldlRecOn (motive := fun t => t = s) _ _ rfl (fun t ht k _ => ?_)
  rw [ht]
  exact if_neg (by simp [h k])

theorem noInband_heardReq (q : KReq) (h : noInband s) : noInband (heardReq s q) := by
  intro k
  unfold heardReq
  split
  · by_cases hk : k = q.slot
    · rw [hk, sessAt_modSess_same]
      split <;> exact h q.slot
    · rw [sessAt_modSess_ne _ _ hk]
      exact h k
  · exact h k

theorem linkDown_noInband (l : Nat) (cause : U16) (tell commanded : Bool) (h : noInband s) :
    linkDown s l cause tell commanded = linkLost s l cause tell commanded := by
  have hsame : noInband (linkLost s l cause tell commanded) := fun k => by
    rw [sessAt, linkLost_kiosk]
    exact h k
  rw [linkDown_eq, closeLinkSessions_noInband l hsame]

/-- Where no session is in-band, hearing a request and losing a link may change places. -/
theorem linkDown_heardReq (q : KReq) (l : Nat) (cause : U16) (tell commanded : Bool) (h : noInband s) :
    linkDown (heardReq s q) l cause tell commanded = heardReq (linkDown s l cause tell commanded) q := by
  have hheard : heardReq s q = withKiosk s (heardReq s q).kiosk := withinKiosk_heardReq q s s
  have hlost : heardReq (linkLost s l cause tell commanded) q = withKiosk (linkLost s l cause tell commanded) (heardReq s q).kiosk := by
    have := withinKiosk_heardReq q s (linkLost s l cause tell commanded)
    rwa [← linkLost_withKiosk] at this
  rw [linkDown_noInband l cause tell commanded (noInband_heardReq q h), linkDown_noInband l cause tell commanded h, hlost, hheard,
    linkLost_withKiosk]
  rfl

/-! ### LINK_BRING_UP and LINK_TAKE_DOWN -/

/-- A link that is DOWN or FAILED goes to DETECT; in any other state it stays as it is (log entry 55). -/
def broughtUp (s : State) (l : Nat) : State :=
  if (linkAt s l).state = 0 ∨ (linkAt s l).state = 7 then modLink s l (fun x => { x with state := 1, attempts := none }) else s

/-- LINK_BRING_UP's own condition and effect (R168, R284, R302). -/
def bringUpCondition (n : Nat) (half : Bool) (s : State) : Except U16 State :=
  if (dieAt s (linkDie (2 * n))).testing then .error stSelftestBusy
  else if half && !splitPort s n then .error stKioskState
  else .ok (broughtUp s (2 * n + bit half))

/-- LINK_TAKE_DOWN's own condition and effect (R284, R303). -/
def takeDownCondition (n : Nat) (half : Bool) (s : State) : Except U16 State :=
  if half && !splitPort s n then .error stKioskState
  else .ok (if active s (2 * n + bit half) then linkDown s (2 * n + bit half) stLinkCommanded true true
    else modLink s (2 * n + bit half) (fun x => { x with state := 0, downCause := stLinkCommanded, attempts := none }))

theorem exec_linkBringUp (q : KReq) (n : Nat) (half : Bool) (s : State) :
    exec (.linkBringUp q n half) s = done (kioskCmd s q (0x3000 + n) 0x02 true (fun s _ => bringUpCondition n half s)) := rfl

theorem exec_linkTakeDown (q : KReq) (n : Nat) (half : Bool) (s : State) :
    exec (.linkTakeDown q n half) s = done (kioskCmd s q (0x3000 + n) 0x02 true (fun s _ => takeDownCondition n half s)) := rfl

theorem broughtUp_withKiosk (s : State) (k : Kiosk) (l : Nat) : broughtUp (withKiosk s k) l = withKiosk (broughtUp s l) k := by
  unfold broughtUp
  by_cases h : (linkAt s l).state = 0 ∨ (linkAt s l).state = 7
  · rw [if_pos h]
    exact if_pos h
  · rw [if_neg h]
    exact if_neg h

theorem conditionApart_bringUp (n : Nat) (half : Bool) : conditionApart (bringUpCondition n half) := by
  intro s k
  simp only [bringUpCondition, broughtUp_withKiosk, apply_ite (Except.map _)]
  rfl

/-- Both halves of a port are on one die (R14, R302). -/
theorem linkDie_half (n : Nat) (half : Bool) : linkDie (2 * n + bit half) = linkDie (2 * n) := by
  cases half <;> simp only [linkDie, bit, Bool.false_eq_true, if_false, if_true] <;> omega

/-- Half a is there in either mode, half b on a split port (R284). -/
theorem half_exists {half : Bool} (h : half = false ∨ splitPort s n = true) : (half && !splitPort s n) = false := by
  rcases h with h | h <;> simp [h]

section Commands

variable {q : KReq} {half : Bool} (hadmits : admits s q (0x3000 + n) 0x02 true)

include hadmits

theorem notOk_linkBringUp {st : U16} (h : bringUpCondition n half s = .error st) (hst : st ≠ stOk) : notOk s (.linkBringUp q n half) q st :=
  notOk_of_kioskCmd (exec_linkBringUp q n half s) hadmits (fun _ => conditionApart_bringUp n half) h hst

theorem okWith_linkBringUp (htest : (dieAt s (linkDie (2 * n))).testing = false) (hhalf : half = false ∨ splitPort s n = true) :
    okWith s (.linkBringUp q n half) q (broughtUp s (2 * n + bit half)) :=
  okWith_of_kioskCmd (exec_linkBringUp q n half s) hadmits (fun _ => conditionApart_bringUp n half)
    (by rw [bringUpCondition, htest, half_exists hhalf]; rfl)

theorem notOk_linkTakeDown (hhalf : half = true) (hsplit : splitPort s n = false) : notOk s (.linkTakeDown q n half) q stKioskState := by
  have hheard : takeDownCondition n half (heardReq s q) = .error stKioskState := by
    have hsplit' : splitPort (heardReq s q) n = false := by rw [heardReq_eq_withKiosk]; exact hsplit
    rw [takeDownCondition, hhalf, hsplit']
    rfl
  refine ⟨_, exec_linkTakeDown q n half s, ?_⟩
  rw [kioskCmd, kioskReq_pass _ hadmits, hheard]
  exact refused_answer s q _ (by decide)

/-- A take-down whose effect is the same before its request is heard and after has that effect. -/
theorem okWith_linkTakeDown {w : State} (hhalf : half = false ∨ splitPort s n = true)
    (hw : (if active (heardReq s q) (2 * n + bit half) then linkDown (heardReq s q) (2 * n + bit half) stLinkCommanded true true
      else modLink (heardReq s q) (2 * n + bit half) (fun x => { x with state := 0, downCause := stLinkCommanded, attempts := none })) =
      heardReq w q) : okWith s (.linkTakeDown q n half) q w := by
  have hheard : takeDownCondition n half (heardReq s q) = .ok (heardReq w q) := by
    have hhalf' : half = false ∨ splitPort (heardReq s q) n = true := by rw [heardReq_eq_withKiosk]; exact hhalf
    rw [takeDownCondition, half_exists hhalf', hw]
    rfl
  refine ⟨_, exec_linkTakeDown q n half s, ?_⟩
  rw [kioskCmd, kioskReq_pass _ hadmits, hheard]
  exact accepted_answer w q

end Commands

theorem active_heardReq (q : KReq) (l : Nat) : active (heardReq s q) l = active s l := by
  rw [heardReq_eq_withKiosk]
  rfl

theorem modLink_heardReq (q : KReq) (l : Nat) (f : Link → Link) : modLink (heardReq s q) l f = heardReq (modLink s l f) q := by
  have hheard : heardReq (modLink s l f) q = withKiosk (modLink s l f) (heardReq s q).kiosk := withinKiosk_heardReq q s (modLink s l f)
  rw [hheard, heardReq_eq_withKiosk]
  rfl

/-! ### The obligation -/

/-- Settles O42: each event of bring-up, of a lane and of a loss in its own state, and the two commands in terms of the state before the
request. -/
theorem linkStates : Obligations.LinkStates := by
  unfold Obligations.LinkStates
  intro s l x put stays fails falls
  refine ⟨?bringUp, exec_linkSignalDetect_unfit, fun c => ?lanes, fun b => ?param, exec_linkStateTimeout_over, exec_linkStateTimeout_not,
    fun h => h.elim exec_linkReattempt_none exec_linkReattempt_up, fun h hdown => exec_linkReattempt_last hdown h,
    fun k h hdown => exec_linkReattempt_next hdown h, fun hdown => ?down,
    fun hactive => ?active, fun q n half hadmits hl => ?commands⟩
  case bringUp =>
    refine List.forall_mem_cons.mpr ⟨⟨exec_linkSignalDetect_not, fun hstate hexists hfit => ?_⟩, List.forall_mem_cons.mpr
      ⟨⟨fun h => congrArg done (bringOn_not h), fun hstate hexists _ => congrArg done (bringOn_moves hstate hexists)⟩,
        List.forall_mem_singleton.mpr
          ⟨fun h => congrArg done (bringOn_not h), fun hstate hexists _ => congrArg done (bringOn_moves hstate hexists)⟩⟩⟩
    exact (exec_linkSignalDetect_fit (hfit.resolve_left (fun h => h rfl))).trans (congrArg done (bringOn_moves hstate hexists))
  case lanes =>
    refine ⟨exec_lanecheckDone_not, fun hstate hchannel => ⟨exec_lanecheckDone_channel hstate hchannel, fun hserdes => ?_⟩,
      fun hstate hchannel => ⟨exec_lanecheckDone_spent hstate hchannel, fun hpassed => ?_⟩,
      fun hstate hchannel hserdes hfull => ?_, fun hstate hchannel hserdes => ?_,
      fun a hstate hchannel hone hfree => exec_lanecheckDone_one hstate hchannel hone hfree⟩
    · have hlanes : spareLanes s l (sortNat c.serdes) = (s, false) := by rw [hserdes]; rfl
      exact (exec_lanecheckDone_channel hstate hchannel).trans (by rw [hlanes]; rfl)
    · exact exec_lanecheckDone_passed hstate hchannel (Prod.ext rfl hpassed)
    · have hlanes : spareLanes s l (sortNat c.serdes) = (s, true) := spareLanes_none (sortNat_ne_nil hserdes) hfull
      exact (exec_lanecheckDone_spent hstate hchannel (by rw [hlanes])).trans (by rw [hlanes]; rfl)
    · have hlanes : spareLanes s l (sortNat c.serdes) = (s, false) := by rw [hserdes]; rfl
      exact exec_lanecheckDone_passed hstate hchannel hlanes
  case param =>
    refine ⟨exec_param_not b, exec_param_refused, fun hstate hgood => ⟨exec_param_agreed hstate hgood, fun hmask => ?_⟩⟩
    rw [linkAt_linkActive b hmask]
    exact ⟨rfl, BitVec.toNat_ofNat .., rfl, rfl, rfl, rfl, rfl, rfl⟩
  case down =>
    exact ⟨fun a b => exec_laneFail_down a b hdown, exec_laneRetrainDone_down hdown, fun a b => exec_spare_not b (.inl hdown),
      exec_signalLost_down hdown, fun c => exec_down_down c hdown⟩
  case active =>
    exact ⟨exec_laneFail_channel hactive, exec_laneFail_noSpare hactive, exec_laneFail_spared hactive, exec_laneRetrainDone_none,
      fun a => exec_laneRetrainDone_some hactive, fun a => exec_spare_active hactive, fun a b h => exec_spare_not b (.inr h),
      exec_signalLost_active hactive, exec_down_active hactive⟩
  case commands =>
    subst hl
    have hdie : linkDie (2 * n + bit half) = linkDie (2 * n) := linkDie_half n half
    refine ⟨fun htest => ?busy, fun hhalf hsplit => ⟨fun htest => ?noHalf, notOk_linkTakeDown hadmits hhalf hsplit⟩,
      fun hhalf htest => ?up, fun hhalf => ?takeDown⟩
    case busy =>
      exact notOk_linkBringUp hadmits (by rw [bringUpCondition, ← hdie, htest]; rfl) (by decide)
    case noHalf =>
      exact notOk_linkBringUp hadmits (by rw [bringUpCondition, ← hdie, htest, hhalf, hsplit]; rfl) (by decide)
    case up =>
      have hup : okWith s (.linkBringUp q n half) q (broughtUp s (2 * n + bit half)) := okWith_linkBringUp hadmits (hdie ▸ htest) hhalf
      refine ⟨fun hdown => ?_, fun hnotDown hnotFailed => ?_⟩
      · rw [broughtUp, if_pos hdown] at hup
        exact hup
      · rw [broughtUp, if_neg (not_or.mpr ⟨hnotDown, hnotFailed⟩)] at hup
        exact hup
    case takeDown =>
      refine ⟨fun hactive hnone => okWith_linkTakeDown hadmits hhalf ?_, fun hdown => okWith_linkTakeDown hadmits hhalf ?_⟩
      · rw [active_heardReq, if_pos hactive, linkDown_heardReq q _ _ _ _ hnone]
      · rw [active_heardReq, if_neg (by rw [hdown]; exact Bool.false_ne_true), modLink_heardReq]
        rfl

end Sys2Proof.Machine
end

section
/-! PROOF. The route table, the direction map and the port mode, and the notices of stalled VCs, sprayed ranges and starved services (R284, R312,
R313, R317, R318, R326; log entries 2, 71 and 93). -/

namespace Sys2Proof.Machine

open Sys2Proof.Safety

variable {s : State} {q : KReq} {l n : Nat}

/-! ### Route table and direction map (R313, R318) -/

/-- The tables as written, to take effect at the next step 5 (R318). -/
def routesWritten (s : State) (es : List RouteEntry) : State :=
  { s with route := { s.route with table := es, written := true, dirty := true } }

/-- DIRECTION_MAP_WRITE's own condition and effect (R309, R318). -/
def directionMapCondition (v : BitVec 256) (s : State) : Except U16 State :=
  if v.toNat < 2 ^ 128 then .ok { s with route := { s.route with dir := v, dirty := true } } else .error stKioskRange

theorem exec_routeTableWrite (q : KReq) (d : DomSeg) (s : State) : exec (.routeTableWrite q d) s =
    done (kioskDom s q 0x3400 0x01 131088 d (fun s _ all => (routeTable? s all).map (routesWritten s))) := rfl

theorem exec_directionMapWrite (q : KReq) (v : BitVec 256) (s : State) : exec (.directionMapWrite q v) s =
    done (kioskCmd s q 0x3400 0x02 false (fun s _ => directionMapCondition v s)) := rfl

theorem conditionApart_routeTable (all : List Byte) : conditionApart (fun s => (routeTable? s all).map (routesWritten s)) := by
  intro s k
  have hsame : routeTable? (withKiosk s k) all = routeTable? s all := rfl
  dsimp only
  rw [hsame]
  cases routeTable? s all <;> rfl

theorem conditionApart_directionMap (v : BitVec 256) : conditionApart (directionMapCondition v) := by
  intro s k
  simp only [directionMapCondition, apply_ite (Except.map _)]
  rfl

/-- No table is refused with OK. -/
theorem routeTable_error_ne_ok {all : List Byte} {st : U16} (h : routeTable? s all = .error st) : st ≠ stOk := by
  have hst : st = stKioskRange ∨ st = stKioskState := by
    simp only [routeTable?] at h
    split at h
    · exact .inl (Except.error.inj h).symm
    · split at h
      · exact .inl (Except.error.inj h).symm
      · split at h
        · exact .inr (Except.error.inj h).symm
        · cases h
  rcases hst with rfl | rfl <;> decide

/-! ### The port mode (R284, R362) -/

/-- Both halves of a port are DOWN or FAILED. -/
def halvesDown (s : State) (n : Nat) : Bool :=
  ((linkAt s (2 * n)).state == 0 || (linkAt s (2 * n)).state == 7) &&
    ((linkAt s (2 * n + 1)).state == 0 || (linkAt s (2 * n + 1)).state == 7)

/-- The port may change its mode: its halves are down, and no plot's mask holds it. -/
theorem portFree_iff (s : State) (n : Nat) : (halvesDown s n && (plotsOfPort s n).isEmpty) = true ↔
    (∀ l ∈ [2 * n, 2 * n + 1], (linkAt s l).state = 0 ∨ (linkAt s l).state = 7) ∧ plotsOfPort s n = [] := by
  simp only [halvesDown, Bool.and_eq_true, Bool.or_eq_true, beq_iff_eq, List.isEmpty_iff, List.forall_mem_cons, List.not_mem_nil,
    false_implies, implies_true, and_true]

/-- PORT_MODE_WRITE's own condition, `down` being whether the halves were down before the request was heard (R284). -/
def portModeRefusal (down : Bool) (n : Nat) (v : BitVec 8) (s : State) (_ : Session) : Option U16 :=
  if 1 < v.toNat then some stKioskRange else if down && (plotsOfPort s n).isEmpty then none else some stKioskState

theorem exec_portModeWrite (q : KReq) (n : Nat) (v : BitVec 8) (s : State) : exec (.portModeWrite q n v) s =
    done (kioskRws s q (0x3000 + n) 0x01 0 (natLe 1 v.toNat) (portModeRefusal (halvesDown s n) n v)) := rfl

section PortMode

variable {v : BitVec 8} {down : Bool}

theorem portModeRefusal_range (x : Session) (h : 1 < v.toNat) : portModeRefusal down n v s x = some stKioskRange := if_pos h

theorem portModeRefusal_taken (x : Session) (hv : v.toNat ≤ 1) (h : (down && (plotsOfPort s n).isEmpty) = false) :
    portModeRefusal down n v s x = some stKioskState := by
  rw [portModeRefusal, if_neg (Nat.not_lt.mpr hv), h]
  rfl

theorem portModeRefusal_free (x : Session) (hv : v.toNat ≤ 1) (h : (down && (plotsOfPort s n).isEmpty) = true) :
    portModeRefusal down n v s x = none := by
  rw [portModeRefusal, if_neg (Nat.not_lt.mpr hv), h]
  rfl

end PortMode

/-- The answer to the writer of a snapshot leaves every port as it was. -/
theorem portAt_answerPend (s : State) (p : JPend) (st : U16) (n : Nat) : portAt (answerPend s p st) n = portAt s n := by
  unfold answerPend
  split
  · split
    · simp only [respond]
      split <;> rfl
    · rfl
  · rfl

/-- A snapshot of one new value leaves each port as the value does. -/
theorem portAt_commitPend_entry {p : JPend} {e : JEntry} (he : p.entry = some e) (hz : p.zmark = none)
    (hdom : objIsDomain e.index.toNat e.sub.toNat = false) (n : Nat) :
    portAt (commitPend s p) n = portAt (rwsPut s e.index.toNat e.sub.toNat p.sel e.value) n := by
  rw [commitPend_entry he hz hdom]
  exact portAt_answerPend ..

theorem rwsPut_portMode (s : State) {n : Nat} (hn : n < 64) (sel : Nat) (v : BitVec 8) :
    rwsPut s (0x3000 + n) 0x01 sel (natLe 1 v.toNat) = setPort s n { portAt s n with mode := v } := by
  have hport : 0x3000 ≤ 0x3000 + n ∧ 0x3000 + n ≤ 0x303F := by omega
  simp only [rwsPut, if_pos hport, Nat.add_sub_cancel_left, ofNat_leNat_natLe_byte]

/-- No port's mode is a DOMAIN (Table 12.10). -/
theorem objIsDomain_portMode : ∀ n < 64, objIsDomain (0x3000 + n) 0x01 = false := by decide

/-- A mode that waits alone is the port's after the next snapshot that a verify passes. -/
theorem exists_snapshot_of_portMode {c : Instr} {v : BitVec 8} {o : FlashObs} (hn : n < 64)
    (hwaits : awaitsSnapshot s c q (rwsPend q (0x3000 + n) 0x01 0 (natLe 1 v.toNat))) (hempty : s.journal.pend = [])
    (ho : o.first = true ∨ o.second = true) :
    ∃ t u, exec c s = .next t ∧ exec (.snapshot o) t = .next u ∧ portAt u n = { portAt s n with mode := v } := by
  obtain ⟨t, hexec, ht⟩ := hwaits
  have hpend : t.journal.pend = [rwsPend q (0x3000 + n) 0x01 0 (natLe 1 v.toNat)] := by rw [ht, hempty]; rfl
  have hport : portAt t n = portAt s n := by rw [ht]; rfl
  have hindex : (BitVec.ofNat 16 (0x3000 + n)).toNat = 0x3000 + n := Nat.mod_eq_of_lt (by omega)
  have hput (w : State) : portAt (rwsPut w (BitVec.ofNat 16 (0x3000 + n)).toNat 0x01 0 (natLe 1 v.toNat)) n = { portAt w n with mode := v } := by
    rw [hindex, rwsPut_portMode w hn, portAt_setPort_same]
  refine ⟨t, _, hexec, exec_snapshot_verified hpend ho, ?_⟩
  rw [portAt_settle, portAt_commitPend_entry rfl rfl (by rw [hindex]; exact objIsDomain_portMode n hn), ← hport]
  exact hput _

/-! ### Notices (R312, R317, R326) -/

section Notices

variable {vc e sub cls : Nat}

theorem exec_routeStall_due (hlong : s.route.stallLimit.toNat ≤ tblGet 0 (linkAt s l).stall vc) (hnew : vc ∉ (linkAt s l).stallSaid) :
    exec (.routeStall l vc) s = done (emit (setLink s l { linkAt s l with stallSaid := (linkAt s l).stallSaid ++ [vc] })
      rkRouteStall (srcLink l) none [(8, l), (3, vc)]) :=
  if_pos ⟨hlong, by simpa using hnew⟩

theorem exec_routeStall_not (h : tblGet 0 (linkAt s l).stall vc < s.route.stallLimit.toNat ∨ vc ∈ (linkAt s l).stallSaid) :
    exec (.routeStall l vc) s = .next (settle s) :=
  if_neg (fun ⟨hlong, hnew⟩ => h.elim (fun h => Nat.not_le.mpr h hlong) (fun h => by simp [h] at hnew))

theorem exec_sprayPressure_due (hlong : 4096 ≤ (tblGet {} s.route.sprays e).above) (harmed : (tblGet {} s.route.sprays e).armed = true) :
    exec (.sprayPressure e) s = done (emit { s with
      route := { s.route with sprays := tblSet s.route.sprays e { tblGet {} s.route.sprays e with armed := false } } }
      rkSprayPressure srcModule (some (tblGet {} s.route.sprays e).plot) [(16, e), (16, (tblGet {} s.route.sprays e).ratio)]) :=
  if_pos ⟨hlong, harmed⟩

theorem exec_sprayPressure_not (h : (tblGet {} s.route.sprays e).above < 4096 ∨ (tblGet {} s.route.sprays e).armed = false) :
    exec (.sprayPressure e) s = .next (settle s) :=
  if_neg (fun ⟨hlong, harmed⟩ => h.elim (fun h => Nat.not_le.mpr h hlong) (fun h => Bool.false_ne_true (h.symm.trans harmed)))

theorem exec_schedStarved_none (h : (linkAt s l).services.find? (fun v => v.sub == sub && v.cls == cls) = none) :
    exec (.schedStarved l sub cls) s = .next (settle s) := by
  show execSchedStarved l sub cls s = _
  simp only [execSchedStarved, h]
  rfl

section Service

variable {v : Service} (hv : (linkAt s l).services.find? (fun v => v.sub == sub && v.cls == cls) = some v)

include hv

theorem exec_schedStarved_not (h : v.dry < s.route.starveLimit.toNat ∨ v.said = true) : exec (.schedStarved l sub cls) s = .next (settle s) := by
  have hno : ¬ (s.route.starveLimit.toNat ≤ v.dry ∧ v.said = false) := fun ⟨hlong, hnew⟩ =>
    h.elim (fun h => Nat.not_le.mpr h hlong) (fun h => Bool.false_ne_true (hnew.symm.trans h))
  show execSchedStarved l sub cls s = _
  simp only [execSchedStarved, hv, if_neg hno]
  rfl

theorem exec_schedStarved_due (hlong : s.route.starveLimit.toNat ≤ v.dry) (hnew : v.said = false) :
    exec (.schedStarved l sub cls) s = .next { s with
      net := { s.net with links := tblSet s.net.links l { linkAt s l with
        services := (linkAt s l).services.map (fun w => if w.sub == sub && w.cls == cls then { w with said := true } else w) } }
      route := { s.route with notices := s.route.notices + 1 }
      tele := told s rkSchedStarved (srcLink l) (if sub < 32 then some sub else none) [(8, l), (8, sub), (2, cls), (32, v.dry)] } := by
  show execSchedStarved l sub cls s = _
  simp only [execSchedStarved, hv, if_pos (And.intro hlong hnew)]
  rfl

end Service

end Notices

/-! ### The obligation -/

/-- Settles O44: each write under its own condition, apart from the Kiosk, and each notice under its count and once in an episode. -/
theorem routesAndNotices : Obligations.RoutesAndNotices := by
  unfold Obligations.RoutesAndNotices
  intro s q
  refine ⟨fun d all hadmits hwhole => ?table, fun v hadmits => ?map, fun n v hadmits => ?mode, fun l vc => ?stall, fun e => ?spray,
    fun l sub cls => ?starved⟩
  case table =>
    have hf := fun _ : Session => conditionApart_routeTable all
    refine ⟨fun es hok => domOk_of_kioskDom (exec_routeTableWrite q d s) hadmits hwhole hf (by rw [hok]; rfl), fun st herr => ?_⟩
    exact domNotOk_of_kioskDom (exec_routeTableWrite q d s) hadmits hwhole hf (by rw [herr]; rfl) (routeTable_error_ne_ok herr)
  case map =>
    have hf := fun _ : Session => conditionApart_directionMap v
    exact ⟨fun h => notOk_of_kioskCmd (exec_directionMapWrite q v s) hadmits hf (if_neg (Nat.not_lt.mpr h)) (by decide),
      fun h => okWith_of_kioskCmd (exec_directionMapWrite q v s) hadmits hf (if_pos h)⟩
  case mode =>
    intro free
    have hfree : (halvesDown s n && (plotsOfPort s n).isEmpty) = true ↔ free := portFree_iff s n
    have hrefused {st : U16} (h : portModeRefusal (halvesDown s n) n v s (sessAt s q.slot) = some st) (hst : st ≠ stOk) :
        notOk s (.portModeWrite q n v) q st :=
      notOk_of_kioskRws (exec_portModeWrite q n v s) hadmits (fun _ _ _ => rfl) h hst
    have hwaits (hv : v.toNat ≤ 1) (h : free) :
        awaitsSnapshot s (.portModeWrite q n v) q (rwsPend q (0x3000 + n) 0x01 0 (natLe 1 v.toNat)) :=
      awaitsSnapshot_of_kioskRws (exec_portModeWrite q n v s) hadmits (fun _ _ _ => rfl) (portModeRefusal_free _ hv (hfree.mpr h))
    refine ⟨fun hv => hrefused (portModeRefusal_range _ hv) (by decide), fun hv h => hrefused (portModeRefusal_taken _ hv ?_) (by decide),
      hwaits, fun o hn hv h hempty ho => exists_snapshot_of_portMode hn (hwaits hv h) hempty ho⟩
    exact Bool.eq_false_iff.mpr (mt hfree.mp h)
  case stall => exact ⟨exec_routeStall_due, exec_routeStall_not⟩
  case spray => exact ⟨exec_sprayPressure_due, exec_sprayPressure_not⟩
  case starved =>
    exact ⟨exec_schedStarved_none, fun v hv => ⟨exec_schedStarved_not hv, exec_schedStarved_due hv⟩⟩

end Sys2Proof.Machine
end
